-- ==== Sys2Proof/Word.lean ====
section
/-! DEFINITION. The widths of the device: a register, an address and a program integer are 64-bit words (R11, R109), memory is bytes. -/

namespace Sys2Proof

abbrev Word := BitVec 64
abbrev Byte := BitVec 8

end Sys2Proof
end

