-- ==== Sys2Proof/Syntax.lean ====
section
/-! DEFINITION. The commands of the block: one constructor of `Instr` for each row of the opcode table, with the row's operands, and the operand types. -/

namespace Sys2Proof

/-- Completion statuses of Table 12.10 (R377). -/
inductive Status where
  | ok | aborted | fenceCycle | fenceTimeout | ringTorn | handleInvalid | faultUnresolved
  | rights | tierDataError | tierLate | barrierOrphan | poisonConsumed | resourceLost
  | notPermitted | busy | targetReset | epochStale | tallyMismatch | pairingRefused
  deriving DecidableEq, Repr

/-- The kinds of access of Table 11.3 and of the ACCESS byte of Table 11.7. -/
inductive Access where
  | read | write | atomic | image
  deriving DecidableEq, Repr

/-- A sequencer slot of Table 4.7 without its opcode, which the command names. -/
structure SeqArgs where
  gn : Bool
  gi : BitVec 3
  rd : BitVec 6
  ra : BitVec 6
  rb : BitVec 6
  mode : BitVec 2
  imm : BitVec 32
  deriving DecidableEq, Repr

/-- The four slots of an array-operation word (Table 4.10). -/
structure AopArgs where
  s0 : Word
  s1 : Word
  s2 : Word
  s3 : Word
  deriving DecidableEq, Repr

/-- The issue digests of the four sequencers (R103): what an upset of one sequencer changes. -/
structure Digests where
  a0 : Word
  a1 : Word
  a2 : Word
  a3 : Word
  deriving DecidableEq, Repr

/-- A lane instruction of Table 6.3 issued by the current path of one group slot of one logical tile.
CLASS is the command's; `low` is bits [31:0] (RB, RC, RM, SAT and reserved, or IMM, or RB and OFF). -/
structure LaneArgs where
  tile : Nat
  slot : Nat
  func : BitVec 8
  pn : Bool
  pi : BitVec 3
  rd : BitVec 8
  ra : BitVec 8
  low : BitVec 32
  deriving DecidableEq, Repr

/-- The four port timestamps of a fine-synchronisation exchange in picoseconds (R210). -/
structure SyncStamps where
  t1 : Int
  t2 : Int
  t3 : Int
  t4 : Int
  deriving DecidableEq, Repr

/-- One lane of an atomic at the home (R187, R188): FUNC[6:0] of class ATOM, the width, the byte in the line, the operands. -/
structure AtomLane where
  func : BitVec 7
  wide : Bool
  off : Nat
  a : Word
  b : Word
  deriving DecidableEq, Repr

/-- The tag parity rows of Table 10.5. -/
inductive TagErr where
  | l1Core | l2OrSystem | duplicate | sharedOneCopy | tileClean | tileDirty | both
  deriving DecidableEq, Repr

/-- A node-fabric packet: the header of Table 13.3 and its payload. -/
structure Packet where
  final : Bool
  retx : Bool
  dst : Nat
  src : Nat
  win : Nat
  epoch : BitVec 32
  tag : Nat
  len : Nat
  addr : Nat
  token : Word
  pmask : BitVec 64
  payload : List Byte
  deriving DecidableEq, Repr

/-- A die's identity message (R440), with the lock of its root where it has one (R442). -/
structure DieIdentity where
  kind : Nat
  rev : Nat
  feat : Nat
  minpair : Nat
  serial : BitVec 128
  romPass : Bool
  rootLocked : Bool
  deriving DecidableEq, Repr

/-- The outcomes a DECISION record imposes (Table 16.3). -/
inductive TwinDecision where
  | faultResolve (tag : Nat) (page : Nat) (fail : Bool)
  | deadline (tag : Nat) (obj : Nat) (seg : Nat)
  | fenceSignal (index : Nat) (value : Nat)
  | copyPlacement (obj : Nat) (seg : Nat) (frames : List Nat)
  | regWrite (addr : Nat) (v : Word)
  deriving DecidableEq, Repr

/-- Operating modes of the IEEE 1149.7 controller that its escape sequences select (R520). -/
inductive TapMode where
  | fourWire | twoPinSeries | twoPinStar2
  deriving DecidableEq, Repr

/-- The sampled quantities of Table 20.4. -/
inductive LimitKind where
  | accDie (d : Nat) | hbmStack (n : Nat) | ctrlDie (d : Nat) | inlet | outlet
  | power1ms | power100us | current | voltage
  deriving DecidableEq, Repr

/-- The commands: row by row of the opcode table, in its order. -/
inductive Instr where
  | registerWrite (addr : Nat) (v : Word)
  | misalignedRegisterAccess (isWrite : Bool) (addr : Nat) (width : Nat)
  | dropCountRead (same : Option Nat)
  | ecallEnq (core : Nat)
  | ecallFsig (core : Nat)
  | ecallExit (core : Nat)
  | ecallOther (core : Nat)
  | coreTaskReturn (core : Nat)
  | coreException (core : Nat) (cause : Nat) (tval : Word)
  | cboClean (core : Nat) (va : Word)
  | cboFlush (core : Nat) (va : Word)
  | cboInval (core : Nat) (va : Word)
  | cboZero (core : Nat) (va : Word)
  | splitChange (op : Nat)
  | l1InvalidateAllComplete (tile : Nat)
  | reefSramLimitWrite (v : Word)
  | tileSelfTestEnd (die : Nat) (q : Nat) (unit : Nat)
  | firmwareRotation (dies : BitVec 4)
  | spareRetestDue (die : Nat) (q : Nat)
  | sliceExpiry
  | yieldWaitExpiry
  | reefSaveComplete (cycles : Nat)
  | reefRestoreComplete
  | imageLoadComplete (poisoned : Bool)
  | resyncComplete (dig : Digests)
  | seqNop (a : SeqArgs)
  | seqAdd (a : SeqArgs)
  | seqSub (a : SeqArgs)
  | seqAnd (a : SeqArgs)
  | seqOr (a : SeqArgs)
  | seqXor (a : SeqArgs)
  | seqShl (a : SeqArgs)
  | seqShr (a : SeqArgs)
  | seqSar (a : SeqArgs)
  | seqMul (a : SeqArgs)
  | seqMin (a : SeqArgs)
  | seqMax (a : SeqArgs)
  | seqMinu (a : SeqArgs)
  | seqMaxu (a : SeqArgs)
  | seqAddi (a : SeqArgs)
  | seqSubi (a : SeqArgs)
  | seqAndi (a : SeqArgs)
  | seqOri (a : SeqArgs)
  | seqXori (a : SeqArgs)
  | seqShli (a : SeqArgs)
  | seqShri (a : SeqArgs)
  | seqSari (a : SeqArgs)
  | seqMuli (a : SeqArgs)
  | seqMini (a : SeqArgs)
  | seqMaxi (a : SeqArgs)
  | seqMinui (a : SeqArgs)
  | seqMaxui (a : SeqArgs)
  | seqLih (a : SeqArgs)
  | seqCmp (a : SeqArgs)
  | seqCmpi (a : SeqArgs)
  | seqLdc (a : SeqArgs)
  | seqLdd (a : SeqArgs)
  | seqOrdl (a : SeqArgs)
  | seqDbase (a : SeqArgs)
  | seqDscale (a : SeqArgs)
  | seqMovh (a : SeqArgs)
  | seqHcmp (a : SeqArgs)
  | seqHclr (a : SeqArgs)
  | seqBr (a : SeqArgs)
  | seqLoop (a : SeqArgs)
  | seqEnd (a : SeqArgs)
  | aop (a : AopArgs) (dig : Digests)
  | matrixPartStart (op : Nat)
  | flowPartStart (op : Nat)
  | flowPartEnd (op : Nat)
  | arrayOpDone (op : Nat)
  | seqWaita (a : SeqArgs)
  | seqLdt (a : SeqArgs)
  | seqStt (a : SeqArgs)
  | seqXlt (a : SeqArgs)
  | moveComplete (tok : Nat) (err : Option Status)
  | seqWaitm (a : SeqArgs)
  | seqEnq (a : SeqArgs)
  | seqFsig (a : SeqArgs)
  | seqRotp (a : SeqArgs)
  | seqYldp (a : SeqArgs)
  | seqTally (a : SeqArgs)
  | blockPlacement (die : Nat)
  | intAdd (l : LaneArgs)
  | intSub (l : LaneArgs)
  | intMul (l : LaneArgs)
  | intMulhi (l : LaneArgs)
  | intMulhiu (l : LaneArgs)
  | intAnd (l : LaneArgs)
  | intOr (l : LaneArgs)
  | intXor (l : LaneArgs)
  | intShl (l : LaneArgs)
  | intShr (l : LaneArgs)
  | intSar (l : LaneArgs)
  | intMin (l : LaneArgs)
  | intMax (l : LaneArgs)
  | intMinu (l : LaneArgs)
  | intMaxu (l : LaneArgs)
  | intPopc (l : LaneArgs)
  | intClz (l : LaneArgs)
  | intMad (l : LaneArgs)
  | intMov (l : LaneArgs)
  | fp32Add (l : LaneArgs)
  | fp32Sub (l : LaneArgs)
  | fp32Mul (l : LaneArgs)
  | fp32Fma (l : LaneArgs)
  | fp32Min (l : LaneArgs)
  | fp32Max (l : LaneArgs)
  | fp32Abs (l : LaneArgs)
  | fp32Neg (l : LaneArgs)
  | fp32Rint (l : LaneArgs)
  | fp32Ldexp (l : LaneArgs)
  | fp32Rcp (l : LaneArgs)
  | fp32Div (l : LaneArgs)
  | fp32Sqrt (l : LaneArgs)
  | fp32Rsqrt (l : LaneArgs)
  | fp32Exp (l : LaneArgs)
  | fp32Exp2 (l : LaneArgs)
  | fp32Log (l : LaneArgs)
  | fp32Log2 (l : LaneArgs)
  | fp32Tanh (l : LaneArgs)
  | fp32Sigmoid (l : LaneArgs)
  | fp32Erf (l : LaneArgs)
  | fp32Sin (l : LaneArgs)
  | fp32Cos (l : LaneArgs)
  | fp64Add (l : LaneArgs)
  | fp64Sub (l : LaneArgs)
  | fp64Mul (l : LaneArgs)
  | fp64Fma (l : LaneArgs)
  | fp64Min (l : LaneArgs)
  | fp64Max (l : LaneArgs)
  | fp64Abs (l : LaneArgs)
  | fp64Neg (l : LaneArgs)
  | fp64Rint (l : LaneArgs)
  | fp64Ldexp (l : LaneArgs)
  | fp64Rcp (l : LaneArgs)
  | fp64Div (l : LaneArgs)
  | fp64Sqrt (l : LaneArgs)
  | fp64Rsqrt (l : LaneArgs)
  | fp64Exp (l : LaneArgs)
  | fp64Exp2 (l : LaneArgs)
  | fp64Log (l : LaneArgs)
  | fp64Log2 (l : LaneArgs)
  | fp64Tanh (l : LaneArgs)
  | fp64Sigmoid (l : LaneArgs)
  | fp64Erf (l : LaneArgs)
  | fp64Sin (l : LaneArgs)
  | fp64Cos (l : LaneArgs)
  | laneCvt (l : LaneArgs)
  | laneCmp (l : LaneArgs)
  | laneSel (l : LaneArgs)
  | lanePand (l : LaneArgs)
  | lanePor (l : LaneArgs)
  | lanePxor (l : LaneArgs)
  | lanePnot (l : LaneArgs)
  | laneBra (l : LaneArgs)
  | laneJoin (l : LaneArgs)
  | laneBar (l : LaneArgs)
  | laneExit (l : LaneArgs)
  | laneNop (l : LaneArgs)
  | lds8 (l : LaneArgs)
  | lds16 (l : LaneArgs)
  | lds32 (l : LaneArgs)
  | lds64 (l : LaneArgs)
  | lds8s (l : LaneArgs)
  | lds16s (l : LaneArgs)
  | sts8 (l : LaneArgs)
  | sts16 (l : LaneArgs)
  | sts32 (l : LaneArgs)
  | sts64 (l : LaneArgs)
  | ldsa32 (l : LaneArgs)
  | ldsa64 (l : LaneArgs)
  | ld8 (l : LaneArgs)
  | ld16 (l : LaneArgs)
  | ld32 (l : LaneArgs)
  | ld64 (l : LaneArgs)
  | ldcg8 (l : LaneArgs)
  | ldcg16 (l : LaneArgs)
  | ldcg32 (l : LaneArgs)
  | ldcg64 (l : LaneArgs)
  | st8 (l : LaneArgs)
  | st16 (l : LaneArgs)
  | st32 (l : LaneArgs)
  | st64 (l : LaneArgs)
  | ldc32 (l : LaneArgs)
  | ldc64 (l : LaneArgs)
  | atomAdd (l : LaneArgs)
  | atomFadd (l : LaneArgs)
  | atomMin (l : LaneArgs)
  | atomMax (l : LaneArgs)
  | atomMinu (l : LaneArgs)
  | atomMaxu (l : LaneArgs)
  | atomAnd (l : LaneArgs)
  | atomOr (l : LaneArgs)
  | atomXor (l : LaneArgs)
  | atomExch (l : LaneArgs)
  | atomCas (l : LaneArgs)
  | redo (l : LaneArgs)
  | laneLread (l : LaneArgs)
  | laneLpair (l : LaneArgs)
  | laneLrot (l : LaneArgs)
  | laneVmask (l : LaneArgs)
  | laneVfirst (l : LaneArgs)
  | lanePmask (l : LaneArgs)
  | laneS2r (l : LaneArgs)
  | laneFence (l : LaneArgs)
  | laneMemoryResponse (acc : Nat) (err : Option Status) (ext : BitVec 2048)
  | barrierExpiry (tile : Nat) (blk : Nat)
  | nfpDomCtrlWrite (v : Word)
  | ptpMessage (port : Nat) (isSync : Bool) (offsetNs : Int)
  | fineSyncExchange (resp : Option SyncStamps)
  | domainStart
  | tickBoundary
  | domainWord (rank : Nat) (div : Nat)
  | announcement (div : Nat) (tick : Nat) (start : Nat)
  | schedLoad
  | scheduledSlot (port : Nat) (entry : Nat) (lateData : Bool)
  | openSlot (port : Nat)
  | domainLaunchStart
  | hbmRead (addr : Nat) (symbols : Nat)
  | hbmWrite (addr : Nat) (data : BitVec 512) (poisoned : Bool)
  | perBankRefresh (pc : Nat) (latWaits : Bool) (idle : Bool)
  | refreshManagementRequest (pc : Nat) (bank : Nat)
  | channelRetrain (chan : Nat) (ok : Bool)
  | stackTemperatureRead (stack : Nat) (tenths : Int)
  | saturationWindowEnd (pc : Nat) (fullCycles : Nat)
  | scrub (addr : Nat) (symbols : Nat)
  | parityError (chan : Nat) (retrainOk : Bool)
  | takeOut (pc : Nat)
  | memReturn (pc : Nat)
  | margin (pc : Nat) (kind : Nat)
  | retire (pc : Nat)
  | sweep (stack : Nat) (all : Bool)
  | takeOutCopyComplete (pc : Nat)
  | returnCopyComplete (pc : Nat)
  | marginRunComplete (left : Nat) (right : Nat)
  | publishOpen (op : Nat)
  | publishWrite (op : Nat)
  | publishProgramComplete (op : Nat)
  | publishSeal (op : Nat)
  | shelfDelete (op : Nat)
  | promote (op : Nat)
  | evict (op : Nat)
  | bindRecv (op : Nat)
  | unbind (op : Nat)
  | shelfStripeRead (cp : Nat) (stripe : Nat) (bad : Bool)
  | promotionDeadline (wt : Nat)
  | refetchDeadline (cp : Nat)
  | rdShared (cache : Nat) (line : Nat)
  | rdOwn (cache : Nat) (line : Nat)
  | upgrade (cache : Nat) (line : Nat)
  | rdOnce (agent : Nat) (line : Nat)
  | wr (agent : Nat) (line : Nat) (mask : BitVec 64) (data : BitVec 512) (poisoned : Bool) (hint : BitVec 8)
  | atom (agent : Nat) (line : Nat) (lanes : List AtomLane)
  | clean (cache : Nat) (line : Nat)
  | flush (cache : Nat) (line : Nat)
  | cohMove (cache : Nat) (line : Nat)
  | evictLine (cache : Nat) (line : Nat)
  | snpShare (cache : Nat) (line : Nat)
  | snpClean (cache : Nat) (line : Nat)
  | snpInv (cache : Nat) (line : Nat)
  | snpAns (cache : Nat) (line : Nat)
  | snoopTimeout (cache : Nat) (line : Nat)
  | offline (agent : Nat)
  | online (agent : Nat)
  | dead (agent : Nat)
  | clusterCleaningComplete (agent : Nat)
  | wayTargetWrite (c : Nat) (v : Word)
  | wayCleaningComplete (c : Nat)
  | cacheDataError (cache : Nat) (line : Nat) (dbl : Bool)
  | cacheTagParityError (kind : TagErr) (cache : Nat) (line : Nat) (home : Nat)
  | dumpHandlerFailure
  | translationQuery (port : Nat) (tag : Nat) (va : Word) (acc : Access) (lines : Nat)
  | walkReadComplete (walk : Nat)
  | faultRetry (req : Nat)
  | ctuRetry (id : Nat)
  | ctuFail (id : Nat)
  | faultTimeout (id : Nat)
  | invRange (tag : Nat) (va : Word) (size : Nat) (count : Nat)
  | invTag (tag : Nat)
  | invalidationComplete (inv : Nat)
  | counterHalving
  | faultRingEnable (v : Word)
  | ctuSwitchover (die : Nat)
  | standbyCtuFailure
  | sqTail (qid : Nat) (v : Word)
  | cqHead (qid : Nat) (v : Word)
  | entryRead (qid : Nat) (ext : BitVec 1024)
  | entryReRead (qid : Nat) (ext : BitVec 1024)
  | entryDispatch (qid : Nat) (cb : List Byte)
  | nopEntry (op : Nat)
  | launchArray (op : Nat)
  | launchThreads (op : Nat)
  | copy (op : Nat)
  | collective (op : Nat)
  | coreTask (op : Nat) (pick : Nat)
  | feWait (op : Nat)
  | feSignal (op : Nat)
  | feAlloc (op : Nat) (base : Nat) (frames : List Nat)
  | feFree (op : Nat)
  | feInvalidate (op : Nat)
  | graphLaunch (op : Nat)
  | createContext (op : Nat) (rootPa : Nat)
  | destroyContext (op : Nat)
  | createQueue (op : Nat) (fcore : Nat)
  | resetQueue (op : Nat)
  | resumeQueue (op : Nat)
  | destroyQueue (op : Nat)
  | createFence (op : Nat)
  | destroyFence (op : Nat)
  | graphCreate (op : Nat) (nodes : List (BitVec 1024)) (edges : List (BitVec 32))
  | graphPatch (op : Nat) (node : BitVec 1024)
  | graphDestroy (op : Nat)
  | allocPhys (op : Nat) (frame : Nat)
  | freePhys (op : Nat)
  | operationComplete (op : Nat)
  | fenceTimeout (qid : Nat)
  | coreTaskTimeout (core : Nat)
  | functionDisable (f : Nat)
  | functionEnable (f : Nat)
  | functionDrainTimeout (f : Nat)
  | feFenceSignal (index : Nat)
  | clrError (index : Nat)
  | adminRingEnable (isCq : Bool) (v : Word)
  | interruptHoldoffExpiry (vec : Nat)
  | portEnable (port : Nat)
  | linkStepTimeout (link : Nat)
  | linkRestart (link : Nat)
  | laneFailure (link : Nat) (lane : Nat)
  | laneRepair (link : Nat)
  | dataFlit (link : Nat) (hdr : Word) (crcOk : Bool)
  | linkNak (link : Nat) (seq : Nat)
  | nfpWr (port : Nat) (p : Packet)
  | nfpRd (port : Nat) (p : Packet)
  | nfpAtom (port : Nat) (p : Packet)
  | fetch (port : Nat) (p : Packet)
  | coll (port : Nat) (p : Packet)
  | mgmt (port : Nat) (p : Packet)
  | nfpAck (p : Packet)
  | rdata (p : Packet)
  | atomr (p : Packet)
  | nack (p : Packet)
  | requestTimeout (tag : Nat)
  | jobEnd (j : Nat)
  | exportWindowOpen (n : Nat) (v : Word)
  | exportWindowClose (n : Nat)
  | collectiveTimeout (op : Nat)
  | ethernetFrame (port : Nat) (dst : Nat) (etype : Nat) (vlans : Nat) (p : Packet)
  | straitWr (addr : Nat) (data : List Byte) (pmask : BitVec 64)
  | straitRd (tag : Nat) (addr : Nat) (len : Nat)
  | straitAtom (tag : Nat) (addr : Nat) (aop : BitVec 8) (a : Word) (b : Word)
  | cpl (tag : Nat) (status : Nat) (data : List Byte) (pmask : BitVec 64)
  | straitRequestTimeout (tag : Nat)
  | straitLinkDown
  | dmaTailWrite (ch : Nat) (tail : Nat)
  | dmaDescriptorComplete (ch : Nat) (ext : BitVec 256) (err : Option Status)
  | dmaChannelEnable (ch : Nat) (en : Bool)
  | moduleTakeOut (link : Nat) (m : Nat)
  | narrowsFlit (link : Nat) (hdr : Word) (crcOk : Bool) (ptype : Nat)
  | narrowsNak (link : Nat) (seq : Nat) (failed : List Nat)
  | moduleIdle (link : Nat) (m : Nat)
  | dieResetRelease
  | discoveryStepTimeout (die : Nat)
  | identity (die : Nat) (idn : DieIdentity)
  | configuration
  | confirm (die : Nat)
  | clockMasterFailure
  | standbyRootFailure
  | referenceLoss
  | referenceReturn
  | dieReset (die : Nat)
  | dieDrainComplete
  | dieResetHoldEnd
  | dieRejoinComplete (idn : DieIdentity)
  | twinLinkEnable (en : Bool)
  | partnerSilence
  | twinLinkDown
  | twnDispatch (gdn : Nat) (qid : Nat) (entry : BitVec 1024)
  | twnRefusal (qid : Nat) (entry : BitVec 1024) (status : Status) (cause : Nat)
  | worldWrite (addr : Nat) (mask : BitVec 64) (data : BitVec 512) (poisoned : Bool)
  | twnAnswer (isAtom : Bool) (addr : Word) (len : Nat) (data : List Byte)
  | twnDecision (dc : TwinDecision)
  | twnComplete (gdn : Nat) (status : Status) (cause : Nat) (exit : BitVec 32)
  | twnStream (gdn : Nat) (addr : Nat) (mask : BitVec 64) (data : BitVec 512) (poisoned : Bool) (last : Bool)
  | twnAck (gdn : Nat)
  | twnCommit (gdn : Nat)
  | twnDigest (tseq : Nat) (dig : BitVec 256)
  | twnAgree (tseq : Nat)
  | twnDisagree (tseq : Nat) (dig : BitVec 256)
  | twnPosted (gdn : Nat)
  | twnFailing
  | twnPair
  | verdictWindward
  | verdictLeeward
  | twnSolo
  | twnTakeover
  | twnFence
  | verdictTimeout
  | seedingCopyComplete
  | coreSelfTestEnd (die : Nat) (cluster : Nat) (fails : BitVec 5) (unit : Nat)
  | firmwareCoreFailure (die : Nat) (f : Nat)
  | shelfBlockFailure (pkg : Nat) (stripes : List Nat) (badDigest : List Nat)
  | maintenanceEntry
  | maintenanceReached
  | maintenanceExit
  | testTile (target : Nat)
  | testTileAll
  | testCore (target : Nat)
  | shelfScan
  | testCommandComplete (failed : Nat) (unit : Nat)
  | tidemarkReport (n : Nat)
  | spillDrain
  | tdmAck (fatal : Bool) (seq : Nat)
  | tdmOpen (dump : Bool) (spill : Bool)
  | dumpRelease
  | lcTransition (target : Nat) (confirm : Nat)
  | quote (mask : BitVec 16)
  | mrExtend (index : Nat)
  | patchStage
  | patchClear
  | rollbackAdvance (v : Nat)
  | cryptoErase (confirm : Nat)
  | installCert
  | lcAdvance
  | tapBypass
  | tapIdcode
  | tapSamplePreload
  | tapExtest
  | tapClamp
  | tapHighz
  | tapEscape (mode : TapMode)
  | entropyHealthFailure (die : Nat)
  | leak
  | converterStart (railFail : Option Nat)
  | pwrGood
  | modEnFall
  | inputLoss
  | vddAccFault (die : Nat)
  | limitSample (lim : LimitKind) (reading : Int)
  | divisorChange
  | meterFrame
  | meterStale
  | meterPulse
  | meterSupplyChange (up : Bool)
  | coverOpening
  | readEnergy (index : Nat)
  | readIdent (index : Nat)
  | readLog (index : Nat)
  | readStatus (index : Nat)
  | coldRstN
  | warmRstN
  | resetCold
  | resetWarm
  | hbmTrainingComplete (badPcs : List Nat) (stackLost : Option Nat)
  | hardRepairComplete (pc : Nat) (bankRow : Nat)
  | poolFillComplete
  | shelfDirectoryLoaded
  | servicesStart
  | startUpReady
  | coreInstruction (core : Nat) (w : BitVec 32)
  | coreMemoryResponse (core : Nat) (err : Option Status) (ext : Word)
  | unknownOpcode (op : BitVec 8)
  | laneIllegalInstruction (l : LaneArgs)
  | trainingStepComplete (link : Nat) (ok : Bool)
  | atomrHoldExpiry (src : Nat) (tag : Nat) (epoch : BitVec 32)
  | dumpComplete
  | secCommandComplete
  | railFault (rail : Nat)
  | meterUnknownCmd (cmd : BitVec 8)
  | shelfPackagesInitialised (fails : BitVec 16)
  | standbyCtuCopyComplete
  deriving DecidableEq, Repr

end Sys2Proof
end

