-- ==== Sys2Proof/Machine/Fp.lean ====
section
/-! DEFINITION. The number formats of the Reef: exact values, rounding, conversions, block scales, and the exact value of an accumulation block (R36–R61). -/

namespace Sys2Proof.Machine

/-- A floating-point format of Table 2.1: exponent bits, mantissa bits, bias, and its special codes. -/
inductive Fmt where
  | b64 | b32 | b16 | bf16 | e4m3 | e5m2 | e3m2 | e2m3 | e2m1
  deriving DecidableEq, Repr

/-- An exact value: a signed finite `mag · 2^exp`, an infinity or NaN (no payload, R38). -/
inductive Num where
  | fin (neg : Bool) (mag : Nat) (exp : Int)
  | inf (neg : Bool)
  | nan
  deriving DecidableEq, Repr

/-- Exponent bits of a format (Table 2.1). -/
def Fmt.ebits : Fmt → Nat
  | .b64 => 11 | .b32 => 8 | .b16 => 5 | .bf16 => 8 | .e4m3 => 4 | .e5m2 => 5 | .e3m2 => 3 | .e2m3 => 2 | .e2m1 => 2

/-- Mantissa bits of a format (Table 2.1). -/
def Fmt.mbits : Fmt → Nat
  | .b64 => 52 | .b32 => 23 | .b16 => 10 | .bf16 => 7 | .e4m3 => 3 | .e5m2 => 2 | .e3m2 => 2 | .e2m3 => 3 | .e2m1 => 1

/-- Exponent bias of a format (Table 2.1). -/
def Fmt.bias : Fmt → Nat
  | .b64 => 1023 | .b32 => 127 | .b16 => 15 | .bf16 => 127 | .e4m3 => 7 | .e5m2 => 15 | .e3m2 => 3 | .e2m3 => 1 | .e2m1 => 1

/-- Whether a format has infinities (Table 2.1). -/
def Fmt.hasInf : Fmt → Bool
  | .e4m3 | .e3m2 | .e2m3 | .e2m1 => false
  | _ => true

/-- Whether a format has a NaN (Table 2.1). -/
def Fmt.hasNan : Fmt → Bool
  | .e3m2 | .e2m3 | .e2m1 => false
  | _ => true

/-- Width of a format's code in bits. -/
def Fmt.width (f : Fmt) : Nat := 1 + f.ebits + f.mbits

/-- The magnitude code of the largest finite value (Table 2.1). -/
def Fmt.maxCode (f : Fmt) : Nat :=
  if f.hasInf then (2 ^ f.ebits - 1) * 2 ^ f.mbits - 1
  else if f.hasNan then 2 ^ (f.ebits + f.mbits) - 2
  else 2 ^ (f.ebits + f.mbits) - 1

/-- The canonical NaN of a format (Table 2.2); 0 for a format without one. -/
def Fmt.canonNan : Fmt → Nat
  | .b64 => 0x7FF8000000000000 | .b32 => 0x7FC00000 | .b16 => 0x7E00 | .bf16 => 0x7FC0
  | .e4m3 => 0x7F | .e5m2 => 0x7E | _ => 0

/-- The value of a code (R37); a signalling NaN is a NaN (R38). -/
def Fmt.decode (f : Fmt) (code : Nat) : Num :=
  let neg := code / 2 ^ (f.ebits + f.mbits) % 2 == 1
  let e := code / 2 ^ f.mbits % 2 ^ f.ebits
  let m := code % 2 ^ f.mbits
  let top := 2 ^ f.ebits - 1
  if e = top ∧ f.hasInf then (if m = 0 then .inf neg else .nan)
  else if e = top ∧ f.hasNan ∧ m = 2 ^ f.mbits - 1 then .nan
  else if e = 0 then .fin neg m (1 - (f.bias : Int) - f.mbits)
  else .fin neg (2 ^ f.mbits + m) ((e : Int) - f.bias - f.mbits)

/-- Floor of the base-2 logarithm of `n / d · 2^e`, for `n` and `d` positive. -/
def ilog2 (n d : Nat) (e : Int) : Int :=
  let k : Int := (n.log2 : Int) - d.log2
  let lt := if 0 ≤ k then n < d * 2 ^ k.toNat else n * 2 ^ (-k).toNat < d
  (if lt then k - 1 else k) + e

/-- The numerator and denominator of `n / d · 2^e` as integers. -/
def scaleRat (n d : Nat) (e : Int) : Nat × Nat :=
  if 0 ≤ e then (n * 2 ^ e.toNat, d) else (n, d * 2 ^ (-e).toNat)

/-- A magnitude `n / d` rounded to an integer by a rounding code (Table 2.5; 4 is the RMM of the general cores, R55); `neg` is its sign. -/
def roundInt (rm : Nat) (neg : Bool) (n d : Nat) : Nat :=
  let q := n / d
  let r := n % d
  if r = 0 then q
  else match rm with
    | 0 => if 2 * r > d ∨ (2 * r = d ∧ q % 2 = 1) then q + 1 else q
    | 1 => q
    | 2 => if neg then q + 1 else q
    | 4 => if d ≤ 2 * r then q + 1 else q
    | _ => if neg then q else q + 1

/-- The sign bit of a format's code. -/
def Fmt.sign (f : Fmt) (neg : Bool) : Nat := if neg then 2 ^ (f.ebits + f.mbits) else 0

/-- What an overflow gives (R50): the largest finite value, an infinity, or in E4M3 the canonical NaN. -/
def Fmt.overflow (f : Fmt) (rm : Nat) (sat neg : Bool) : Nat :=
  if sat ∨ !f.hasNan then f.sign neg + f.maxCode
  else if rm = 0 ∨ rm = 4 ∨ (rm = 3 ∧ !neg) ∨ (rm = 2 ∧ neg) then
    (if f.hasInf then f.sign neg + f.maxCode + 1 else f.canonNan)
  else f.sign neg + f.maxCode

/-- A finite non-zero magnitude `n / d · 2^e` rounded once to a code (R48–R50). -/
def Fmt.roundRat (f : Fmt) (rm : Nat) (sat neg : Bool) (n d : Nat) (e : Int) : Nat :=
  let emin : Int := 1 - (f.bias : Int)
  let q := max (ilog2 n d e) emin - f.mbits
  let (a, b) := scaleRat n d (e - q)
  let k := roundInt rm neg a b
  let eb := (q + f.mbits + f.bias).toNat
  let code := eb * 2 ^ f.mbits + k - 2 ^ f.mbits
  if code > f.maxCode then f.overflow rm sat neg else f.sign neg + code

/-- An exact value rounded once to a code, with the saturate control (R48–R50). -/
def Fmt.round (f : Fmt) (rm : Nat) (sat : Bool) : Num → Nat
  | .nan => f.canonNan
  | .inf neg =>
    if sat ∨ !f.hasNan then f.sign neg + f.maxCode
    else if f.hasInf then f.sign neg + f.maxCode + 1 else f.canonNan
  | .fin neg 0 _ => f.sign neg
  | .fin neg m e => f.roundRat rm sat neg m 1 e

/-- A value rounded to the values of a format. -/
def Fmt.toFmt (f : Fmt) (rm : Nat) (x : Num) : Num := f.decode (f.round rm false x)

/-- The signed integer numerator of a finite value over `2^k`, `k` at most its exponent. -/
def signedAt (k : Int) (neg : Bool) (m : Nat) (e : Int) : Int :=
  let v : Int := (m * 2 ^ (e - k).toNat : Nat)
  if neg then -v else v

/-- The finite value of a signed numerator over `2^k`; `zneg` is the sign of a zero. -/
def ofSigned (zneg : Bool) (v : Int) (k : Int) : Num :=
  if v = 0 then .fin zneg 0 0 else .fin (v < 0) v.natAbs k

/-- The exact sum; the rounding code fixes the sign of an exact zero (IEEE 754-2019). -/
def Num.add (rm : Nat) : Num → Num → Num
  | .nan, _ => .nan
  | _, .nan => .nan
  | .inf a, .inf b => if a = b then .inf a else .nan
  | .inf a, _ => .inf a
  | _, .inf b => .inf b
  | .fin a m e, .fin b n g =>
    let k := min e g
    ofSigned (if m = 0 ∧ n = 0 ∧ a = b then a else rm == 2) (signedAt k a m e + signedAt k b n g) k

/-- The value with the other sign. -/
def Num.neg : Num → Num
  | .nan => .nan
  | .inf a => .inf !a
  | .fin a m e => .fin (!a) m e

/-- The absolute value. -/
def Num.abs : Num → Num
  | .nan => .nan
  | .inf _ => .inf false
  | .fin _ m e => .fin false m e

/-- The exact product; an infinity times a zero is NaN. -/
def Num.mul : Num → Num → Num
  | .nan, _ => .nan
  | _, .nan => .nan
  | .inf a, .inf b => .inf (a != b)
  | .inf a, .fin b n _ => if n = 0 then .nan else .inf (a != b)
  | .fin a m _, .inf b => if m = 0 then .nan else .inf (a != b)
  | .fin a m e, .fin b n g => .fin (a != b) (m * n) (e + g)

/-- Whether a value is zero. -/
def Num.isZero : Num → Bool
  | .fin _ 0 _ => true
  | _ => false

/-- Whether a value is finite. -/
def Num.isFinite : Num → Bool
  | .fin _ _ _ => true
  | _ => false

/-- The comparison of two values that are no NaN: below, equal (−0 equals +0) or above. -/
def Num.cmp : Num → Num → Ordering
  | .inf a, .inf b => if a = b then .eq else if a then .lt else .gt
  | .inf a, _ => if a then .lt else .gt
  | _, .inf b => if b then .gt else .lt
  | .fin a m e, .fin b n g => let k := min e g; compare (signedAt k a m e) (signedAt k b n g)
  | _, _ => .eq

/-- The sign of a value, of a zero too. -/
def Num.isNeg : Num → Bool
  | .fin a _ _ => a
  | .inf a => a
  | .nan => false

/-- IEEE 754-2019 minimum and maximum: NaN wins, −0 is below +0 (Table 5.6). -/
def Num.minMax (isMax : Bool) (x y : Num) : Num :=
  if x = .nan ∨ y = .nan then .nan
  else match Num.cmp x y with
    | .lt => if isMax then y else x
    | .gt => if isMax then x else y
    | .eq => if x.isNeg = isMax then y else x

/-- The quotient of two codes' values rounded once (RCP and DIV of Table 5.5, special values of Table 5.6). -/
def Fmt.div (f : Fmt) (rm : Nat) : Num → Num → Nat
  | .nan, _ => f.canonNan
  | _, .nan => f.canonNan
  | .inf _, .inf _ => f.canonNan
  | .inf a, .fin b _ _ => f.round rm false (.inf (a != b))
  | .fin a _ _, .inf b => f.sign (a != b)
  | .fin a m e, .fin b n g =>
    if n = 0 then (if m = 0 then f.canonNan else f.round rm false (.inf (a != b)))
    else if m = 0 then f.sign (a != b)
    else f.roundRat rm false (a != b) m n (e - g)

/-- Newton's steps toward the integer square root. -/
def isqrtLoop (n : Nat) : Nat → Nat → Nat
  | 0, x => x
  | k + 1, x => let y := (x + n / x) / 2; if y < x then isqrtLoop n k y else x

/-- The integer square root. -/
def isqrt (n : Nat) : Nat :=
  if n = 0 then 0 else isqrtLoop n (n.log2 + 8) (2 ^ (n.log2 / 2 + 1))

/-- A square root with a sticky bit below its last place: `√(n / d · 2^e)` is `mag · 2^exp` to 140 bits, exact when even. -/
def sqrtSticky (n d : Nat) (e : Int) : Nat × Int :=
  let s : Int := 300 + d.log2 - n.log2
  let s : Int := if (e - s) % 2 = 0 then s else s + 1
  let (a, b) := scaleRat n d s
  let v := a / b
  let r := isqrt v
  (2 * r + (if r * r = v ∧ a % b = 0 then 0 else 1), (e - s) / 2 - 1)

/-- The square root rounded by a rounding code (Table 5.5, Table 5.6). -/
def Fmt.sqrt (f : Fmt) (rm : Nat) : Num → Nat
  | .nan => f.canonNan
  | .inf a => if a then f.canonNan else f.round 0 false (.inf false)
  | .fin a m e =>
    if m = 0 then f.sign a
    else if a then f.canonNan
    else let (r, k) := sqrtSticky m 1 e; f.roundRat rm false false r 1 k

/-- The reciprocal square root, rounded to nearest (Table 5.5, Table 5.6). -/
def Fmt.rsqrt (f : Fmt) : Num → Nat
  | .nan => f.canonNan
  | .inf a => if a then f.canonNan else 0
  | .fin a m e =>
    if m = 0 then f.round 0 false (.inf a)
    else if a then f.canonNan
    else let (r, k) := sqrtSticky 1 m (-e); f.roundRat 0 false false r 1 k

/-- An integer's exact value. -/
def Num.ofInt (v : Int) : Num := .fin (v < 0) v.natAbs 0

/-- A float to a signed integer of `w` bits: rounded, saturated, NaN 0 (R51). -/
def Num.toInt (rm w : Nat) : Num → Int
  | .nan => 0
  | .inf a => if a then -(2 ^ (w - 1) : Int) else 2 ^ (w - 1) - 1
  | .fin a m e =>
    let (n, d) := scaleRat m 1 e
    let k : Int := (roundInt rm a n d : Nat)
    max (-(2 ^ (w - 1) : Int)) (min (2 ^ (w - 1) - 1) (if a then -k else k))

/-- The value rounded to an integral value, its sign kept (RINT of Table 5.5). -/
def Num.rint (rm : Nat) : Num → Num
  | .fin a m e => if 0 ≤ e then .fin a m e else .fin a (roundInt rm a m (2 ^ (-e).toNat)) 0
  | x => x

/-- The integer that LDEXP and SLICE take from a value: toward zero, clamped to ±2,200 (Table 5.5). -/
def Num.clampExp : Num → Int
  | .nan => 0
  | .inf a => if a then -2200 else 2200
  | .fin a m e =>
    let (n, d) := scaleRat m 1 e
    let k : Int := (min (n / d) 2200 : Nat)
    if a then -k else k

/-- A × 2^b (LDEXP of Table 5.5). -/
def Num.ldexp (x b : Num) : Num :=
  if x = .nan ∨ b = .nan then .nan
  else match x with
    | .fin a m e => .fin a m (e + b.clampExp)
    | y => y

/-! ### Block formats (R40–R46) -/

/-- The element types of Table 4.6 that Table 2.4 packs: how many bits an element takes. -/
def elemBits : Nat → Nat
  | 0x0 => 8 | 0x1 => 8 | 0x2 => 8 | 0x3 => 8 | 0x4 => 8 | 0x5 => 6 | 0x6 => 6 | 0x7 => 4 | 0x8 => 4
  | 0x9 => 16 | 0xA => 16 | 0xB => 32 | 0xC => 8 | 0xD => 32 | 0xE => 64 | _ => 16

/-- Elements that share one scale: 32 in MX, 16 in OB4, none elsewhere (R40, R42). -/
def blockSize (ty : Nat) : Nat :=
  if 3 ≤ ty ∧ ty ≤ 7 then 32 else if ty = 8 then 16 else 0

/-- The format of a floating-point element type; none for an integer type. -/
def elemFmt : Nat → Option Fmt
  | 0x1 => some .e4m3 | 0x2 => some .e5m2 | 0x3 => some .e4m3 | 0x4 => some .e5m2
  | 0x5 => some .e3m2 | 0x6 => some .e2m3 | 0x7 => some .e2m1 | 0x8 => some .e2m1
  | 0x9 => some .bf16 | 0xA => some .b16 | 0xB => some .b32 | 0xE => some .b64 | _ => none

/-- The signed value of a two's-complement code of `w` bits. -/
def signedOf (w code : Nat) : Int :=
  let c := code % 2 ^ w
  if c < 2 ^ (w - 1) then (c : Int) else (c : Int) - 2 ^ w

/-- The code of a signed value in `w` bits. -/
def codeOf (w : Nat) (v : Int) : Nat := (v % (2 ^ w : Int)).toNat

/-- The exact value of an element code, without its scales. -/
def elemValue (ty code : Nat) : Num :=
  match elemFmt ty with
  | some f => f.decode code
  | none => .ofInt (signedOf (elemBits ty) code)

/-- The value of a block's scale code: E8M0 for MX (R41), E6M2 for OB4 (R43, Table 2.3). -/
def scaleValue (ty code : Nat) : Num :=
  if code % 256 = 255 then .nan
  else if ty = 8 then
    let e := code / 4 % 64
    let m := code % 4
    if e = 0 then .fin false m (-32) else .fin false (4 + m) ((e : Int) - 33)
  else .fin false 1 ((code % 256 : Nat) - 127 : Int)

/-- The largest exponent of an MX element format (R52 step 2). -/
def mxEmax : Nat → Int
  | 3 => 8 | 4 => 15 | 5 => 4 | 6 => 2 | _ => 2

/-- The least E6M2 code whose value is at least `n / d · 2^e`; 254, the largest finite code, when none is. -/
def e6m2Least (n d : Nat) (e : Int) : Nat :=
  match (List.range 255).find? (fun c =>
      match scaleValue 8 c with
      | .fin _ m g =>
        let k := min e g
        decide (n * 2 ^ (e - k).toNat ≤ m * 2 ^ (g - k).toNat * d)
      | _ => false) with
  | some c => c
  | none => 254

/-- The largest of the magnitudes of a list of finite values. -/
def maxAbs : List Num → Num
  | [] => .fin false 0 0
  | x :: r => Num.minMax true x.abs (maxAbs r)

/-- One block converted into MX or OB4 (R52–R54): the scale code and the element codes. -/
def toBlock (ty : Nat) (t : Num) (vs : List Num) : Nat × List Nat :=
  let bad := (255, vs.map fun _ => 0)
  if t = .nan ∨ t.isZero ∨ !t.isFinite ∨ vs.any (!·.isFinite) then bad
  else
    let ws := vs.map fun v => Fmt.b32.decode (Fmt.b32.div 0 v t)
    if ws.any (!·.isFinite) then bad
    else match elemFmt ty, maxAbs ws with
      | some f, .fin _ m e =>
        if m = 0 then (0, ws.map fun w => if ty = 8 then 0 else f.sign w.isNeg)
        else if ty = 8 then
          let c := e6m2Least m 6 e
          let s := scaleValue 8 c
          (c, ws.map fun w => match w, s with
            | .fin a n g, .fin _ p q =>
              if n = 0 then f.sign a else f.roundRat 0 true a n p (g - q)
            | _, _ => 0)
        else
          let x := max (-127) (min 127 (ilog2 m 1 e - mxEmax ty))
          ((x + 127).toNat, ws.map fun w => match w with
            | .fin a n g => f.round 0 true (.fin a n (g - x))
            | _ => 0)
      | _, _ => bad

/-! ### Exact block accumulation (R57–R61) -/

/-- The products of an accumulation block as Table 2.7 sorts them. -/
structure BlockSum where
  nan : Bool
  pinf : Bool
  ninf : Bool
  allNegZero : Bool
  sum : Int                  -- over 2^-320 (R58)
  deriving DecidableEq, Repr

/-- The next product joins the block: the order of the products does not matter (R58). -/
def BlockSum.mulAdd (s : BlockSum) (x y : Num) : BlockSum :=
  match Num.mul x y with
  | .nan => { s with nan := true, allNegZero := false }
  | .inf a => { s with pinf := s.pinf || !a, ninf := s.ninf || a, allNegZero := false }
  | .fin a m e => { s with sum := s.sum + signedAt (-320) a m e, allNegZero := s.allNegZero && (a && m == 0) }

/-- The value of an accumulation block: the exact sum times T = t_A · t_B, rounded once (R58, Table 2.7). -/
def blockValue (t : Num) (prods : List (Num × Num)) : Nat :=
  let s : BlockSum := prods.foldl (fun s p => BlockSum.mulAdd s p.1 p.2) ⟨false, false, false, true, 0⟩
  let x : Num :=
    if s.nan ∨ (s.pinf ∧ s.ninf) then .nan
    else if s.pinf then .inf false
    else if s.ninf then .inf true
    else ofSigned (s.allNegZero && !prods.isEmpty) s.sum (-320)
  Fmt.b32.round 0 false (Num.mul x t)

/-- The accumulator's binary32 addition of a block value (R59). -/
def accAdd (acc blk : Nat) : Nat :=
  Fmt.b32.round 0 false (Num.add 0 (Fmt.b32.decode acc) (Fmt.b32.decode blk))

/-- The accumulator's INT32 addition of a block value, and whether it saturated (R61). -/
def accAddInt (acc : Nat) (blk : Int) : Nat × Bool :=
  let v := signedOf 32 acc + blk
  let c := max (-(2 ^ 31 : Int)) (min (2 ^ 31 - 1) v)
  (codeOf 32 c, c != v)

/-! ### Slicing (R62, Table 5.5) -/

/-- floor(log₂ |A|) + 1 as SEXP gives it. -/
def Num.sexp : Num → Num
  | .fin _ m e => if m = 0 then .ofInt 0 else .ofInt (ilog2 m 1 e + 1)
  | _ => .ofInt 32767

/-- The seven signed digits of an integer, digit 6 first (R62 step 3). -/
def sliceDigits : Nat → Int → List Int
  | 0, n => [n]
  | k + 1, n =>
    let u := n % 256
    let d := if u ≥ 128 then u - 256 else u
    d :: sliceDigits k ((n - d) / 256)

/-- Digit d_i of A under exponent B (SLICE of Table 5.5). -/
def Num.slice (a b : Num) (i : Nat) : Int :=
  match a, b with
  | .fin neg m e, .fin _ _ _ =>
    if Num.cmp b (.ofInt 32767) = .eq then 0
    else
      let (n, d) := scaleRat m 1 (e + 54 - b.clampExp)
      let k : Int := (min (roundInt 0 neg n d) (2 ^ 54) : Nat)
      (sliceDigits 6 (if neg then -k else k)).reverse.getD i 0
  | _, _ => 0

end Sys2Proof.Machine
end

