-- ==== Sys2Proof/Machine/Flags.lean ====
section
/-! DEFINITION. Condition codes and the flags they set: Table 4.9 for the sequencer and for floating-point comparisons, and the lane comparisons of Table 6.4. -/

namespace Sys2Proof.Machine

/-- A condition of the CMP column of Table 4.9 on two codes of `w` bits; none for an illegal code. -/
def cmpCond (w code a b : Nat) : Option Bool :=
  match code with
  | 0 => some (a == b)
  | 1 => some (a != b)
  | 2 => some (decide (signedOf w a < signedOf w b))
  | 3 => some (decide (signedOf w b ≤ signedOf w a))
  | 4 => some (decide (a < b))
  | 5 => some (decide (b ≤ a))
  | _ => none

/-- A condition of the HCMP column of Table 4.9 from an ordering; none for an illegal code. -/
def ordCond (code : Nat) (o : Ordering) : Option Bool :=
  match code with
  | 0 => some (o == .eq)
  | 1 => some (o != .eq)
  | 2 => some (o == .lt)
  | 3 => some (o != .lt)
  | 4 => some (o == .gt)
  | 5 => some (o != .gt)
  | _ => none

/-- A condition of the HCMP column on two values: with a NaN, NE is true and every other condition false (R117). -/
def numCond (code : Nat) (a b : Num) : Option Bool :=
  if a = .nan ∨ b = .nan then (ordCond code .eq).map fun _ => code == 1
  else ordCond code (Num.cmp a b)

/-- A lane comparison (class CMP of Table 6.4): FUNC[6:4] names the type, FUNC[2:0] the condition in the HCMP column. -/
def laneCond (ty code a b : Nat) : Option Bool :=
  match ty with
  | 0 => ordCond code (compare (signedOf 32 a) (signedOf 32 b))
  | 1 => ordCond code (compare (a % 2 ^ 32) (b % 2 ^ 32))
  | 2 => numCond code (Fmt.b32.decode (a % 2 ^ 32)) (Fmt.b32.decode (b % 2 ^ 32))
  | 3 => numCond code (Fmt.b64.decode a) (Fmt.b64.decode b)
  | 4 => ordCond code (compare (signedOf 64 a) (signedOf 64 b))
  | 5 => ordCond code (compare a b)
  | _ => none

end Sys2Proof.Machine
end

