-- ==== Sys2Proof/Config.lean ====
section
/-! DEFINITION. The free values of the model: constants without a body, one for each value the manual leaves open, so that no proof can use a number for it. -/

namespace Sys2Proof.Config

/-- A fresh free value: applied to the model's own counter `Dev.fresh` (DESIGN CHOICE, assumption 4). -/
opaque freeWord : Nat → Word

/-- A free value of 256 bits (DESIGN CHOICE, assumption 4). -/
opaque freeLine : Nat → BitVec 256

/-- The correctly rounded result of a function of R144 whose enclosure to 2,048 bits still holds two codes: function, format width, input code (DESIGN CHOICE, assumption 12). -/
opaque functionTie : Nat → Nat → Nat → Nat

/-- A key pair's public half, of 1,793 bytes: byte i of the key made by the n-th generation (R522, DESIGN CHOICE, assumption 40). -/
opaque keyByte : Nat → Nat → Byte

/-- Byte i of the signature that a key makes over a message digest (R524, DESIGN CHOICE, assumption 40). -/
opaque signatureByte : Nat → List Byte → Nat → Byte

/-- Whether a Falcon-1024 signature of a message verifies under a public key (R529, DESIGN CHOICE, assumption 40). -/
opaque falconVerifies : List Byte → List Byte → List Byte → Bool

/-- The public keys that the ROM holds: 0 life-cycle, 1 device certificate, 2 patch (R517, R524, R527, DESIGN CHOICE, assumption 40). -/
opaque romKey : Nat → List Byte

/-- The ROM revision that a patch blob must name (R527, DESIGN CHOICE, assumption 40). -/
opaque romId : Nat

/-- The SHAKE256 digest of the ROM image of a die (R525, DESIGN CHOICE, assumption 40). -/
opaque romDigest : Nat → BitVec 256

/-- Which of the free frames the allocator gives the window pool: the place in the list of free frames of its i-th pick for a pool of n frames (R270, DESIGN CHOICE, assumption 42). -/
opaque poolPick : Nat → Nat → Nat

/-- The set of a migration counter: tag, page and size code (R341, Table 11.4, DESIGN CHOICE, assumption 4). -/
opaque counterSet : Nat → Nat → Nat → Nat

/-- The interrupt vector of QID 0, which no admin command names (Table 12.8, DESIGN CHOICE, assumption 43). -/
opaque adminVector : Nat

/-- The event codes of the meter's log: 0 power-up, 1 power-down, 2 cover opening (Table 20.6, DESIGN CHOICE, assumption 4). -/
opaque meterEvent : Nat → BitVec 8

end Sys2Proof.Config
end

