-- ==== Sys2Proof/Machine/Funcs.lean ====
section
/-! DEFINITION. The functions of Table 5.5 that are correctly rounded to nearest (R144): each is enclosed between two rationals, to more bits until both ends round to one code. -/

namespace Sys2Proof.Machine

/-- A positive bound `num / den · 2^exp` of a function's magnitude. -/
structure Bound where
  num : Nat
  den : Nat
  exp : Int
  deriving DecidableEq, Repr

/-- An enclosure of a result: its sign and the two bounds of its magnitude. -/
structure Encl where
  neg : Bool
  lo : Bound
  hi : Bound
  deriving DecidableEq, Repr

/-- Half the width, in units of the last place, that covers the errors of every fixed-point evaluation below. -/
def slack : Nat := 2 ^ 24

/-- The enclosure of a positive fixed-point value `v · 2^e`, known to `slack` units. -/
def enclFix (neg : Bool) (v : Nat) (e : Int) : Encl := ⟨neg, ⟨v - slack, 1, e⟩, ⟨v + slack, 1, e⟩⟩

/-- The finite value `m · 2^e` in fixed point with `p` fraction bits, rounded down. -/
def toFix (p m : Nat) (e : Int) : Nat :=
  if 0 ≤ e + p then m * 2 ^ (e + p).toNat else m / 2 ^ (-(e + p)).toNat

/-- The terms `z^(2j+1) / (2j+1)` of an inverse tangent, with alternating signs or not; `t` is the next power. -/
def atanTerms (alt : Bool) (p zz : Nat) : Nat → Nat → Int → Nat → Int
  | 0, _, _, _ => 0
  | k + 1, t, sg, j =>
    sg * (t / (2 * j + 1) : Nat) + atanTerms alt p zz k (t * zz / 2 ^ p) (if alt then -sg else sg) (j + 1)

/-- arctan(1 / q) in fixed point. -/
def atanInv (p q : Nat) : Int :=
  let z := 2 ^ p / q
  atanTerms true p (z * z / 2 ^ p) (p / 4 + 8) z 1 0

/-- π in fixed point, by Machin's formula. -/
def piFix (p : Nat) : Nat := (16 * atanInv (p + 16) 5 - 4 * atanInv (p + 16) 239).toNat / 2 ^ 16

/-- ln 2 in fixed point, as 2 artanh(1/3). -/
def ln2Fix (p : Nat) : Nat :=
  let q := p + 16
  let z := 2 ^ q / 3
  (2 * atanTerms false q (z * z / 2 ^ q) (q / 3 + 8) z 1 0).toNat / 2 ^ 16

/-- The terms `x^j / j!` from `t` on. -/
def expTerms (p x : Nat) : Nat → Nat → Nat → Nat
  | 0, _, _ => 0
  | k + 1, t, j => t + expTerms p x k (t * x / 2 ^ p / (j + 1)) (j + 1)

/-- e^x for a fixed-point x in [0, 1). -/
def expFix (p x : Nat) : Nat := expTerms p x (p / 4 + 24) (2 ^ p) 0

/-- The alternating terms `t - t·xx/((j+1)(j+2)) + …` of a sine or cosine. -/
def trigTerms (p xx : Nat) : Nat → Nat → Nat → Int → Int
  | 0, _, _, _ => 0
  | k + 1, t, j, sg => sg * t + trigTerms p xx k (t * xx / 2 ^ p / ((j + 1) * (j + 2))) (j + 2) (-sg)

/-- e^(±x) for a finite x ≥ 0 with fewer than 12 integer bits: the mantissa with `p` fraction bits and its exponent. -/
def expParts (p : Nat) (neg : Bool) (m : Nat) (e : Int) : Nat × Int :=
  let q := p + 16
  let l := ln2Fix q
  let x : Int := if neg then -(toFix q m e : Nat) else toFix q m e
  let k := x / (l : Int)
  let r := (x - k * l).toNat
  (expFix q r / 2 ^ 16, k - p)

/-- The natural logarithm of a finite positive value: sign and fixed-point magnitude. -/
def lnFix (p m : Nat) (e : Int) : Int :=
  let k := ilog2 m 1 e
  -- y = x / 2^k in [1, 2), halved when above 4/3
  let y := toFix p m (e - k)
  let (y, k) := if 3 * y > 4 * 2 ^ p then (toFix p m (e - k - 1), k + 1) else (y, k)
  let d : Int := (y : Int) - 2 ^ p
  let z := d.natAbs * 2 ^ p / (y + 2 ^ p)
  let a := 2 * atanTerms false p (z * z / 2 ^ p) (p / 3 + 8) z 1 0
  (if d < 0 then -a else a) + k * (ln2Fix p : Nat)

/-- The enclosure of a signed fixed-point value; none when its sign is not yet known. -/
def enclSigned (v e : Int) : Option Encl :=
  if v.natAbs ≤ 2 * slack then none else some (enclFix (v < 0) v.natAbs e)

/-- sin and cos of the value: quadrant, and the sine and cosine of what is left (any magnitude, R144). -/
def trigParts (p m : Nat) (e : Int) : Nat × Int × Int :=
  let q := p + (ilog2 m 1 e).toNat + 16
  let h := piFix (q + 1) / 4
  let x := toFix q m e
  let n := x / h
  let r := (x - n * h) / 2 ^ (q - p)
  let rr := r * r / 2 ^ p
  (n % 4, trigTerms p rr (p / 6 + 16) r 1 1, trigTerms p rr (p / 6 + 16) (2 ^ p) 0 1)

/-- `x (1 - 2^-(p/2)) .. x` for a tiny argument of a function that acts as x there. -/
def enclTiny (p : Nat) (neg : Bool) (m : Nat) (e : Int) : Encl :=
  ⟨neg, ⟨m * (2 ^ (p / 2) - 1), 2 ^ (p / 2), e⟩, ⟨m, 1, e⟩⟩

/-- A result that lies within 2^-500 below 1. -/
def enclNearOne (neg : Bool) : Encl := ⟨neg, ⟨2 ^ 500 - 1, 1, -500⟩, ⟨1, 1, 0⟩⟩

/-- A positive result too small for any format of the Reef, and one too large. -/
def enclUnder : Encl := ⟨false, ⟨1, 1, -4000⟩, ⟨1, 1, -3000⟩⟩
def enclOver : Encl := ⟨false, ⟨1, 1, 3000⟩, ⟨1, 1, 4000⟩⟩

/-- The alternating terms of the series of erf: `x^(2n+1) / (n! (2n+1))`. -/
def erfTerms (p xx : Nat) : Nat → Nat → Nat → Int → Int
  | 0, _, _, _ => 0
  | k + 1, t, n, sg => sg * (t / (2 * n + 1) : Nat) + erfTerms p xx k (t * xx / 2 ^ p / (n + 1)) (n + 1) (-sg)

/-- The functions of Table 5.5 that R144 rounds to nearest. -/
inductive Func where
  | exp | exp2 | log | log2 | tanh | sigmoid | erf | sin | cos
  deriving DecidableEq, Repr

/-- An enclosure of a function at a finite non-zero value, to about `p` bits; none when `p` bits do not give a sign. -/
def Func.encl (fn : Func) (p : Nat) (neg : Bool) (m : Nat) (e : Int) : Option Encl :=
  let k := ilog2 m 1 e
  let tiny := k < -((p / 4 : Nat) : Int)
  match fn with
  | .exp =>
    if 12 ≤ k then some (if neg then enclUnder else enclOver)
    else let (v, g) := expParts p neg m e; some (enclFix false v g)
  | .exp2 =>
    if 13 ≤ k then some (if neg then enclUnder else enclOver)
    else
      let x : Int := if neg then -(toFix p m e : Nat) else toFix p m e
      let n := x / (2 ^ p : Nat)
      let f := (x - n * (2 ^ p : Nat)).toNat
      some (enclFix false (expFix p (f * ln2Fix p / 2 ^ p)) (n - p))
  | .log => if neg then none else enclSigned (lnFix p m e) (-p)
  | .log2 => if neg then none else enclSigned (lnFix p m e * 2 ^ p / (ln2Fix p : Nat)) (-p)
  | .tanh =>
    if tiny then some (enclTiny p neg m e)
    else if 10 ≤ k then some (enclNearOne neg)
    else
      let (v, g) := expParts p false m (e + 1)
      -- t = e^(2x) = v · 2^g with g < 0: (t - 1) / (t + 1)
      let (a, b) := scaleRat v 1 (g + p)
      let t := a / b
      some (enclFix neg ((t - 2 ^ p) * 2 ^ p / (t + 2 ^ p)) (-p))
  | .sigmoid =>
    if 12 ≤ k then some (if neg then enclUnder else enclNearOne false)
    else
      let (v, g) := expParts p true m e
      -- t = e^-|x| = v · 2^g ≤ 1: t / (1 + t) or 1 / (1 + t)
      let d := 2 ^ (-g).toNat
      if neg then some ⟨false, ⟨v - slack, d + v - slack, 0⟩, ⟨v + slack, d + v + slack, 0⟩⟩
      else some ⟨false, ⟨d, d + v + slack, 0⟩, ⟨d, d + v - slack, 0⟩⟩
  | .erf =>
    let q := p + 160
    let c := 2 ^ (q + 1) * 2 ^ q / isqrt (piFix q * 2 ^ q)
    if tiny then
      some ⟨neg, ⟨m * (c - slack) * (2 ^ (p / 2) - 1), 2 ^ (p / 2), e - q⟩, ⟨m * (c + slack), 1, e - q⟩⟩
    else if 3 ≤ k ∨ toFix q m e > 13 * 2 ^ (q - 1) then some ⟨neg, ⟨2 ^ 60 - 1, 1, -60⟩, ⟨1, 1, 0⟩⟩
    else
      let x := toFix q m e
      let s := (erfTerms q (x * x / 2 ^ q) (q / 2 + 200) x 0 1).toNat
      some (enclFix neg (s * c / 2 ^ q / 2 ^ 160) (-p))
  | .sin =>
    if tiny then some (enclTiny p neg m e)
    else
      let (n, s, c) := trigParts p m e
      let v := match n with | 0 => s | 1 => c | 2 => -s | _ => -c
      enclSigned (if neg then -v else v) (-p)
  | .cos =>
    let (n, s, c) := trigParts p m e
    enclSigned (match n with | 0 => c | 1 => -s | 2 => -c | _ => s) (-p)

/-- The code to which both ends of an enclosure round, if it is one. -/
def Encl.code (f : Fmt) (x : Encl) : Option Nat :=
  if x.lo.num = 0 then none
  else
    let a := f.roundRat 0 false x.neg x.lo.num x.lo.den x.lo.exp
    let b := f.roundRat 0 false x.neg x.hi.num x.hi.den x.hi.exp
    if a = b then some a else none

/-- The exact results at finite values where the function's value is itself a rational of the format. -/
def Func.exact (fn : Func) (f : Fmt) (neg : Bool) (m : Nat) (e : Int) : Option Nat :=
  let one := f.round 0 false (.fin false 1 0)
  if m = 0 then
    match fn with
    | .exp | .exp2 | .cos => some one
    | .sigmoid => some (f.round 0 false (.fin false 1 (-1)))
    | .tanh | .erf | .sin => some (f.sign neg)
    | .log | .log2 => some (f.round 0 false (.inf true))
  else match fn with
    | .log | .log2 =>
      if neg then some f.canonNan
      else
        let k := ilog2 m 1 e
        if ilog2 m 1 e = ilog2 (m - 1) 1 e + 1 ∨ m = 1 then
          (if fn = .log2 then some (f.round 0 false (.ofInt k)) else if k = 0 then some 0 else none)
        else none
    | .exp2 =>
      if (0 ≤ e ∧ e < 16) ∨ (e < 0 ∧ m % 2 ^ (-e).toNat = 0) then
        let n : Int := if 0 ≤ e then (m * 2 ^ e.toNat : Nat) else (m / 2 ^ (-e).toNat : Nat)
        if n < 4000 then some (f.round 0 false (.fin false 1 (if neg then -n else n))) else none
      else none
    | _ => none

/-- A function's code: exact where Table 5.6 or the value gives it, else the enclosure refined to 2,048 bits (R144, R145). -/
def Func.eval (fn : Func) (f : Fmt) (code : Nat) : Nat :=
  match f.decode code with
  | .nan => f.canonNan
  | .inf neg =>
    match fn with
    | .exp | .exp2 => if neg then 0 else code
    | .log | .log2 => if neg then f.canonNan else code
    | .tanh | .erf => f.round 0 false (.fin neg 1 0)
    | .sigmoid => if neg then 0 else f.round 0 false (.fin false 1 0)
    | .sin | .cos => f.canonNan
  | .fin neg m e =>
    match fn.exact f neg m e with
    | some c => c
    | none =>
      match [192, 320, 640, 2048].findSome? (fun p => (fn.encl p neg m e).bind (·.code f)) with
      | some c => c
      | none => Config.functionTie fn.ctorIdx f.width code

end Sys2Proof.Machine
end

