-- ==== Sys2Proof/Machine/StageFn.lean ====
section
/-! DEFINITION. The functions of Table 5.5 on codes of one format: what the lanes' FP32 and FP64 classes and the stages of the flow chain compute (R143–R145). -/

namespace Sys2Proof.Machine

/-- The function of an FN code that R144 marks "correctly rounded to nearest". -/
def fnFunc : Nat → Option Func
  | 0x10 => some .exp | 0x11 => some .exp2 | 0x12 => some .log | 0x13 => some .log2 | 0x14 => some .tanh
  | 0x15 => some .sigmoid | 0x16 => some .erf | 0x17 => some .sin | 0x18 => some .cos | _ => none

/-- The result of a function on codes A, B and C under a rounding mode; PARAM serves SEL and SLICE; none for an FN code the table does not list. -/
def stageFn (f : Fmt) (fn param rm a b c : Nat) : Option Nat :=
  let x := f.decode a
  let y := f.decode b
  let z := f.decode c
  match fn with
  | 0x00 => some (f.round 0 false x)
  | 0x01 => some (f.round rm false (Num.add rm x y))
  | 0x02 => some (f.round rm false (Num.add rm x y.neg))
  | 0x03 => some (f.round rm false (Num.mul x y))
  | 0x04 => some (f.round rm false (Num.add rm (Num.mul x y) z))
  | 0x05 => some (f.round 0 false (Num.minMax false x y))
  | 0x06 => some (f.round 0 false (Num.minMax true x y))
  | 0x07 => some (f.round 0 false x.abs)
  | 0x08 => some (f.round 0 false x.neg)
  | 0x09 => (numCond param x y).map fun t => f.round 0 false (if t then x else z)
  | 0x0A => some (f.round 0 false (x.rint rm))
  | 0x0B => some (f.round rm false (Num.ldexp x y))
  | 0x0C => some (f.div rm (.fin false 1 0) x)
  | 0x0D => some (f.div rm x y)
  | 0x0E => some (f.sqrt rm x)
  | 0x0F => some (f.rsqrt x)
  | 0x19 => some (f.round 0 false x.sexp)
  | 0x1A => if f = .b64 ∧ param ≤ 6 then some (f.round 0 false (.ofInt (Num.slice x y param))) else none
  | _ => (fnFunc fn).map fun g => g.eval f a

/-- How many of A, B and C a function names. -/
def fnArity (fn : Nat) : Nat :=
  match fn with
  | 0x04 | 0x09 => 3
  | 0x01 | 0x02 | 0x03 | 0x05 | 0x06 | 0x0B | 0x0D | 0x1A => 2
  | _ => 1

end Sys2Proof.Machine
end

