-- ==== Sys2Proof/Machine/Reduce.lean ====
section
/-! DEFINITION. Order-fixed reductions: the pairwise tree of R147, and the combination of two values under the types and operations of Tables 6.9 and 13.7. -/

namespace Sys2Proof.Machine

/-- One level of the pairwise tree: adjacent values combined, a value with no partner passed on (R147). -/
def pairUp {α : Type} (f : α → α → α) : List (Option α) → List (Option α)
  | some a :: some b :: r => some (f a b) :: pairUp f r
  | some a :: none :: r => some a :: pairUp f r
  | none :: b :: r => b :: pairUp f r
  | [a] => [a]
  | [] => []

/-- The pairwise tree of `n` levels over positions, absent ones skipped (R147, R153, R191). -/
def pairTree {α : Type} (f : α → α → α) : Nat → List (Option α) → Option α
  | 0, l => l.head?.join
  | n + 1, l => pairTree f n (pairUp f l)

/-- A fold in order over the values present. -/
def foldSome {α : Type} (f : α → α → α) (l : List (Option α)) : Option α :=
  l.foldl (fun m x => match m, x with
    | some a, some b => some (f a b)
    | none, b => b
    | a, none => a) none

/-- Whether a TYPE of Tables 6.9 and 13.7 is 64 bits wide: binary64 and INT64. -/
def redWide (ty : Nat) : Bool := ty == 1 || ty == 3

/-- Two values combined under TYPE (0 binary32, 1 binary64, 2 INT32, 3 INT64) and operation (0 SUM, 1 MIN, 2 MAX): RNE, Table 5.6, wrapping sums (R191, R405). -/
def redOp (ty op a b : Nat) : Nat :=
  let w := if redWide ty then 64 else 32
  if ty < 2 then
    let f := if ty = 1 then Fmt.b64 else Fmt.b32
    let x := f.decode (a % 2 ^ w)
    let y := f.decode (b % 2 ^ w)
    if op = 0 then f.round 0 false (Num.add 0 x y) else f.round 0 false (Num.minMax (op == 2) x y)
  else if op = 0 then (a + b) % 2 ^ w
  else if decide (signedOf w a < signedOf w b) = (op == 2) then b % 2 ^ w else a % 2 ^ w

/-- The value of an empty reduction (R153): +0, +∞ for MIN, −∞ for MAX; none for an integer MIN or MAX, which the manual does not give. -/
def redEmpty (ty op : Nat) : Option Nat :=
  if op = 0 then some 0
  else if ty < 2 then
    let f := if ty = 1 then Fmt.b64 else Fmt.b32
    some (f.round 0 false (.inf (op == 2)))
  else none

end Sys2Proof.Machine
end

