-- ==== Sys2Proof/Machine/Atom.lean ====
section
/-! DEFINITION. The value that an atomic leaves at its address (R187, Table 6.4 class ATOM). -/

namespace Sys2Proof.Machine

/-- The bits of an atomic's operand. -/
def atomWidth (wide : Bool) : Nat := if wide then 64 else 32

/-- The value after an atomic: FUNC[6:0], the width, the value before, and the operands A and B; none when FUNC is not listed. -/
def atomResult (func : Nat) (wide : Bool) (old a b : Nat) : Option Nat :=
  let w := atomWidth wide
  let f := if wide then Fmt.b64 else Fmt.b32
  let less := decide (signedOf w old < signedOf w a)
  match func with
  | 0 => some ((old + a) % 2 ^ w)
  | 1 => some (f.round 0 false (Num.add 0 (f.decode old) (f.decode a)))
  | 2 => some (if less then old else a)
  | 3 => some (if less then a else old)
  | 4 => some (min old a)
  | 5 => some (max old a)
  | 6 => some (Nat.land old a)
  | 7 => some (Nat.lor old a)
  | 8 => some (Nat.xor old a)
  | 9 => some a
  | 10 => some (if old = a then b else old)
  | _ => none

end Sys2Proof.Machine
end

