-- ==== Sys2Proof/Machine/State.lean ====
section
/-! DEFINITION. The state of the module as plain data: registers, memories, queues, engines, links, pins, fuses and meter, and the state after reset. -/

namespace Sys2Proof.Machine

/-- A sparse table by Nat key in canonical form: keys strictly rising, no entry equal to what an unlisted key reads as. -/
abbrev Sparse (α : Type) := List (Nat × α)

/-- The reasons for which a command stops the machine. -/
inductive Fault where
  /-- Raised by no command of this model: every effect the spec gives is a next state. Safe. -/
  | none
  deriving DecidableEq, Repr

/-- The reasons for which a command has no meaning in the model. -/
inductive Refusal where
  /-- Raised by an arm of `exec` whose command has no meaning yet. Safe. -/
  | notModelled (mnemonic : String)
  deriving DecidableEq, Repr

/-! ### The link layers (R382–R385, R409, R434–R436, R457) -/

/-- One end of a link: ports P0–P7 are links 0–7, Strait is 8, the twin link 9, Narrows link l is 10 + l. -/
structure Link where
  step : Nat := 0            -- bring-up step in progress, 0 when none
  attempt : Nat := 0         -- attempts of the present bring-up
  txSeq : Nat := 0           -- next SEQ sent
  rxSeq : Nat := 0           -- next SEQ expected
  retry : List Nat := []     -- SEQs held in the retry buffer, oldest first
  rx : List Nat := []        -- VCs of the flits received of packets not yet whole, oldest first
  credits : List Nat := []   -- credits held, by VC
  nakSeq : Nat := 0          -- SEQ named by the last NAK
  nakRun : Nat := 0          -- NAKs in a row that name it
  discarding : Bool := false -- waits for the SEQ its own NAK named
  downAt : Nat := 0          -- device time when the link went DOWN
  spareTrained : Bool := false
  repair : Option Nat := none -- the lane whose repair has been agreed (R380)
  ethLatch : Bool := false   -- the mode in force (R378)
  deriving DecidableEq, Repr

/-! ### The sequencers (R101–R134) -/

/-- An array operation that has issued and is not yet done. -/
structure ArrayOp where
  id : Nat
  pc : Nat
  kind : Nat                 -- KIND of Table 4.10
  accInit : Bool
  mbank : Nat
  fbank : Nat
  acct : Nat
  da : BitVec 256
  db : BitVec 256
  dc : BitVec 256
  df : BitVec 256
  kstart : Nat
  klen : Nat
  order : List Nat           -- the blocks in the order in which R59 adds them
  cfg : List Word            -- the configuration word, ten words
  hen : Bool
  hsel : Nat
  mStarted : Bool            -- the matrix part has started
  fStarted : Bool            -- the flow part has started
  fEnded : Bool              -- the flow part has ended
  deriving DecidableEq, Repr

/-- A data movement in flight under its token (R127, R128). -/
structure Move where
  tok : Nat
  kind : Nat                 -- 0 LDT, 1 STT, 2 XLT
  pc : Nat
  src : BitVec 256
  dst : BitVec 256
  imm : BitVec 32
  deriving DecidableEq, Repr

/-- The stalled instruction, which issues again when what it waits for has come. -/
inductive Stall where
  | instr (op : Nat) (a : SeqArgs)            -- opcode and slot
  | aop (a : AopArgs)                         -- an AOP behind an operation in issue (R123)
  | resync (a : AopArgs) (bad : Nat)          -- the suppressed AOP and the faulted die (R104)
  deriving DecidableEq, Repr

/-- The array launch that the sequencers hold. -/
structure SeqLaunch where
  op : Nat                   -- its tracker
  tag : Nat
  image : Word
  startTick : Option Nat     -- a domain launch's start tick (R217)
  loaded : Bool              -- the image is loaded and the launch state is set (R107, R108)
  started : Bool             -- the first instruction may issue (R217)
  err : Option (Status × Nat × Nat)  -- status, cause and PC of the error that ends the launch
  deriving DecidableEq, Repr

/-- Sequencer state of Table 4.4 and of the launch; the four sequencers hold the same (R102). -/
structure Seq where
  x : Sparse Word := []
  g : BitVec 8 := 1
  h : Sparse Word := []
  hValid : BitVec 16 := 0
  d : Sparse (BitVec 256) := []
  pc : Nat := 0
  ordMem : Sparse (BitVec 16) := []
  ordSegs : List (Nat × Nat) := []
  moves : List Move := []
  imem : List Word := []
  cmem : List Byte := []
  ops : List ArrayOp := []
  nextOp : Nat := 0
  inIssue : Option Nat := none
  stall : Option Stall := none
  launch : Option SeqLaunch := none
  stallAt : Nat := 0                   -- FE_TICK when the present stall began (R218)
  faultAt : List (Option Nat) := [none, none, none, none]   -- first fault of each die's sequencer (R105)
  yldRange : Nat × Nat := (0, 0)
  yldBanks : BitVec 2 := 0
  deriving DecidableEq, Repr

/-! ### Tiles and the Reef -/

/-- One line of a tile's L1 (R291). -/
structure L1Line where
  tile : Nat
  tag : Nat
  vline : Nat                -- virtual address / 64
  valid : BitVec 64
  dirty : BitVec 64
  data : BitVec 512
  poisoned : Bool
  deriving DecidableEq, Repr

/-- A hand-over of the Reef in progress or due (R97–R100). -/
inductive Handover where
  | idle | due | dueBoundary | saving (toTag : Nat) | restoring (tag : Nat)
  deriving DecidableEq, Repr

/-! ### Thread groups (R156–R194) -/

/-- What a path of a group waits for (R173). -/
inductive PathState where
  | ready | join (count : Nat) | bar (arrived : BitVec 32)
  deriving DecidableEq, Repr

structure Path where
  pc : Nat
  mask : BitVec 32
  st : PathState
  deriving DecidableEq, Repr

structure Group where
  launch : Nat
  blk : Nat
  tile : Nat
  slot : Nat
  gnum : Nat
  paths : List Path          -- the current path first
  exited : BitVec 32
  deriving DecidableEq, Repr

structure Block where
  launch : Nat
  blk : Nat
  tile : Nat
  base : Nat                 -- first byte of its pool range
  barAt : Option Nat         -- FE_TICK at the first arrival of the present barrier
  deriving DecidableEq, Repr

/-- An ordered-reduction target record (Table 6.9). -/
structure RedTarget where
  target : Word
  partials : Word
  ty : Nat
  op : Nat
  init : Nat
  deriving DecidableEq, Repr

structure ThrLaunch where
  op : Nat
  tag : Nat
  image : Word
  regs : Nat
  groups : Nat
  orderedOnly : Bool
  joinSpin : Nat
  targets : List RedTarget
  ninstr : Nat
  entry : Nat
  bls : Nat
  nblocks : Nat
  nextBlk : Nat
  tiles : List Nat           -- tiles that have held a block of it
  barTimeout : Nat
  cb : List Byte
  err : Option (Status × Nat)     -- the error that stands (R192, R193)
  ended : Bool                    -- the last block has ended and the final walk runs
  deriving DecidableEq, Repr

/-- A lane memory access waiting for its response. -/
structure LaneAcc where
  id : Nat
  tile : Nat
  slot : Nat
  launch : Nat
  blk : Nat
  pc : Nat
  kind : Nat                 -- 0 load, 1 load at home, 2 atomic, 3 fence
  func : BitVec 7
  bytes : Nat
  lanes : BitVec 32
  addrs : List (Nat × Word)  -- lane and address
  rd : Nat
  rb : Nat
  deriving DecidableEq, Repr

structure Threads where
  launches : List ThrLaunch := []
  waiting : List Nat := []
  blocks : List Block := []
  groups : List Group := []
  v : Sparse (BitVec 32) := []         -- key ((tile × 32 + slot) × 32 + lane) × 256 + register
  p : Sparse Bool := []                -- key ((tile × 32 + slot) × 32 + lane) × 8 + predicate
  latch : Sparse (BitVec 32) := []     -- S2R code 8, key (tile × 32 + slot) × 32 + lane
  accs : List LaneAcc := []
  nextAcc : Nat := 0
  red : Sparse (Option Word) := []     -- thread contributions, key lane key × 16 + target
  blkRed : List (Nat × Nat × Nat × Word) := []   -- launch, target, block, block value
  deriving DecidableEq, Repr

/-- The saved Reef state of a context (R98): the range of local store, the banks and the thread state that were saved. -/
structure Saved where
  tag : Nat
  seq : Seq
  split : Nat
  pool : Nat
  lo : Nat                   -- first byte of local store saved of each tile
  len : Nat                  -- bytes of local store saved of each tile
  banks : BitVec 2
  ls : Sparse Byte
  lsPoison : Sparse Bool
  acc : Sparse (BitVec 32)
  accPoison : Sparse Bool
  sat : Sparse Bool
  thr : Threads
  deriving DecidableEq, Repr

structure Tiles where
  ls : Sparse Byte := []                    -- local store, key tile × 2^21 + byte address
  lsPoison : Sparse Bool := []              -- key tile × 2^15 + line
  acc : Sparse (BitVec 32) := []            -- accumulators, key ((tile × 2 + bank) × 64 + row) × 128 + column
  accPoison : Sparse Bool := []
  sat : Sparse Bool := []                   -- sticky saturation flags, key tile × 2 + bank (R61)
  l1 : List L1Line := []
  l1Busy : List Nat := []                   -- tiles whose invalidate-all has not completed (R293)
  split : Nat := 0                          -- LS_SEGS in force, 0 none (R76)
  pool : Nat := 0                           -- POOL_SEGS in force (R159)
  splitNext : Option (Nat × Nat × Nat) := none   -- launch, LS_SEGS, POOL_SEGS that wait for the walk
  splitWalk : Bool := false                      -- the walk of the split change has begun
  lastTest : Sparse Nat := []               -- time at which a physical tile's last test ended, key die × 192 + index
  testing : List (Nat × Nat) := []          -- tiles in test, key and start time
  mark : List Nat := []                     -- tiles marked by RAS_TEST_CMD, key die × 192 + index
  lastSwap : List (Option Nat) := [none, none, none, none]
  slot : List Nat := []                     -- dies in a firmware rotation slot
  ownerSince : Nat := 0
  dueAt : Nat := 0
  handover : Handover := .idle
  waiting : List Nat := []                  -- contexts with Reef work waiting, in order
  saved : List Saved := []
  deriving DecidableEq, Repr

/-! ### The front end (R347–R377) -/

structure Context where
  tag : Nat
  slot : Nat
  root : Nat
  savePa : Nat
  saveLen : Nat
  dying : Option Nat         -- the operation that destroys it
  deriving DecidableEq, Repr

/-- A handle-table entry (Table 12.1): kind 0 object, 1 fence, 2 queue, 3 graph. -/
structure Handle where
  tag : Nat
  index : Nat
  gen : Nat
  live : Bool
  kind : Nat
  target : Nat               -- object id, fence index, QID or graph id
  deriving DecidableEq, Repr

structure FeObject where
  id : Nat
  tag : Nat
  base : Nat
  size : Nat
  flags : BitVec 32
  frames : List Nat          -- physical page addresses, T1 only
  segs : List Nat            -- segment lengths, streamed only
  ident : Nat                -- shared identity of a streamed object (R271)
  source : List (BitVec 256)
  deadline : Nat
  freeing : Option Nat       -- the FREE operation that waits for its users
  deriving DecidableEq, Repr

/-- The head of a queue: an entry read and not yet dispatched. -/
structure Head where
  entry : BitVec 1024
  parent : Option Nat
  rereads : Nat              -- copies that did not match
  arrived : Bool             -- a copy with the right stamp has been taken
  waitAt : Option Nat        -- device time at which its wait began
  deriving DecidableEq, Repr

structure Queue where
  qid : Nat
  sqPa : Nat
  cqPa : Nat
  sqLog2 : Nat
  cqLog2 : Nat
  timeoutMs : Nat
  vector : Nat
  posted : BitVec 32
  cqHead : BitVec 32
  head : Option Head
  devRing : List (BitVec 1024 × Nat)   -- a device-owned ring: entries not yet read and their parents
  draining : Option Nat                -- the operation that resets or destroys the queue
  destroy : Bool
  deriving DecidableEq, Repr

/-- Where an operation with a tracker stands. -/
inductive OpPhase where
  | dispatched               -- step 8 done; its own command starts it
  | running
  | held                     -- a twin holds its completion back (R462, R467, R471)
  | done (status : Status) (cause : Nat) (exit : BitVec 32)
  deriving DecidableEq, Repr

/-- An operation in flight: an entry that holds a tracker (R358). -/
structure FeOp where
  id : Nat
  qid : Nat
  entry : BitVec 1024
  tag : Nat
  phase : OpPhase
  start : Nat
  sigFence : Option Nat
  refs : List Nat            -- handle-table positions of the objects referenced
  parent : Option Nat
  cb : List Byte             -- the relocated constant buffer
  split : Nat                -- LS_SEGS after R76
  unit : Nat                 -- the copy engine or the core that serves it; 0xFFFF none
  graph : Option (Nat × Nat) -- the launching operation and the node of a graph node
  tdLost : Bool
  ordered : Bool             -- its class (R199)
  gdn : Nat                  -- global dispatch number (Table 16.3)
  acked : Bool               -- no ACK or COMMIT holds its completion back (R462, R467)
  deriving DecidableEq, Repr

structure Fence where
  index : Nat
  tag : Nat
  signaller : Option Nat     -- a QID; none: EXTERNAL
  orphan : Bool              -- its signaller was destroyed
  deriving DecidableEq, Repr

structure GraphVersion where
  num : Nat
  nodes : List (BitVec 1024)
  edges : List (Nat × Nat)
  deriving DecidableEq, Repr

structure Graph where
  id : Nat
  tag : Nat
  current : Nat
  dead : Bool
  versions : List GraphVersion
  deriving DecidableEq, Repr

/-- A node of a running graph: 0 waits, 1 in flight, 2 completed OK, 3 failed, 4 skipped. -/
structure GraphRun where
  op : Nat
  graph : Nat
  version : Nat
  nodes : List Nat
  fails : List (Nat × Status × Nat)
  start : Option Nat
  deriving DecidableEq, Repr

structure FrontEnd where
  contexts : List Context := []
  lastTag : Nat := 0
  handles : List Handle := []
  objects : List FeObject := []
  nextObj : Nat := 1
  queues : List Queue := []
  ops : List FeOp := []
  nextOp : Nat := 1
  ended : List (Nat × Bool) := []      -- parents that have completed: tracker and whether OK
  fences : List Fence := []
  graphs : List Graph := []
  nextGraph : Nat := 1
  runs : List GraphRun := []
  ranges : List (Nat × Nat) := []      -- physical ranges held for tables, objects and the window pool: base and bytes
  phys : List (Nat × Nat) := []        -- ranges given by ALLOC_PHYS: base and bytes
  gdn : Nat := 0
  deriving DecidableEq, Repr

/-! ### The translation unit (R315–R346) -/

/-- A translation entry or group entry held by the CTU. -/
structure Tlb where
  tag : Nat
  vpage : Nat                -- first byte of its virtual range
  span : Nat                 -- bytes covered
  leaf : Word                -- the leaf of its first page
  level : Nat
  used : Bool                -- recently used (R325)
  deriving DecidableEq, Repr

/-- A request at a CTU port. -/
structure CtuReq where
  id : Nat
  port : Nat
  tag : Nat
  va : Word
  acc : Access
  lines : Nat
  deriving DecidableEq, Repr

structure Walk where
  id : Nat
  tag : Nat
  va : Word
  level : Nat
  table : Nat
  reqs : List CtuReq
  noCache : Bool             -- an invalidation of its tag began (R332)
  deriving DecidableEq, Repr

structure FaultRec where
  id : Nat
  tag : Nat
  page : Nat
  kind : Nat
  access : BitVec 4
  mask : BitVec 64
  level : Nat
  entry : Word
  at_ : Nat
  reqs : List CtuReq
  deriving DecidableEq, Repr

/-- What the CTU answered a request. -/
inductive CtuAnswer where
  | pa (addr : Word)
  | ended (st : Status)
  deriving DecidableEq, Repr

structure Inval where
  id : Nat
  src : Option Nat           -- the front-end operation; none: CTU_INV_CMD
  tag : Nat
  range : Option (Nat × Nat) -- first and one past the last byte; none: TAG
  deriving DecidableEq, Repr

structure Counter where
  tag : Nat
  page : Nat
  size : Nat
  way : Nat
  count : Nat
  deriving DecidableEq, Repr

structure Ctu where
  tlb : List Tlb := []
  walkCache : List (Nat × Nat × Nat × Word) := []   -- tag, level, first byte, entry
  walks : List Walk := []
  nextId : Nat := 0
  faults : List FaultRec := []
  stalled : List CtuReq := []          -- requests refused on a full queue (R336)
  tierWait : List CtuReq := []         -- tier misses (R277)
  answers : List (CtuReq × CtuAnswer) := []
  invals : List Inval := []
  counters : List Counter := []
  seqNo : Nat := 0                     -- fault posting number
  hasStandby : Bool := false           -- a standby CTU is fit to shadow
  down : Bool := false
  deriving DecidableEq, Repr

/-! ### Tiers (R255–R287) -/

structure Dirent where
  index : Nat
  name : Word
  state : Nat                -- 0 FREE, 1 OPEN, 2 SEALED, 3 DELETING
  segs : List Nat
  written : List Nat         -- stripes written
  bad : List Nat             -- stripes marked bad
  digests : List (Nat × BitVec 256)
  deriving DecidableEq, Repr

structure Waiter where
  id : Nat
  op : Option Nat            -- the PROMOTE task; none: a demand promotion
  tag : Nat
  ident : Nat
  seg : Nat
  deadline : Nat
  placed : Bool
  deriving DecidableEq, Repr

structure Copy where
  id : Nat
  ident : Nat                -- shared identity (R271)
  seg : Nat
  start : Nat                -- first byte of the segment in its object
  state : Nat                -- 1 FILLING, 2 VALID, 3 BAD; a FREE copy is not listed
  frames : List Nat          -- physical addresses
  refs : List Nat            -- tags
  got : List Nat             -- stripes of the object that have arrived
  bad : List Nat             -- stripes of the object that failed
  stamp : Option Nat         -- its place on the age list
  refetch : Option Nat       -- deadline of a refetch
  deriving DecidableEq, Repr

structure Binding where
  win : Nat
  op : Option Nat
  fill : Option Nat          -- the copy the tier engine fills through it (R287)
  tag : Nat
  obj : Nat                  -- the T1 object
  base : Nat                 -- first byte in the object, or in the copy
  len : Nat
  blocks : List Nat
  final : Bool
  bytes : Nat
  poisoned : Bool
  record : Nat
  fence : Option Nat
  value : Nat
  deriving DecidableEq, Repr

/-- Publish work of an operation that has not completed. -/
structure Publish where
  op : Nat
  index : Nat
  first : Nat
  count : Nat
  deriving DecidableEq, Repr

structure Tier where
  poolFrames : List Nat := []        -- physical addresses of the window pool's frames
  copies : List Copy := []
  nextCopy : Nat := 0
  waiters : List Waiter := []
  nextWait : Nat := 0
  bindings : List Binding := []
  publishes : List Publish := []
  loaded : Bool := false
  deriving DecidableEq, Repr

/-! ### Coherence (R288–R314) -/

/-- Cache states S, E and M; I is no line at all. -/
inductive Mesi where
  | s | e | m
  deriving DecidableEq, Repr

/-- A line of a tracked cache: caches 0–65 are the core L2s (die × 33 + core), 66 and 67 the system caches. -/
structure CLine where
  cache : Nat
  line : Nat
  st : Mesi
  data : BitVec 512
  poisoned : Bool
  deriving DecidableEq, Repr

/-- A snoop-filter entry: `owned` stands for E or M. -/
structure Dup where
  cache : Nat
  line : Nat
  owned : Bool
  deriving DecidableEq, Repr

/-- The requests of Table 10.2 at a home. -/
inductive HomeReq where
  | rdShared (cache : Nat) | rdOwn (cache : Nat) | upgrade (cache : Nat) | rdOnce (agent : Nat)
  | wr (agent : Nat) (mask : BitVec 64) (data : BitVec 512) (poisoned : Bool) (hint : BitVec 8)
  | atom (agent : Nat) (lanes : List AtomLane)
  | clean (cache : Nat) | flush (cache : Nat)
  | move (cache : Nat)       -- from the system cache of its die to this L2 (R295)
  deriving DecidableEq, Repr

/-- A transaction in progress on a line, and the caches whose answers it waits for. -/
structure Txn where
  line : Nat
  req : HomeReq
  snoop : Nat                -- 0 SNP_SHARE, 1 SNP_CLEAN, 2 SNP_INV
  wait : List Nat
  deriving DecidableEq, Repr

/-- An answer a cache has sent to its snoop: 0 done, 1 gone, 2 MOVED. -/
structure SnpAnswer where
  cache : Nat
  line : Nat
  sub : Nat
  data : Option (BitVec 512 × Bool)
  deriving DecidableEq, Repr

/-- What a home answers an agent: the data and its poison, or the values before an atomic. -/
structure HomeAnswer where
  agent : Nat
  line : Nat
  data : BitVec 512
  poisoned : Bool
  olds : List Word
  deriving DecidableEq, Repr

structure Coh where
  lines : List CLine := []
  dups : List Dup := []
  txns : List Txn := []
  waiting : List (Nat × HomeReq) := []       -- requests behind a transaction of their line, in order
  snpAns : List SnpAnswer := []
  answers : List HomeAnswer := []
  deriving DecidableEq, Repr

/-! ### General cores (R26–R30, R368) -/

structure CoreTask where
  op : Nat
  tag : Nat
  deriving DecidableEq, Repr

/-- A physical general core, key die × 33 + core. -/
structure Core where
  id : Nat
  x : Sparse Word := []
  f : Sparse Word := []
  v : Sparse (BitVec 256) := []
  pc : Word := 0
  fcsr : BitVec 8 := 0
  vtype : Word := 0x8000000000000000
  vl : Word := 0
  vstart : Word := 0
  vcsr : BitVec 3 := 0
  cycle : Nat := 0
  instret : Nat := 0
  resv : Option Nat := none          -- the reserved line
  held : Option (BitVec 32) := none  -- an instruction that waits for memory
  task : Option CoreTask := none
  deriving DecidableEq, Repr

structure Cores where
  cores : List Core := []
  testing : List (Nat × Nat) := []   -- die and cluster in self-test
  deriving DecidableEq, Repr

/-! ### The pool (R224–R254) -/

structure Pool where
  hbm : Sparse Byte := []            -- by local physical address
  poison : Sparse Bool := []         -- by line number
  redirect : Sparse Nat := []        -- key pc × 196608 + frame, value target share + 1
  ceLines : List (Nat × Nat × Nat) := []   -- row key, line, time: corrected lines of the last 24 h
  ceTimes : List (Nat × Nat) := []   -- pseudo-channel and time
  ueTimes : List (Nat × Nat) := []
  spareRows : Sparse Nat := []       -- spare rows used, key pc × 48 + bank
  postponed : Sparse Nat := []       -- refreshes postponed, key pc
  ahead : Sparse Nat := []           -- refreshes issued ahead, key pc
  nextBank : Sparse Nat := []        -- the bank to refresh next, key pc
  extraRefresh : Sparse Nat := []    -- extra refreshes made, key pc × 48 + bank
  trained : Sparse Nat := []         -- device time of a channel's last retraining
  trainTemp : List (Nat × Int) := [] -- its stack's temperature then, by channel
  parityAt : List (Nat × Nat) := []  -- channel and time of its last parity error
  cmd : Option (Nat × Nat × Nat) := none   -- command running: OP, PC, KIND
  sweepLeft : List Nat := []         -- channels of a sweep not yet margined
  retireWait : List Nat := []        -- retirements that wait for the return of a margined one (R254)
  hardRepairs : List (Nat × Nat) := []
  lost : List Nat := []              -- pseudo-channels that can no longer be trained
  deriving DecidableEq, Repr

/-! ### The node fabric (R378–R407) and deterministic domains (R195–R223) -/

structure NfpReq where
  tag : Nat
  kind : Nat                 -- TYPE of Table 13.4
  pkt : Packet
  job : Nat
  op : Option Nat
  sentAt : Nat
  resends : Nat
  deriving DecidableEq, Repr

structure Collective where
  op : Nat
  tag : Nat
  job : Nat
  desc : BitVec 512
  ranks : List Nat
  moved : Bool                                  -- its own data has been sent
  nodes : List (Nat × Nat × Nat × Nat × Word)   -- element, level, index, rank, value received
  descs : List (Nat × BitVec 512 × BitVec 256)  -- descriptors by rank, each with the digest of its RANKS list
  finals : List (Nat × Word)                    -- results received by element
  deriving DecidableEq, Repr

structure Domain where
  clock : Nat := 0
  ref : Nat := 0
  offsets : List Int := []           -- the last 8, newest first
  within20 : Nat := 0
  beyond1us : Nat := 0
  ptpRun : Nat := 0
  missed : Nat := 0
  announced : List (Nat × Nat × Nat) := []   -- tick, divisor, domain clock at its start
  requests : List (Nat × Nat) := []          -- member and its last request, at the reference
  request : Nat := 8
  upto8 : Nat := 0                   -- ticks for which the wanted divisor has stayed at 8
  upto10 : Nat := 0                  -- ticks for which it has stayed at or below 10
  tickAt : Nat := 0                  -- domain clock at the start of the tick
  tickDiv : Nat := 8
  trimHeld : Bool := false
  lateEntry : Bool := false
  deriving DecidableEq, Repr

structure Nfp where
  links : List (Nat × Link) := []
  reqs : List NfpReq := []
  nextTag : Nat := 0
  held : List (Nat × Nat × BitVec 32 × Word × Nat) := []   -- SRC_RANK, TAG, EPOCH, ATOMR, time
  slots : Sparse Word := []          -- key (bank × 8 + port) × 256 + entry
  sqs : List (Nat × Nat × Packet) := []   -- send queue, TYPE and packet of what waits, oldest first
  answers : List (Nat × Packet) := []     -- TYPE and packet of answers waiting, oldest first
  mgmt : List Nat := []              -- ports with a MGMT packet waiting
  lastSq : List (Nat × Nat) := []    -- the queue each port served last in an OPEN slot
  lastPort : List (Nat × Nat) := []  -- the port each send queue used last
  colls : List Collective := []
  dom : Domain := {}
  rxDead : List Nat := []            -- control dies whose receive agent is dead
  deriving DecidableEq, Repr

/-! ### Strait (R408–R430) -/

structure StrReq where
  tag : Nat
  addr : Nat
  len : Nat
  op : Option Nat
  core : Option Nat
  atom : Option (BitVec 8 × Word × Word)   -- AOP and operands of an atomic; none: a read
  deriving DecidableEq, Repr

structure Strait where
  reqs : List StrReq := []
  nextTag : Nat := 0
  holdoff : List (Nat × Bool) := []  -- vectors in holdoff, and whether an INT is owed
  dmaDead : Bool := false
  deriving DecidableEq, Repr

/-! ### Narrows, discovery and clocks (R431–R454) -/

structure Narrows where
  ids : List (Nat × DieIdentity) := []
  confirms : List Nat := []
  configured : Bool := false
  attempt : Nat := 0                 -- attempts of the present discovery step that overran
  resetDie : Option Nat := none
  idle : List (Nat × Nat) := []      -- modules in L1
  clocksRun : Bool := true
  deriving DecidableEq, Repr

/-! ### The twin (R455–R480) -/

/-- A record of VC 0 that the leeward holds (Table 16.3). -/
inductive TwinRec where
  | dispatch (gdn qid : Nat) (entry : BitVec 1024)
  | refusal (qid : Nat) (entry : BitVec 1024) (status : Status) (cause : Nat)
  | again (op : Nat)         -- after a takeover: a streamed task dispatched again from its entry (R474 step 2)
  deriving DecidableEq, Repr

structure Staged where
  gdn : Nat
  writes : List (Nat × BitVec 64 × BitVec 512 × Bool)
  ended : Bool
  early : Bool
  deriving DecidableEq, Repr

structure Twin where
  tseq : Nat := 0
  records : List TwinRec := []
  dispatched : List (Nat × Nat) := []          -- global dispatch number and tracker
  completes : List (Nat × Status × Nat × BitVec 32) := []
  answers : List (Bool × Word × Nat × List Byte) := []
  resolves : List (Nat × Nat × Bool) := []
  placements : List (Nat × Nat × List Nat) := []   -- placements decided by the windward: identity, segment, frames
  lates : List (Nat × Nat × Nat) := []             -- promotion deadlines decided by the windward: tag, identity, segment
  signals : List (Nat × Nat) := []                 -- signals of EXTERNAL fences that do not exist here yet
  stage : List Staged := []
  applied : List Nat := []                     -- streamed tasks whose whole stream has been applied
  heldTally : Option Nat := none
  failTally : Option Nat := none               -- a held launch that no verdict freed: it completes TALLY_MISMATCH (Table 16.6)
  unposted : List (Nat × BitVec 256 × Bool) := []  -- completions of the leeward not confirmed with POSTED, and whether each calls for an interrupt
  outcomes : List (Nat × Status × Nat × BitVec 32) := []  -- outcomes of the leeward that no COMPLETE record has met
  seedStop : Bool := false
  partnerId : Option (Nat × BitVec 256) := none
  partnerLive : Bool := false
  ownDig : Option (Nat × BitVec 256) := none
  theirDig : Option (Nat × BitVec 256) := none
  sendStopped : Bool := false
  deriving DecidableEq, Repr

/-! ### Tidemark and the dump (R499–R513) -/

/-- A record of Table 18.1. -/
structure TRec where
  seq : Nat
  cls : Nat
  sev : Nat
  event : Nat
  repeats : Nat
  source : Nat
  arg0 : Nat
  arg1 : Nat
  arg2 : Nat
  absent : BitVec 10
  snap : List Word
  freed : Bool               -- a write of TDM_ACK covers it: freed when it drains (R508)
  deriving DecidableEq, Repr

/-- An event on its way to the unit. -/
structure TReport where
  cls : Nat
  sev : Nat
  event : Nat
  source : Nat
  arg0 : Nat
  arg1 : Nat
  arg2 : Nat
  deriving DecidableEq, Repr

structure Dump where
  complete : Bool
  seq : Nat
  time : Nat
  agent : Nat
  cause : Nat
  die : Nat
  second : Bool
  len : Nat
  handler : Option Nat       -- the firmware core that writes it after an earlier one stopped (R511)
  deriving DecidableEq, Repr

structure Tidemark where
  reports : List TReport := []
  buffer : List TRec := []
  spill : List (Nat × TRec) := []    -- slot and record, in slot order
  last : List (Nat × Nat) := []      -- class and SEQ of the last record made in it
  dump : Option Dump := none
  shelfDump : Option Dump := none
  spillReady : Bool := false
  deriving DecidableEq, Repr

/-! ### Security (R514–R534) -/

structure Sec where
  cmd : Option (Nat × Nat) := none   -- OP and PARAM of the running command
  busyWrite : Bool := false
  qseq : Nat := 0
  tapMode : TapMode := .fourWire
  tapIr : Nat := 0                   -- instruction in force: 0 IDCODE, 1 BYPASS, 2 SAMPLE/PRELOAD, 3 EXTEST, 4 CLAMP, 5 HIGHZ, 6 LC_ADVANCE
  loaded : Option (List Byte) := none
  locked : Bool := false             -- entry to RMA or END has taken effect (R516)
  deriving DecidableEq, Repr

/-- What survives power-off apart from the fuses (R264, R482, R522–R531, R545). -/
structure NonVolatile where
  record : List (BitVec 128) := []
  recordGen : Nat := 0
  copies : List Bool := [true, true]
  keyGen : Nat := 0                  -- keys generated so far
  idKey : Option Nat := none         -- the generation of the identity key, in both key vaults
  shelfKeys : Option Nat := none     -- the generation of the Shelf keys
  erasing : Bool := false            -- a crypto-erase has begun and not ended (R532)
  cert : Option (List Byte) := none
  patch : Option (List Byte) := none
  flash : Sparse Byte := []          -- Shelf objects, key directory index × 2^50 + byte of the object
  dir : List Dirent := []
  offCause : Nat := 0
  offSource : Nat := 0xFF
  powerOns : Nat := 0
  blocksRetired : Sparse Nat := []
  serial : BitVec 128 := 0
  deriving DecidableEq, Repr

/-! ### Fail-operational services -/

structure Ras where
  test : Option (Nat × Nat) := none  -- OP and TARGET of the running test
  deadAgents : List Nat := []
  lostDies : List Nat := []
  fatal : Bool := false              -- the fatal sequence has begun
  unrecorded : List (Nat × Nat) := []  -- kind and ID of what a full record no longer took (R484)
  deriving DecidableEq, Repr

/-! ### Power and pins (R535–R552) -/

structure Power where
  modEn : Bool := false
  on : Bool := false
  pwrGood : Bool := false
  rails : List Nat := []             -- rails that are up, by index of Table 20.3
  inputOk : Bool := true
  modEnLowSince : Option Nat := none
  tripped : Bool := false
  means : List Nat := []             -- the last 1 ms means of input power, newest first
  belowLow : Nat := 0
  amps : List Nat := []              -- the last 100 µs means of input current in mA, newest first
  seen : List Nat := []              -- the indices of PWR_TEMP read since cold reset
  wants : List (LimitKind × Nat) := []   -- limits and the divisors they want
  emergencies : List LimitKind := []     -- emergency conditions that hold
  trips : List (LimitKind × Nat) := []  -- trip conditions that hold and since when
  emergencyClear : Nat := 0
  rootAcc : Nat := 0                 -- root cycles not yet counted as an ARITH cycle
  deriving DecidableEq, Repr

/-- Start-up work that runs (Table 21.1). -/
structure Boot where
  released : Option Nat := none      -- device time at the die-reset release
  discovered : Bool := false
  straitUp : Bool := false
  shelfInit : Bool := false
  shelfFails : BitVec 16 := 0        -- Shelf packages that did not initialise
  trained : Bool := false
  filled : Bool := false
  dirLoaded : Bool := false
  deriving DecidableEq, Repr

/-- What the module has sent to the world, newest last. -/
inductive Msg where
  | straitWr (addr : Nat) (data : List Byte) (pmask : BitVec 64)
  | straitRd (tag : Nat) (addr : Nat) (len : Nat)
  | straitAtom (tag : Nat) (addr : Nat) (aop : BitVec 8) (a : Word) (b : Word)
  | straitCpl (tag : Nat) (status : Nat) (data : List Byte) (pmask : BitVec 64)
  | int (vector : Nat)
  | nfp (port : Nat) (type : Nat) (p : Packet)
  | nak (link : Nat) (seq : Nat)
  | replay (link : Nat) (seq : Nat)
  | twin (gdn : Nat) (what : Nat) (dig : BitVec 256)
  | tap (bits : Word)
  | domWord (rank : Nat) (div : Nat)
  | announce (div : Nat) (tick : Nat) (start : Nat)
  | fetch (rank : Nat) (win : Nat) (key : Word) (off : Nat) (len : Nat) (woff : Nat)
  deriving DecidableEq, Repr

/-- The module apart from its fuses, its non-volatile memories and its meter. -/
structure Dev where
  regs : Sparse Word := []
  pool : Pool := {}
  seq : Seq := {}
  tiles : Tiles := {}
  thr : Threads := {}
  fe : FrontEnd := {}
  ctu : Ctu := {}
  tier : Tier := {}
  coh : Coh := {}
  cores : Cores := {}
  nfp : Nfp := {}
  str : Strait := {}
  nrw : Narrows := {}
  twn : Twin := {}
  tdm : Tidemark := {}
  sec : Sec := {}
  ras : Ras := {}
  pw : Power := {}
  boot : Boot := {}
  out : List Msg := []
  nv : NonVolatile := {}
  fresh : Nat := 0                   -- the model's own: free values drawn so far
  deriving DecidableEq, Repr

/-- The one-time-programmable fuses of the two control dies (R514, R516, R530). -/
structure Otp where
  lc0 : BitVec 3 := 0
  lc1 : BitVec 3 := 0
  intent : Option (BitVec 3) := none
  count0 : Nat := 0
  count1 : Nat := 0
  deriving DecidableEq, Repr

/-- One entry of the meter's log (R554, Table 20.6). -/
structure MeterEntry where
  seq : BitVec 32
  event : Nat
  energy : Word
  deriving DecidableEq, Repr

/-- The sealed meter (R553–R558). -/
structure Meter where
  powered : Bool := false
  energy : Word := 0
  log : List MeterEntry := []        -- newest first, at most 1,024
  count : BitVec 32 := 0
  sealed : Bool := true
  errors : Byte := 0
  serial : BitVec 32 := 0
  checksum : BitVec 32 := 0
  pulses : Nat := 0
  answers : List (List Byte) := []
  deriving DecidableEq, Repr

/-- The whole module and the queue of commands that wait, first in, first out. -/
structure State where
  dev : Dev := {}
  otp : Otp := {}
  meter : Meter := {}
  pending : List Instr := []
  deriving DecidableEq, Repr

/-- The module after reset. (DESIGN CHOICE, assumption 5) -/
def State.reset : State := {}

end Sys2Proof.Machine
end

