-- ==== Sys2Proof/Machine/RegMap.lean ====
section
/-! DEFINITION. The register maps: every register of the fifteen blocks with its offset from 0x7F00_0000_0000 (R16), its fields, access types (Table 0.4), reset values and what warm reset leaves (R12), and a name for each field. -/

namespace Sys2Proof.Machine

/-- A field of a register: the register's offset from 0x7F00_0000_0000 and the field's high and low bits (R11). -/
structure Fld where
  reg : Nat
  hi : Nat
  lo : Nat
  deriving DecidableEq, Repr

/-- The access types of Table 0.4. -/
inductive Acc where
  | ro | rw | w1c | w1s | rc | wo
  deriving DecidableEq, Repr

/-- A field of a register map: bits, access type, reset value, and whether warm reset leaves it (R12). -/
structure FieldMap where
  hi : Nat
  lo : Nat
  acc : Acc
  reset : Nat
  warm : Bool
  deriving DecidableEq, Repr

/-- A register map: the offset of its first register, the stride and count of each index, and its fields. -/
structure RegMap where
  base : Nat
  dims : List (Nat × Nat)
  fields : List FieldMap
  deriving DecidableEq, Repr

/-! Block GLB. -/

def GLB_SERIAL_BYTES (n : Nat) : Fld := ⟨0x0 + n * 0x8, 63, 0⟩
def GLB_STATUS_READY : Fld := ⟨0x100, 63, 63⟩
def GLB_STATUS_KIND : Fld := ⟨0x100, 62, 60⟩
def GLB_STATUS_STEP : Fld := ⟨0x100, 59, 56⟩
def GLB_STATUS_FAIL : Fld := ⟨0x100, 55, 48⟩
def GLB_STATUS_FAIL_DIE : Fld := ⟨0x100, 47, 40⟩
def GLB_STATUS_WARM_COUNT : Fld := ⟨0x100, 15, 8⟩
def GLB_STATUS_PAIRING_REFUSED : Fld := ⟨0x100, 2, 2⟩
def GLB_STATUS_TALLY_MISMATCH : Fld := ⟨0x100, 1, 1⟩
def GLB_STATUS_EPOCH_STALE : Fld := ⟨0x100, 0, 0⟩
def GLB_TIME_TIME : Fld := ⟨0x200, 63, 0⟩
def GLB_BOOT_TIME_HBM_MS : Fld := ⟨0x208, 63, 32⟩
def GLB_BOOT_TIME_READY_MS : Fld := ⟨0x208, 31, 0⟩
def GLB_RESET_CONFIRM : Fld := ⟨0x300, 15, 8⟩
def GLB_RESET_COLD : Fld := ⟨0x300, 1, 1⟩
def GLB_RESET_WARM : Fld := ⟨0x300, 0, 0⟩

/-! Block FE. -/

def FE_STATUS_READY : Fld := ⟨0x1000000, 63, 63⟩
def FE_STATUS_INFLIGHT : Fld := ⟨0x1000000, 62, 50⟩
def FE_STATUS_LIVE_CTX : Fld := ⟨0x1000000, 49, 39⟩
def FE_STATUS_LIVE_Q : Fld := ⟨0x1000000, 38, 25⟩
def FE_STATUS_LIVE_FENCES : Fld := ⟨0x1000000, 24, 8⟩
def FE_TICK_TICK : Fld := ⟨0x1000010, 63, 0⟩
def FE_ADMIN_SQ_ADDR : Fld := ⟨0x1000100, 47, 12⟩
def FE_ADMIN_SQ_LOG2 : Fld := ⟨0x1000100, 8, 4⟩
def FE_ADMIN_SQ_EN : Fld := ⟨0x1000100, 0, 0⟩
def FE_ADMIN_CQ_ADDR : Fld := ⟨0x1000108, 47, 12⟩
def FE_ADMIN_CQ_LOG2 : Fld := ⟨0x1000108, 8, 4⟩
def FE_ADMIN_CQ_EN : Fld := ⟨0x1000108, 0, 0⟩
def FE_FUNC_CTRL_EN : Fld := ⟨0x1000200, 5, 0⟩
def FE_FUNC_TIMEOUT_MS (n : Nat) : Fld := ⟨0x1000208 + n * 0x8, 31, 0⟩
def FE_FUNC_STATUS_STATE : Fld := ⟨0x1000240, 11, 0⟩
def FE_FENCE_SIGVAL_VALUE : Fld := ⟨0x1000300, 62, 0⟩
def FE_FENCE_SIGNAL_INDEX : Fld := ⟨0x1000308, 31, 16⟩
def FE_FENCE_SIGNAL_CLR_ERROR : Fld := ⟨0x1000308, 1, 1⟩
def FE_FENCE_SIGNAL_GO : Fld := ⟨0x1000308, 0, 0⟩
def FE_FENCE_ERROR (n : Nat) : Fld := ⟨0x1100000 + n * 0x8, 63, 63⟩
def FE_FENCE_VALUE (n : Nat) : Fld := ⟨0x1100000 + n * 0x8, 62, 0⟩
def FE_Q_STATE_STATE (n : Nat) : Fld := ⟨0x1200000 + n * 0x10, 63, 61⟩
def FE_Q_STATE_DEVICE_OWNED (n : Nat) : Fld := ⟨0x1200000 + n * 0x10, 60, 60⟩
def FE_Q_STATE_PRIO (n : Nat) : Fld := ⟨0x1200000 + n * 0x10, 59, 58⟩
def FE_Q_STATE_ERR_STOP (n : Nat) : Fld := ⟨0x1200000 + n * 0x10, 57, 57⟩
def FE_Q_STATE_TAG (n : Nat) : Fld := ⟨0x1200000 + n * 0x10, 47, 32⟩
def FE_Q_STATE_FCORE (n : Nat) : Fld := ⟨0x1200000 + n * 0x10, 19, 16⟩
def FE_Q_STATE_INFLIGHT (n : Nat) : Fld := ⟨0x1200000 + n * 0x10, 12, 0⟩
def FE_Q_COUNT_HEAD (n : Nat) : Fld := ⟨0x1200008 + n * 0x10, 63, 32⟩
def FE_Q_COUNT_TAIL (n : Nat) : Fld := ⟨0x1200008 + n * 0x10, 31, 0⟩

/-! Block CTU. -/

def CTU_CTX_TAG (n : Nat) : Fld := ⟨0x2001000 + n * 0x8, 63, 48⟩
def CTU_CTX_ROOT (n : Nat) : Fld := ⟨0x2001000 + n * 0x8, 47, 12⟩
def CTU_CTX_MODE (n : Nat) : Fld := ⟨0x2001000 + n * 0x8, 11, 10⟩
def CTU_CTX_VALID (n : Nat) : Fld := ⟨0x2001000 + n * 0x8, 0, 0⟩
def CTU_STATUS_ACTIVE : Fld := ⟨0x2000000, 63, 63⟩
def CTU_STATUS_STANDBY_OK : Fld := ⟨0x2000000, 62, 62⟩
def CTU_STATUS_CONT_MISMATCH : Fld := ⟨0x2000000, 47, 32⟩
def CTU_STATUS_WALKS : Fld := ⟨0x2000000, 22, 16⟩
def CTU_STATUS_LIVE_CTX : Fld := ⟨0x2000000, 10, 0⟩
def CTU_INV_CMD_TAG : Fld := ⟨0x2000100, 63, 48⟩
def CTU_INV_CMD_COUNT : Fld := ⟨0x2000100, 47, 32⟩
def CTU_INV_CMD_STATUS : Fld := ⟨0x2000100, 31, 24⟩
def CTU_INV_CMD_SIZE : Fld := ⟨0x2000100, 5, 4⟩
def CTU_INV_CMD_OP : Fld := ⟨0x2000100, 3, 1⟩
def CTU_INV_CMD_GO : Fld := ⟨0x2000100, 0, 0⟩
def CTU_INV_VA_VA : Fld := ⟨0x2000108, 56, 0⟩
def CTU_FQ_BASE_ADDR : Fld := ⟨0x2000200, 47, 12⟩
def CTU_FQ_BASE_LOG2 : Fld := ⟨0x2000200, 8, 4⟩
def CTU_FQ_BASE_EN : Fld := ⟨0x2000200, 0, 0⟩
def CTU_NQ_BASE_ADDR : Fld := ⟨0x2000300, 47, 12⟩
def CTU_NQ_BASE_LOG2 : Fld := ⟨0x2000300, 8, 4⟩
def CTU_NQ_BASE_EN : Fld := ⟨0x2000300, 0, 0⟩
def CTU_FQ_PTR_HEAD : Fld := ⟨0x2000208, 47, 32⟩
def CTU_FQ_PTR_TAIL : Fld := ⟨0x2000208, 15, 0⟩
def CTU_NQ_PTR_HEAD : Fld := ⟨0x2000308, 47, 32⟩
def CTU_NQ_PTR_TAIL : Fld := ⟨0x2000308, 15, 0⟩
def CTU_FQ_STATUS_OVERFLOW : Fld := ⟨0x2000210, 63, 32⟩
def CTU_FQ_STATUS_EXPIRED : Fld := ⟨0x2000210, 31, 16⟩
def CTU_FQ_STATUS_PENDING : Fld := ⟨0x2000210, 11, 0⟩
def CTU_FAULT_CTRL_TIMEOUT : Fld := ⟨0x2000218, 63, 48⟩
def CTU_FAULT_CTRL_RETRY : Fld := ⟨0x2000218, 47, 32⟩
def CTU_FAULT_RESOLVE_ID : Fld := ⟨0x2000220, 26, 16⟩
def CTU_FAULT_RESOLVE_ACTION : Fld := ⟨0x2000220, 1, 1⟩
def CTU_FAULT_RESOLVE_GO : Fld := ⟨0x2000220, 0, 0⟩
def CTU_CNT_CTRL_THRESHOLD : Fld := ⟨0x2000310, 63, 32⟩
def CTU_CNT_CTRL_PERIOD_MS : Fld := ⟨0x2000310, 31, 16⟩
def CTU_NQ_STATUS_DROPPED : Fld := ⟨0x2000318, 63, 32⟩
def CTU_NQ_STATUS_POSTED : Fld := ⟨0x2000318, 31, 0⟩

/-! Block MEM. -/

def MEM_STATUS_RETIRED : Fld := ⟨0x3000000, 51, 48⟩
def MEM_STATUS_OUT : Fld := ⟨0x3000000, 47, 44⟩
def MEM_STATUS_RSV_FREE : Fld := ⟨0x3000000, 31, 10⟩
def MEM_STATUS_RSV_EXHAUSTED : Fld := ⟨0x3000000, 0, 0⟩
def MEM_PRIO_CTRL_BULK_AGE : Fld := ⟨0x3000100, 63, 48⟩
def MEM_PRIO_CTRL_WR_HIGH : Fld := ⟨0x3000100, 47, 40⟩
def MEM_PRIO_CTRL_WR_LOW : Fld := ⟨0x3000100, 39, 32⟩
def MEM_PRIO_CTRL_BG_SHARE : Fld := ⟨0x3000100, 31, 28⟩
def MEM_CLASS_MAP_MAP : Fld := ⟨0x3000108, 23, 0⟩
def MEM_SAT_CTRL_WINDOW : Fld := ⟨0x3000110, 63, 32⟩
def MEM_SAT_CTRL_SAT_PCT : Fld := ⟨0x3000110, 31, 28⟩
def MEM_SAT_CTRL_LOG : Fld := ⟨0x3000110, 0, 0⟩
def MEM_RAS_CTRL_CE_LIMIT : Fld := ⟨0x3000200, 63, 48⟩
def MEM_RAS_CTRL_UE_LIMIT : Fld := ⟨0x3000200, 47, 40⟩
def MEM_RAS_CTRL_SCRUB_HOURS : Fld := ⟨0x3000200, 39, 32⟩
def MEM_RAS_CTRL_RETRAIN_MS : Fld := ⟨0x3000200, 31, 16⟩
def MEM_RAS_CTRL_MARGIN_MIN : Fld := ⟨0x3000200, 15, 8⟩
def MEM_RAS_CTRL_AUTO_RETIRE : Fld := ⟨0x3000200, 0, 0⟩
def MEM_ERR_LOG_PC : Fld := ⟨0x3000208, 63, 55⟩
def MEM_ERR_LOG_BANK : Fld := ⟨0x3000208, 54, 49⟩
def MEM_ERR_LOG_ROW : Fld := ⟨0x3000208, 48, 35⟩
def MEM_ERR_LOG_BURST : Fld := ⟨0x3000208, 34, 30⟩
def MEM_ERR_LOG_SYMBOLS : Fld := ⟨0x3000208, 29, 26⟩
def MEM_ERR_LOG_KIND : Fld := ⟨0x3000208, 25, 24⟩
def MEM_ERR_LOG_VALID : Fld := ⟨0x3000208, 0, 0⟩
def MEM_PC_CMD_PC : Fld := ⟨0x3000300, 31, 23⟩
def MEM_PC_CMD_OP : Fld := ⟨0x3000300, 22, 20⟩
def MEM_PC_CMD_KIND : Fld := ⟨0x3000300, 19, 16⟩
def MEM_PC_CMD_ALL : Fld := ⟨0x3000300, 15, 15⟩
def MEM_PC_CMD_GO : Fld := ⟨0x3000300, 0, 0⟩
def MEM_MARGIN_RESULT_STATUS : Fld := ⟨0x3000308, 63, 56⟩
def MEM_MARGIN_RESULT_PC : Fld := ⟨0x3000308, 55, 47⟩
def MEM_MARGIN_RESULT_OP : Fld := ⟨0x3000308, 46, 44⟩
def MEM_MARGIN_RESULT_KIND : Fld := ⟨0x3000308, 43, 40⟩
def MEM_MARGIN_RESULT_LEFT : Fld := ⟨0x3000308, 39, 32⟩
def MEM_MARGIN_RESULT_RIGHT : Fld := ⟨0x3000308, 31, 24⟩
def MEM_MARGIN_RESULT_DONE : Fld := ⟨0x3000308, 0, 0⟩
def MEM_PC_STATE_STATE (n : Nat) : Fld := ⟨0x3001000 + n * 0x8, 63, 61⟩
def MEM_PC_STATE_CE (n : Nat) : Fld := ⟨0x3001000 + n * 0x8, 55, 40⟩
def MEM_PC_STATE_UE (n : Nat) : Fld := ⟨0x3001000 + n * 0x8, 39, 32⟩
def MEM_PC_STATE_PPR (n : Nat) : Fld := ⟨0x3001000 + n * 0x8, 31, 24⟩
def MEM_PC_STATE_SAT (n : Nat) : Fld := ⟨0x3001000 + n * 0x8, 23, 0⟩

/-! Block TIER. -/

def TIER_CTRL_REFETCH_MS : Fld := ⟨0x4000000, 63, 32⟩
def TIER_CTRL_REFETCH : Fld := ⟨0x4000000, 0, 0⟩
def TIER_POOL_CTRL_FRAMES : Fld := ⟨0x4000100, 17, 0⟩
def TIER_POOL_STATUS_FREE : Fld := ⟨0x4000108, 63, 46⟩
def TIER_POOL_STATUS_AGED : Fld := ⟨0x4000108, 45, 28⟩
def TIER_POOL_STATUS_WAITING : Fld := ⟨0x4000108, 27, 16⟩
def TIER_POOL_STATUS_COPIES : Fld := ⟨0x4000108, 15, 0⟩
def TIER_SHELF_STATUS_FREE_STRIPES : Fld := ⟨0x4000200, 63, 39⟩
def TIER_SHELF_STATUS_OBJECTS : Fld := ⟨0x4000200, 38, 22⟩
def TIER_SHELF_STATUS_BAD_STRIPES : Fld := ⟨0x4000200, 21, 1⟩
def TIER_SHELF_STATUS_READY : Fld := ⟨0x4000200, 0, 0⟩
def TIER_ERR_CNT_LATE : Fld := ⟨0x4000208, 63, 48⟩
def TIER_ERR_CNT_DATA_ERR : Fld := ⟨0x4000208, 47, 32⟩
def TIER_ERR_CNT_REFETCH_OK : Fld := ⟨0x4000208, 31, 16⟩
def TIER_ERR_CNT_REFETCH_FAIL : Fld := ⟨0x4000208, 15, 0⟩
def TIER_ERR_LOG_OBJ : Fld := ⟨0x4000300, 63, 48⟩
def TIER_ERR_LOG_STRIPE : Fld := ⟨0x4000300, 47, 23⟩
def TIER_ERR_LOG_KIND : Fld := ⟨0x4000300, 22, 20⟩
def TIER_ERR_LOG_VALID : Fld := ⟨0x4000300, 0, 0⟩

/-! Block COH. -/

def COH_STATUS_FATAL : Fld := ⟨0x5000000, 63, 63⟩
def COH_STATUS_FATAL_AGENT : Fld := ⟨0x5000000, 55, 48⟩
def COH_STATUS_FATAL_CAUSE : Fld := ⟨0x5000000, 47, 40⟩
def COH_STATUS_DEAD_USER : Fld := ⟨0x5000000, 7, 0⟩
def COH_CTRL_SNOOP_TIMEOUT : Fld := ⟨0x5000008, 63, 32⟩
def COH_CTRL_HINT_EN : Fld := ⟨0x5000008, 0, 0⟩
def COH_AGENT_CMD_STATUS : Fld := ⟨0x5000020, 31, 24⟩
def COH_AGENT_CMD_AGENT : Fld := ⟨0x5000020, 15, 8⟩
def COH_AGENT_CMD_OP : Fld := ⟨0x5000020, 7, 5⟩
def COH_AGENT_CMD_GO : Fld := ⟨0x5000020, 0, 0⟩
def COH_WAYS_TARGET (n : Nat) : Fld := ⟨0x5000100 + n * 0x8, 13, 9⟩
def COH_WAYS_CLEANING (n : Nat) : Fld := ⟨0x5000100 + n * 0x8, 8, 8⟩
def COH_WAYS_IN_FORCE (n : Nat) : Fld := ⟨0x5000100 + n * 0x8, 4, 0⟩
def COH_HINT_RANGE_FIRST (n : Nat) : Fld := ⟨0x5000200 + n * 0x8, 63, 46⟩
def COH_HINT_RANGE_LAST (n : Nat) : Fld := ⟨0x5000200 + n * 0x8, 45, 28⟩
def COH_HINT_RANGE_HINT (n : Nat) : Fld := ⟨0x5000200 + n * 0x8, 7, 0⟩
def COH_HINT_STATUS_INSTALLED : Fld := ⟨0x5000300, 63, 32⟩
def COH_HINT_STATUS_DROPPED : Fld := ⟨0x5000300, 31, 0⟩
def COH_ERR_CNT_DATA_CE : Fld := ⟨0x5000308, 63, 48⟩
def COH_ERR_CNT_DATA_UE : Fld := ⟨0x5000308, 47, 32⟩
def COH_ERR_CNT_TAG_FIXED : Fld := ⟨0x5000308, 31, 16⟩
def COH_ERR_CNT_TILE_LOST : Fld := ⟨0x5000308, 15, 0⟩
def COH_AGENT_STATE (n : Nat) : Fld := ⟨0x5001000 + n * 0x8, 63, 61⟩
def COH_AGENT_CLASS (n : Nat) : Fld := ⟨0x5001000 + n * 0x8, 60, 60⟩
def COH_AGENT_RECLAIMED (n : Nat) : Fld := ⟨0x5001000 + n * 0x8, 47, 24⟩
def COH_AGENT_POISONED (n : Nat) : Fld := ⟨0x5001000 + n * 0x8, 23, 0⟩

/-! Block REEF. -/

def REEF_SRAM_LIMIT_LS_MAX : Fld := ⟨0x6000108, 7, 4⟩
def REEF_SRAM_LIMIT_LS_MIN : Fld := ⟨0x6000108, 3, 0⟩
def REEF_TMAP_LT3 (n : Nat) : Fld := ⟨0x6001000 + n * 0x8, 63, 48⟩
def REEF_TMAP_LT2 (n : Nat) : Fld := ⟨0x6001000 + n * 0x8, 47, 32⟩
def REEF_TMAP_LT1 (n : Nat) : Fld := ⟨0x6001000 + n * 0x8, 31, 16⟩
def REEF_TMAP_LT0 (n : Nat) : Fld := ⟨0x6001000 + n * 0x8, 15, 0⟩
def REEF_PTS_STATE (n k : Nat) : Fld := ⟨0x6002000 + n * 0x40 + k * 0x8, 63, 0⟩
def REEF_ROT_CTRL_MIN_INTERVAL : Fld := ⟨0x6000200, 63, 32⟩
def REEF_ROT_CTRL_FORCE_NEXT : Fld := ⟨0x6000200, 8, 8⟩
def REEF_ROT_CTRL_ENABLE : Fld := ⟨0x6000200, 0, 0⟩
def REEF_ROT_STATUS_ROTATIONS : Fld := ⟨0x6000208, 63, 40⟩
def REEF_ROT_STATUS_SKIPPED : Fld := ⟨0x6000208, 39, 16⟩
def REEF_ROT_STATUS_LAST_OUT : Fld := ⟨0x6000208, 15, 0⟩
def REEF_HANDOVER_SLICE : Fld := ⟨0x6000300, 63, 32⟩
def REEF_HANDOVER_YIELD_WAIT : Fld := ⟨0x6000300, 31, 0⟩
def REEF_STATUS_OWNER_TAG : Fld := ⟨0x6000100, 63, 48⟩
def REEF_STATUS_LS_SEGS : Fld := ⟨0x6000100, 39, 36⟩
def REEF_STATUS_OWNER_VALID : Fld := ⟨0x6000100, 35, 35⟩
def REEF_STATUS_STATE : Fld := ⟨0x6000100, 34, 32⟩
def REEF_STATUS_LEADER : Fld := ⟨0x6000100, 25, 24⟩
def REEF_STATUS_SPARES_A3 : Fld := ⟨0x6000100, 15, 12⟩
def REEF_STATUS_SPARES_A2 : Fld := ⟨0x6000100, 11, 8⟩
def REEF_STATUS_SPARES_A1 : Fld := ⟨0x6000100, 7, 4⟩
def REEF_STATUS_SPARES_A0 : Fld := ⟨0x6000100, 3, 0⟩
def REEF_HO_STATUS_LAST_SAVE : Fld := ⟨0x6000308, 63, 32⟩
def REEF_HO_STATUS_HANDOVERS : Fld := ⟨0x6000308, 31, 0⟩
def REEF_LOCKSTEP_RESYNCS : Fld := ⟨0x6000410, 63, 32⟩
def REEF_LOCKSTEP_FAULTED : Fld := ⟨0x6000410, 19, 16⟩
def REEF_LOCKSTEP_WINDOW : Fld := ⟨0x6000410, 15, 0⟩
def REEF_SEQ_STATUS_PC : Fld := ⟨0x6000400, 47, 32⟩
def REEF_SEQ_STATUS_LIVE : Fld := ⟨0x6000400, 15, 12⟩
def REEF_SEQ_STATUS_WAIT : Fld := ⟨0x6000400, 6, 4⟩
def REEF_SEQ_STATUS_STATE : Fld := ⟨0x6000400, 2, 0⟩
def REEF_SEQ_FAULT_PC : Fld := ⟨0x6000408, 63, 48⟩
def REEF_SEQ_FAULT_CAUSE : Fld := ⟨0x6000408, 47, 40⟩
def REEF_SEQ_FAULT_STATUS : Fld := ⟨0x6000408, 39, 32⟩
def REEF_SEQ_FAULT_VALID : Fld := ⟨0x6000408, 0, 0⟩
def REEF_TD_STATUS_GROUPS (n : Nat) : Fld := ⟨0x6000500 + n * 0x8, 50, 38⟩
def REEF_TD_STATUS_BLOCKS (n : Nat) : Fld := ⟨0x6000500 + n * 0x8, 37, 25⟩
def REEF_TD_STATUS_LAUNCHES (n : Nat) : Fld := ⟨0x6000500 + n * 0x8, 20, 16⟩
def REEF_THR_FAULT_PC : Fld := ⟨0x6000520, 63, 40⟩
def REEF_THR_FAULT_LTILE : Fld := ⟨0x6000520, 39, 30⟩
def REEF_THR_FAULT_SLOT : Fld := ⟨0x6000520, 29, 25⟩
def REEF_THR_FAULT_LANE : Fld := ⟨0x6000520, 24, 20⟩
def REEF_THR_FAULT_CAUSE : Fld := ⟨0x6000520, 19, 12⟩
def REEF_THR_FAULT_STATUS : Fld := ⟨0x6000520, 11, 4⟩
def REEF_THR_FAULT_VALID : Fld := ⟨0x6000520, 0, 0⟩
def REEF_DET_STATUS_STALLS : Fld := ⟨0x6000600, 63, 32⟩
def REEF_DET_STATUS_LATE : Fld := ⟨0x6000600, 31, 16⟩

/-! Block NFP. -/

def NFP_DOM_CTRL_TICK_UNITS : Fld := ⟨0x7008000, 63, 48⟩
def NFP_DOM_CTRL_BASE_RANK : Fld := ⟨0x7008000, 46, 32⟩
def NFP_DOM_CTRL_MEMBERS : Fld := ⟨0x7008000, 31, 22⟩
def NFP_DOM_CTRL_DRANK : Fld := ⟨0x7008000, 21, 13⟩
def NFP_DOM_CTRL_REF : Fld := ⟨0x7008000, 12, 4⟩
def NFP_DOM_CTRL_HOLD : Fld := ⟨0x7008000, 3, 1⟩
def NFP_DOM_CTRL_ENABLE : Fld := ⟨0x7008000, 0, 0⟩
def NFP_DOM_START_START : Fld := ⟨0x7008008, 63, 0⟩
def NFP_DOM_STATUS_OFFSET : Fld := ⟨0x7008010, 63, 48⟩
def NFP_DOM_STATUS_DIV_NOW : Fld := ⟨0x7008010, 39, 36⟩
def NFP_DOM_STATUS_DIV_NEXT : Fld := ⟨0x7008010, 35, 32⟩
def NFP_DOM_STATUS_TD_CAUSE : Fld := ⟨0x7008010, 23, 16⟩
def NFP_DOM_STATUS_TD_OK : Fld := ⟨0x7008010, 3, 3⟩
def NFP_DOM_STATUS_STATE : Fld := ⟨0x7008010, 2, 0⟩
def NFP_DOM_TICK_TICK : Fld := ⟨0x7008018, 63, 0⟩
def NFP_DOM_SYNC_TRIM : Fld := ⟨0x7008020, 63, 32⟩
def NFP_DOM_SYNC_MEASURES : Fld := ⟨0x7008020, 31, 0⟩
def NFP_PTP_CTRL_PORTS : Fld := ⟨0x7008028, 15, 8⟩
def NFP_PTP_CTRL_ENABLE : Fld := ⟨0x7008028, 7, 7⟩
def NFP_PTP_CTRL_DOMAIN : Fld := ⟨0x7008028, 6, 0⟩
def NFP_SCHED_ADDR_ADDR : Fld := ⟨0x7008030, 47, 14⟩
def NFP_SCHED_ADDR_LOAD : Fld := ⟨0x7008030, 0, 0⟩
def NFP_SCHED_SWITCH_TICK : Fld := ⟨0x7008038, 63, 0⟩
def NFP_SCHED_STATUS_OVERRUNS : Fld := ⟨0x7008040, 63, 32⟩
def NFP_SCHED_STATUS_ERR_INDEX : Fld := ⟨0x7008040, 26, 16⟩
def NFP_SCHED_STATUS_ERR : Fld := ⟨0x7008040, 15, 8⟩
def NFP_SCHED_STATUS_LATE_SWITCH : Fld := ⟨0x7008040, 2, 2⟩
def NFP_SCHED_STATUS_LOADED : Fld := ⟨0x7008040, 1, 1⟩
def NFP_SCHED_STATUS_ACTIVE : Fld := ⟨0x7008040, 0, 0⟩
def NFP_PORT_CTRL_SPARE_EN (n : Nat) : Fld := ⟨0x7000000 + n * 0x8, 3, 3⟩
def NFP_PORT_CTRL_CLASS (n : Nat) : Fld := ⟨0x7000000 + n * 0x8, 2, 2⟩
def NFP_PORT_CTRL_MODE (n : Nat) : Fld := ⟨0x7000000 + n * 0x8, 1, 1⟩
def NFP_PORT_CTRL_EN (n : Nat) : Fld := ⟨0x7000000 + n * 0x8, 0, 0⟩
def NFP_PORT_STATUS_CRC_ERR (n : Nat) : Fld := ⟨0x7000040 + n * 0x8, 63, 48⟩
def NFP_PORT_STATUS_REPLAYS (n : Nat) : Fld := ⟨0x7000040 + n * 0x8, 47, 32⟩
def NFP_PORT_STATUS_LANES (n : Nat) : Fld := ⟨0x7000040 + n * 0x8, 15, 12⟩
def NFP_PORT_STATUS_SPARE_IN (n : Nat) : Fld := ⟨0x7000040 + n * 0x8, 11, 11⟩
def NFP_PORT_STATUS_PARTNER (n : Nat) : Fld := ⟨0x7000040 + n * 0x8, 10, 8⟩
def NFP_PORT_STATUS_STATE (n : Nat) : Fld := ⟨0x7000040 + n * 0x8, 2, 0⟩
def NFP_CTRL_ETYPE : Fld := ⟨0x7000100, 63, 48⟩
def NFP_CTRL_REQ_TIMEOUT : Fld := ⟨0x7000100, 47, 32⟩
def NFP_CTRL_RETRIES : Fld := ⟨0x7000100, 31, 30⟩
def NFP_CTRL_TIER_SQ : Fld := ⟨0x7000100, 29, 24⟩
def NFP_STORE_BASE : Fld := ⟨0x7000108, 46, 32⟩
def NFP_STORE_COUNT : Fld := ⟨0x7000108, 15, 0⟩
def NFP_JOB_W0_EPOCH (n : Nat) : Fld := ⟨0x7000200 + n * 0x10, 63, 32⟩
def NFP_JOB_W0_TAG (n : Nat) : Fld := ⟨0x7000200 + n * 0x10, 31, 16⟩
def NFP_JOB_W0_VALID (n : Nat) : Fld := ⟨0x7000200 + n * 0x10, 15, 15⟩
def NFP_JOB_W0_RANK (n : Nat) : Fld := ⟨0x7000200 + n * 0x10, 14, 0⟩
def NFP_JOB_W1_TOKEN (n : Nat) : Fld := ⟨0x7000208 + n * 0x10, 63, 0⟩
def NFP_JOB_SQ_SQ : Fld := ⟨0x7000300, 63, 0⟩
def NFP_WIN_W0_EPOCH (n : Nat) : Fld := ⟨0x7010000 + n * 0x10, 63, 32⟩
def NFP_WIN_W0_HINT (n : Nat) : Fld := ⟨0x7010000 + n * 0x10, 15, 8⟩
def NFP_WIN_W0_A (n : Nat) : Fld := ⟨0x7010000 + n * 0x10, 4, 4⟩
def NFP_WIN_W0_W (n : Nat) : Fld := ⟨0x7010000 + n * 0x10, 3, 3⟩
def NFP_WIN_W0_R (n : Nat) : Fld := ⟨0x7010000 + n * 0x10, 2, 2⟩
def NFP_WIN_W0_BOUND (n : Nat) : Fld := ⟨0x7010000 + n * 0x10, 1, 1⟩
def NFP_WIN_W0_OPEN (n : Nat) : Fld := ⟨0x7010000 + n * 0x10, 0, 0⟩
def NFP_WIN_W1_TOKEN (n : Nat) : Fld := ⟨0x7010008 + n * 0x10, 63, 0⟩
def NFP_WIN_RANGE_FIRST (n : Nat) : Fld := ⟨0x7020000 + n * 0x8, 63, 46⟩
def NFP_WIN_RANGE_LAST (n : Nat) : Fld := ⟨0x7020000 + n * 0x8, 45, 28⟩
def NFP_DROP_CNT_STALE : Fld := ⟨0x7000400, 63, 56⟩
def NFP_DROP_CNT_MISROUTED : Fld := ⟨0x7000400, 55, 48⟩
def NFP_DROP_CNT_CLOSED : Fld := ⟨0x7000400, 47, 40⟩
def NFP_DROP_CNT_TOKEN : Fld := ⟨0x7000400, 39, 32⟩
def NFP_DROP_CNT_RIGHTS : Fld := ⟨0x7000400, 31, 24⟩
def NFP_DROP_CNT_COLL : Fld := ⟨0x7000400, 23, 16⟩
def NFP_DROP_CNT_ETH : Fld := ⟨0x7000400, 15, 8⟩
def NFP_DROP_LOG_EPOCH : Fld := ⟨0x7000408, 63, 32⟩
def NFP_DROP_LOG_SRC_RANK : Fld := ⟨0x7000408, 31, 17⟩
def NFP_DROP_LOG_WIN : Fld := ⟨0x7000408, 16, 4⟩
def NFP_DROP_LOG_CHECK : Fld := ⟨0x7000408, 3, 1⟩
def NFP_DROP_LOG_VALID : Fld := ⟨0x7000408, 0, 0⟩
def NFP_ETH_MAC_ADDR (n : Nat) : Fld := ⟨0x7000500 + n * 0x10, 47, 0⟩
def NFP_ETH_PEER_ADDR (n : Nat) : Fld := ⟨0x7000508 + n * 0x10, 47, 0⟩
def NFP_COLL_STATUS_DONE : Fld := ⟨0x7000600, 63, 32⟩
def NFP_COLL_STATUS_FAILED : Fld := ⟨0x7000600, 31, 16⟩
def NFP_COLL_STATUS_INFLIGHT : Fld := ⟨0x7000600, 6, 0⟩

/-! Block STR. -/

def STR_LINK_STATUS_CRC_ERR : Fld := ⟨0x8000000, 63, 48⟩
def STR_LINK_STATUS_REPLAYS : Fld := ⟨0x8000000, 47, 32⟩
def STR_LINK_STATUS_LANES : Fld := ⟨0x8000000, 15, 12⟩
def STR_LINK_STATUS_SPARE_IN : Fld := ⟨0x8000000, 11, 11⟩
def STR_LINK_STATUS_STATE : Fld := ⟨0x8000000, 2, 0⟩
def STR_CTRL_REQ_TIMEOUT : Fld := ⟨0x8000008, 63, 48⟩
def STR_CTRL_HOLDOFF : Fld := ⟨0x8000008, 47, 32⟩
def STR_HWIN_BASE (n : Nat) : Fld := ⟨0x8000100 + n * 0x8, 63, 40⟩
def STR_HWIN_VALID (n : Nat) : Fld := ⟨0x8000100 + n * 0x8, 0, 0⟩
def STR_DMA_RING_ADDR (n : Nat) : Fld := ⟨0x8000200 + n * 0x10, 47, 12⟩
def STR_DMA_RING_VECTOR (n : Nat) : Fld := ⟨0x8000200 + n * 0x10, 10, 0⟩
def STR_DMA_PTR_HEAD (n : Nat) : Fld := ⟨0x8000208 + n * 0x10, 63, 48⟩
def STR_DMA_PTR_TAIL (n : Nat) : Fld := ⟨0x8000208 + n * 0x10, 47, 32⟩
def STR_DMA_PTR_LOG2 (n : Nat) : Fld := ⟨0x8000208 + n * 0x10, 7, 4⟩
def STR_DMA_PTR_STATE (n : Nat) : Fld := ⟨0x8000208 + n * 0x10, 3, 2⟩
def STR_DMA_PTR_EN (n : Nat) : Fld := ⟨0x8000208 + n * 0x10, 0, 0⟩

/-! Block NRW. -/

def NRW_DISC_STATUS_LEVEL : Fld := ⟨0x9000000, 55, 48⟩
def NRW_DISC_STATUS_MINPAIR : Fld := ⟨0x9000000, 47, 40⟩
def NRW_DISC_STATUS_CAUSE : Fld := ⟨0x9000000, 39, 32⟩
def NRW_DISC_STATUS_CAUSE_DIE : Fld := ⟨0x9000000, 31, 24⟩
def NRW_DISC_STATUS_STATE : Fld := ⟨0x9000000, 2, 0⟩
def NRW_CTRL_IDLE_PD : Fld := ⟨0x9000008, 0, 0⟩
def NRW_DIE_REV (n : Nat) : Fld := ⟨0x9000100 + n * 0x8, 63, 56⟩
def NRW_DIE_FEAT (n : Nat) : Fld := ⟨0x9000100 + n * 0x8, 55, 48⟩
def NRW_DIE_MINPAIR (n : Nat) : Fld := ⟨0x9000100 + n * 0x8, 47, 40⟩
def NRW_DIE_KIND (n : Nat) : Fld := ⟨0x9000100 + n * 0x8, 39, 36⟩
def NRW_DIE_STATE (n : Nat) : Fld := ⟨0x9000100 + n * 0x8, 35, 32⟩
def NRW_DIE_RESETS (n : Nat) : Fld := ⟨0x9000100 + n * 0x8, 31, 16⟩
def NRW_LINK_CRC_ERR (n : Nat) : Fld := ⟨0x9000200 + n * 0x8, 63, 48⟩
def NRW_LINK_REPLAYS (n : Nat) : Fld := ⟨0x9000200 + n * 0x8, 47, 32⟩
def NRW_LINK_MODULES (n : Nat) : Fld := ⟨0x9000200 + n * 0x8, 15, 4⟩
def NRW_LINK_STATE (n : Nat) : Fld := ⟨0x9000200 + n * 0x8, 2, 0⟩
def NRW_CLK_STATUS_MASTER : Fld := ⟨0x9000300, 63, 63⟩
def NRW_CLK_STATUS_STANDBY_OK : Fld := ⟨0x9000300, 62, 62⟩
def NRW_CLK_STATUS_REF_OK : Fld := ⟨0x9000300, 61, 61⟩
def NRW_CLK_STATUS_PHASE : Fld := ⟨0x9000300, 47, 32⟩
def NRW_DIE_CMD_STATUS : Fld := ⟨0x9000400, 31, 24⟩
def NRW_DIE_CMD_DIE : Fld := ⟨0x9000400, 18, 16⟩
def NRW_DIE_CMD_OP : Fld := ⟨0x9000400, 7, 5⟩
def NRW_DIE_CMD_GO : Fld := ⟨0x9000400, 0, 0⟩

/-! Block TWN. -/

def TWN_CTRL_HB_MISS : Fld := ⟨0xa000000, 63, 48⟩
def TWN_CTRL_MAX_LAG : Fld := ⟨0xa000000, 47, 32⟩
def TWN_CTRL_VERDICT_MS : Fld := ⟨0xa000000, 31, 16⟩
def TWN_CTRL_ROLE : Fld := ⟨0xa000000, 1, 1⟩
def TWN_CTRL_EN : Fld := ⟨0xa000000, 0, 0⟩
def TWN_STATUS_LAG : Fld := ⟨0xa000008, 63, 48⟩
def TWN_STATUS_CAUSE : Fld := ⟨0xa000008, 39, 32⟩
def TWN_STATUS_ROLE : Fld := ⟨0xa000008, 4, 4⟩
def TWN_STATUS_STATE : Fld := ⟨0xa000008, 3, 0⟩
def TWN_LINK_STATUS_CRC_ERR : Fld := ⟨0xa000010, 63, 48⟩
def TWN_LINK_STATUS_REPLAYS : Fld := ⟨0xa000010, 47, 32⟩
def TWN_LINK_STATUS_LANES : Fld := ⟨0xa000010, 15, 12⟩
def TWN_LINK_STATUS_SPARE_IN : Fld := ⟨0xa000010, 11, 11⟩
def TWN_LINK_STATUS_STATE : Fld := ⟨0xa000010, 2, 0⟩
def TWN_CMD_STATUS : Fld := ⟨0xa000018, 31, 24⟩
def TWN_CMD_OP : Fld := ⟨0xa000018, 7, 4⟩
def TWN_CMD_GO : Fld := ⟨0xa000018, 0, 0⟩
def TWN_TALLY_LAST_AGREED : Fld := ⟨0xa000020, 63, 32⟩
def TWN_TALLY_LAST_TAKEN : Fld := ⟨0xa000020, 31, 0⟩
def TWN_DIGEST_BYTES (n : Nat) : Fld := ⟨0xa000040 + n * 0x8, 63, 0⟩
def TWN_PDIGEST_BYTES (n : Nat) : Fld := ⟨0xa000060 + n * 0x8, 63, 0⟩
def TWN_SET_W0_VA (n : Nat) : Fld := ⟨0xa001000 + n * 0x10, 56, 0⟩
def TWN_SET_W1_LENGTH (n : Nat) : Fld := ⟨0xa001008 + n * 0x10, 39, 0⟩

/-! Block TDM. -/

def TDM_SEQ_SEQ : Fld := ⟨0xb000000, 63, 0⟩
def TDM_STATUS_REPEATS : Fld := ⟨0xb000008, 63, 32⟩
def TDM_STATUS_USED : Fld := ⟨0xb000008, 31, 12⟩
def TDM_STATUS_DROPPED : Fld := ⟨0xb000008, 11, 2⟩
def TDM_STATUS_SHADOW_OK : Fld := ⟨0xb000008, 1, 1⟩
def TDM_STATUS_FULL : Fld := ⟨0xb000008, 0, 0⟩
def TDM_ACK_FATAL : Fld := ⟨0xb000010, 63, 63⟩
def TDM_ACK_SEQ : Fld := ⟨0xb000010, 62, 0⟩
def TDM_OPEN_STATUS : Fld := ⟨0xb000018, 15, 8⟩
def TDM_OPEN_DUMP : Fld := ⟨0xb000018, 1, 1⟩
def TDM_OPEN_SPILL : Fld := ⟨0xb000018, 0, 0⟩
def TDM_DUMP_STATE : Fld := ⟨0xb000100, 63, 61⟩
def TDM_DUMP_KEPT : Fld := ⟨0xb000100, 60, 60⟩
def TDM_DUMP_SOURCE : Fld := ⟨0xb000100, 59, 59⟩
def TDM_DUMP_VALID : Fld := ⟨0xb000100, 0, 0⟩
def TDM_DUMP_LEN_LENGTH : Fld := ⟨0xb000108, 30, 0⟩
def TDM_SNAPSEL_VALID (n k : Nat) : Fld := ⟨0xb001000 + n * 0x80 + k * 0x8, 63, 63⟩
def TDM_SNAPSEL_IDX (n k : Nat) : Fld := ⟨0xb001000 + n * 0x80 + k * 0x8, 62, 62⟩
def TDM_SNAPSEL_STRIDE (n k : Nat) : Fld := ⟨0xb001000 + n * 0x80 + k * 0x8, 47, 32⟩
def TDM_SNAPSEL_BLOCK (n k : Nat) : Fld := ⟨0xb001000 + n * 0x80 + k * 0x8, 27, 24⟩
def TDM_SNAPSEL_OFFSET (n k : Nat) : Fld := ⟨0xb001000 + n * 0x80 + k * 0x8, 23, 0⟩

/-! Block SEC. -/

def SEC_LC_STATE_ROLLBACK : Fld := ⟨0xc000000, 13, 8⟩
def SEC_LC_STATE_INTENT : Fld := ⟨0xc000000, 7, 7⟩
def SEC_LC_STATE_PENDING : Fld := ⟨0xc000000, 6, 4⟩
def SEC_LC_STATE_STATE : Fld := ⟨0xc000000, 2, 0⟩
def SEC_CMD_STATUS : Fld := ⟨0xc000008, 63, 56⟩
def SEC_CMD_PARAM : Fld := ⟨0xc000008, 31, 16⟩
def SEC_CMD_OP : Fld := ⟨0xc000008, 11, 8⟩
def SEC_CMD_GO : Fld := ⟨0xc000008, 0, 0⟩
def SEC_CMD_ADDR_ADDR : Fld := ⟨0xc000010, 47, 0⟩
def SEC_CHALLENGE_VALUE : Fld := ⟨0xc000018, 63, 0⟩
def SEC_PATCH_STATUS_VERSION : Fld := ⟨0xc000100, 63, 32⟩
def SEC_PATCH_STATUS_LEVEL : Fld := ⟨0xc000100, 31, 24⟩
def SEC_PATCH_STATUS_REASON : Fld := ⟨0xc000100, 11, 8⟩
def SEC_PATCH_STATUS_STAGED : Fld := ⟨0xc000100, 1, 1⟩
def SEC_PATCH_STATUS_LOADED : Fld := ⟨0xc000100, 0, 0⟩
def SEC_ENTROPY_FAIL_C0 : Fld := ⟨0xc000108, 63, 48⟩
def SEC_ENTROPY_FAIL_C1 : Fld := ⟨0xc000108, 47, 32⟩
def SEC_ENTROPY_OK_C1 : Fld := ⟨0xc000108, 1, 1⟩
def SEC_ENTROPY_OK_C0 : Fld := ⟨0xc000108, 0, 0⟩
def SEC_MR_BYTES (n k : Nat) : Fld := ⟨0xc000400 + n * 0x20 + k * 0x8, 63, 0⟩
def SEC_ID_WIN_BYTES (n : Nat) : Fld := ⟨0xc001000 + n * 0x8, 63, 0⟩

/-! Block PWR. -/

def PWR_STATUS_LEAK : Fld := ⟨0xd000000, 3, 3⟩
def PWR_STATUS_METER_STALE : Fld := ⟨0xd000000, 2, 2⟩
def PWR_STATUS_INPUT_LOW : Fld := ⟨0xd000000, 1, 1⟩
def PWR_STATUS_RAILS_OK : Fld := ⟨0xd000000, 0, 0⟩
def PWR_INPUT_VOLTAGE : Fld := ⟨0xd000008, 63, 48⟩
def PWR_INPUT_CURRENT : Fld := ⟨0xd000008, 47, 32⟩
def PWR_INPUT_POWER_1MS : Fld := ⟨0xd000008, 31, 16⟩
def PWR_INPUT_POWER_100US : Fld := ⟨0xd000008, 15, 0⟩
def PWR_THROTTLE_SWITCHES : Fld := ⟨0xd000010, 63, 32⟩
def PWR_THROTTLE_DIV_NOW : Fld := ⟨0xd000010, 27, 24⟩
def PWR_THROTTLE_DIV_WANT : Fld := ⟨0xd000010, 23, 20⟩
def PWR_THROTTLE_EMERGENCY : Fld := ⟨0xd000010, 19, 19⟩
def PWR_THROTTLE_CAUSE : Fld := ⟨0xd000010, 7, 0⟩
def PWR_CAP_CAP_W : Fld := ⟨0xd000018, 63, 48⟩
def PWR_CAP_LOW_W : Fld := ⟨0xd000018, 47, 32⟩
def PWR_CAP_LOWER_MS : Fld := ⟨0xd000018, 31, 16⟩
def PWR_LAST_OFF_CAUSE : Fld := ⟨0xd000020, 63, 56⟩
def PWR_LAST_OFF_SOURCE : Fld := ⟨0xd000020, 55, 48⟩
def PWR_LAST_OFF_POWER_ONS : Fld := ⟨0xd000020, 31, 0⟩
def PWR_TEMP_MAX (n : Nat) : Fld := ⟨0xd000100 + n * 0x8, 31, 16⟩
def PWR_TEMP_NOW (n : Nat) : Fld := ⟨0xd000100 + n * 0x8, 15, 0⟩
def PWR_METER_COPY_ENERGY : Fld := ⟨0xd000200, 63, 0⟩
def PWR_METER_INFO_CHECKSUM : Fld := ⟨0xd000208, 63, 32⟩
def PWR_METER_INFO_SERIAL : Fld := ⟨0xd000208, 31, 0⟩

/-! Block RAS. -/

def RAS_SUMMARY_TILE_ROOM : Fld := ⟨0xe000000, 63, 60⟩
def RAS_SUMMARY_HBM_ROOM : Fld := ⟨0xe000000, 59, 56⟩
def RAS_SUMMARY_CORE_SPARE : Fld := ⟨0xe000000, 55, 54⟩
def RAS_SUMMARY_FW_SPARE : Fld := ⟨0xe000000, 53, 52⟩
def RAS_SUMMARY_CTU_STANDBY : Fld := ⟨0xe000000, 51, 51⟩
def RAS_SUMMARY_CLK_STANDBY : Fld := ⟨0xe000000, 50, 50⟩
def RAS_SUMMARY_NFP_SPARE : Fld := ⟨0xe000000, 49, 46⟩
def RAS_SUMMARY_STR_SPARE : Fld := ⟨0xe000000, 45, 45⟩
def RAS_SUMMARY_TWN_SPARE : Fld := ⟨0xe000000, 44, 44⟩
def RAS_SUMMARY_NRW_OUT : Fld := ⟨0xe000000, 43, 40⟩
def RAS_SUMMARY_SHELF_SPARE_MIN : Fld := ⟨0xe000000, 39, 32⟩
def RAS_SUMMARY_WARN : Fld := ⟨0xe000000, 7, 7⟩
def RAS_SUMMARY_SVC_STATE : Fld := ⟨0xe000000, 1, 0⟩
def RAS_MAINT_CTRL_SAVED : Fld := ⟨0xe000008, 21, 16⟩
def RAS_MAINT_CTRL_STATUS : Fld := ⟨0xe000008, 15, 8⟩
def RAS_MAINT_CTRL_REQ : Fld := ⟨0xe000008, 0, 0⟩
def RAS_TEST_CMD_TARGET : Fld := ⟨0xe000100, 31, 16⟩
def RAS_TEST_CMD_OP : Fld := ⟨0xe000100, 11, 8⟩
def RAS_TEST_CMD_GO : Fld := ⟨0xe000100, 0, 0⟩
def RAS_TEST_RESULT_STATUS : Fld := ⟨0xe000108, 63, 56⟩
def RAS_TEST_RESULT_OP : Fld := ⟨0xe000108, 55, 52⟩
def RAS_TEST_RESULT_TARGET : Fld := ⟨0xe000108, 51, 36⟩
def RAS_TEST_RESULT_FAILED : Fld := ⟨0xe000108, 35, 20⟩
def RAS_TEST_RESULT_UNIT : Fld := ⟨0xe000108, 19, 16⟩
def RAS_TEST_RESULT_DONE : Fld := ⟨0xe000108, 0, 0⟩
def RAS_TILE_CNT_TESTED : Fld := ⟨0xe000110, 63, 32⟩
def RAS_TILE_CNT_FAILED : Fld := ⟨0xe000110, 31, 16⟩
def RAS_CORE_MAP_MAP (n k : Nat) : Fld := ⟨0xe000200 + n * 0x20 + k * 0x8, 63, 0⟩
def RAS_FW_MAP_MAP : Fld := ⟨0xe000240, 31, 0⟩
def RAS_PERSIST_GEN : Fld := ⟨0xe000300, 63, 32⟩
def RAS_PERSIST_ENTRIES : Fld := ⟨0xe000300, 31, 15⟩
def RAS_PERSIST_ONE_COPY : Fld := ⟨0xe000300, 2, 2⟩
def RAS_PERSIST_FULL : Fld := ⟨0xe000300, 1, 1⟩
def RAS_PERSIST_LOST : Fld := ⟨0xe000300, 0, 0⟩
def RAS_SHELF_RETIRED (n : Nat) : Fld := ⟨0xe001000 + n * 0x8, 63, 48⟩
def RAS_SHELF_SPARE (n : Nat) : Fld := ⟨0xe001000 + n * 0x8, 47, 32⟩
def RAS_SHELF_RELOCATED (n : Nat) : Fld := ⟨0xe001000 + n * 0x8, 31, 16⟩
def RAS_SHELF_PE_MAX (n : Nat) : Fld := ⟨0xe001000 + n * 0x8, 15, 0⟩

/-- The register maps of block GLB: GLB_SERIAL (Table 21.3), GLB_STATUS (Table 21.4), GLB_TIME (Table 21.5), GLB_BOOT_TIME (Table 21.6), GLB_RESET (Table 21.7). -/
def regMapsGLB : List RegMap := [
  ⟨0x0, [(0x8, 2)], [⟨63, 0, .ro, 0, true⟩]⟩,
  ⟨0x100, [], [⟨63, 63, .ro, 0, false⟩, ⟨62, 60, .ro, 0, false⟩, ⟨59, 56, .ro, 0, false⟩, ⟨55, 48, .ro, 0, false⟩, ⟨47, 40, .ro, 0xff, false⟩, ⟨15, 8, .ro, 0, true⟩, ⟨2, 2, .ro, 0, true⟩, ⟨1, 1, .w1c, 0, true⟩, ⟨0, 0, .w1c, 0, true⟩]⟩,
  ⟨0x200, [], [⟨63, 0, .ro, 0, true⟩]⟩,
  ⟨0x208, [], [⟨63, 32, .ro, 0, false⟩, ⟨31, 0, .ro, 0, false⟩]⟩,
  ⟨0x300, [], [⟨15, 8, .wo, 0, false⟩, ⟨1, 1, .wo, 0, false⟩, ⟨0, 0, .wo, 0, false⟩]⟩]

/-- The register maps of block FE: FE_STATUS (Table 12.12), FE_TICK (Table 12.13), FE_ADMIN_SQ (Table 12.14), FE_ADMIN_CQ (Table 12.14), FE_FUNC_CTRL (Table 12.15), FE_FUNC_TIMEOUT (Table 12.16), FE_FUNC_STATUS (Table 12.17), FE_FENCE_SIGVAL (Table 12.18), FE_FENCE_SIGNAL (Table 12.19), FE_FENCE (Table 12.20), FE_Q_STATE (Table 12.21), FE_Q_COUNT (Table 12.22). -/
def regMapsFE : List RegMap := [
  ⟨0x1000000, [], [⟨63, 63, .ro, 0, false⟩, ⟨62, 50, .ro, 0, false⟩, ⟨49, 39, .ro, 0, false⟩, ⟨38, 25, .ro, 0, false⟩, ⟨24, 8, .ro, 0, false⟩]⟩,
  ⟨0x1000010, [], [⟨63, 0, .ro, 0, true⟩]⟩,
  ⟨0x1000100, [], [⟨47, 12, .rw, 0, false⟩, ⟨8, 4, .rw, 6, false⟩, ⟨0, 0, .rw, 0, false⟩]⟩,
  ⟨0x1000108, [], [⟨47, 12, .rw, 0, false⟩, ⟨8, 4, .rw, 6, false⟩, ⟨0, 0, .rw, 0, false⟩]⟩,
  ⟨0x1000200, [], [⟨5, 0, .rw, 0x3f, false⟩]⟩,
  ⟨0x1000208, [(0x8, 6)], [⟨31, 0, .rw, 0x3e8, false⟩]⟩,
  ⟨0x1000240, [], [⟨11, 0, .ro, 0, false⟩]⟩,
  ⟨0x1000300, [], [⟨62, 0, .rw, 0, false⟩]⟩,
  ⟨0x1000308, [], [⟨31, 16, .wo, 0, false⟩, ⟨1, 1, .wo, 0, false⟩, ⟨0, 0, .wo, 0, false⟩]⟩,
  ⟨0x1100000, [(0x8, 65536)], [⟨63, 63, .ro, 0, false⟩, ⟨62, 0, .ro, 0, false⟩]⟩,
  ⟨0x1200000, [(0x10, 8192)], [⟨63, 61, .ro, 0, false⟩, ⟨60, 60, .ro, 0, false⟩, ⟨59, 58, .ro, 0, false⟩, ⟨57, 57, .ro, 0, false⟩, ⟨47, 32, .ro, 0, false⟩, ⟨19, 16, .ro, 0, false⟩, ⟨12, 0, .ro, 0, false⟩]⟩,
  ⟨0x1200008, [(0x10, 8192)], [⟨63, 32, .ro, 0, false⟩, ⟨31, 0, .ro, 0, false⟩]⟩]

/-- The register maps of block CTU: CTU_CTX (Table 11.9), CTU_STATUS (Table 11.10), CTU_INV_CMD (Table 11.11), CTU_INV_VA (Table 11.12), CTU_FQ_BASE (Table 11.13), CTU_NQ_BASE (Table 11.13), CTU_FQ_PTR (Table 11.14), CTU_NQ_PTR (Table 11.14), CTU_FQ_STATUS (Table 11.15), CTU_FAULT_CTRL (Table 11.16), CTU_FAULT_RESOLVE (Table 11.17), CTU_CNT_CTRL (Table 11.18), CTU_NQ_STATUS (Table 11.19). -/
def regMapsCTU : List RegMap := [
  ⟨0x2001000, [(0x8, 1024)], [⟨63, 48, .ro, 0, false⟩, ⟨47, 12, .ro, 0, false⟩, ⟨11, 10, .ro, 0, false⟩, ⟨0, 0, .ro, 0, false⟩]⟩,
  ⟨0x2000000, [], [⟨63, 63, .ro, 0, false⟩, ⟨62, 62, .ro, 0, false⟩, ⟨47, 32, .ro, 0, false⟩, ⟨22, 16, .ro, 0, false⟩, ⟨10, 0, .ro, 0, false⟩]⟩,
  ⟨0x2000100, [], [⟨63, 48, .rw, 0, false⟩, ⟨47, 32, .rw, 1, false⟩, ⟨31, 24, .ro, 0, false⟩, ⟨5, 4, .rw, 0, false⟩, ⟨3, 1, .rw, 0, false⟩, ⟨0, 0, .w1s, 0, false⟩]⟩,
  ⟨0x2000108, [], [⟨56, 0, .rw, 0, false⟩]⟩,
  ⟨0x2000200, [], [⟨47, 12, .rw, 0, false⟩, ⟨8, 4, .rw, 0xb, false⟩, ⟨0, 0, .rw, 0, false⟩]⟩,
  ⟨0x2000300, [], [⟨47, 12, .rw, 0, false⟩, ⟨8, 4, .rw, 8, false⟩, ⟨0, 0, .rw, 0, false⟩]⟩,
  ⟨0x2000208, [], [⟨47, 32, .rw, 0, false⟩, ⟨15, 0, .ro, 0, false⟩]⟩,
  ⟨0x2000308, [], [⟨47, 32, .rw, 0, false⟩, ⟨15, 0, .ro, 0, false⟩]⟩,
  ⟨0x2000210, [], [⟨63, 32, .ro, 0, false⟩, ⟨31, 16, .ro, 0, false⟩, ⟨11, 0, .ro, 0, false⟩]⟩,
  ⟨0x2000218, [], [⟨63, 48, .rw, 0x7d0, false⟩, ⟨47, 32, .rw, 0x100, false⟩]⟩,
  ⟨0x2000220, [], [⟨26, 16, .wo, 0, false⟩, ⟨1, 1, .wo, 0, false⟩, ⟨0, 0, .wo, 0, false⟩]⟩,
  ⟨0x2000310, [], [⟨63, 32, .rw, 0x1000, false⟩, ⟨31, 16, .rw, 0x64, false⟩]⟩,
  ⟨0x2000318, [], [⟨63, 32, .ro, 0, false⟩, ⟨31, 0, .ro, 0, false⟩]⟩]

/-- The register maps of block MEM: MEM_STATUS (Table 8.5), MEM_PRIO_CTRL (Table 8.6), MEM_CLASS_MAP (Table 8.7), MEM_SAT_CTRL (Table 8.8), MEM_RAS_CTRL (Table 8.9), MEM_ERR_LOG (Table 8.10), MEM_PC_CMD (Table 8.11), MEM_MARGIN_RESULT (Table 8.12), MEM_PC_STATE (Table 8.13). -/
def regMapsMEM : List RegMap := [
  ⟨0x3000000, [], [⟨51, 48, .ro, 0, false⟩, ⟨47, 44, .ro, 0, false⟩, ⟨31, 10, .ro, 0, false⟩, ⟨0, 0, .ro, 0, true⟩]⟩,
  ⟨0x3000100, [], [⟨63, 48, .rw, 0x800, false⟩, ⟨47, 40, .rw, 0x30, false⟩, ⟨39, 32, .rw, 0x10, false⟩, ⟨31, 28, .rw, 2, false⟩]⟩,
  ⟨0x3000108, [], [⟨23, 0, .rw, 0x554054, false⟩]⟩,
  ⟨0x3000110, [], [⟨63, 32, .rw, 0x10000, false⟩, ⟨31, 28, .rw, 0xc, false⟩, ⟨0, 0, .rw, 1, false⟩]⟩,
  ⟨0x3000200, [], [⟨63, 48, .rw, 0x400, false⟩, ⟨47, 40, .rw, 4, false⟩, ⟨39, 32, .rw, 0x18, false⟩, ⟨31, 16, .rw, 0x80, false⟩, ⟨15, 8, .rw, 8, false⟩, ⟨0, 0, .rw, 1, false⟩]⟩,
  ⟨0x3000208, [], [⟨63, 55, .ro, 0, false⟩, ⟨54, 49, .ro, 0, false⟩, ⟨48, 35, .ro, 0, false⟩, ⟨34, 30, .ro, 0, false⟩, ⟨29, 26, .ro, 0, false⟩, ⟨25, 24, .ro, 0, false⟩, ⟨0, 0, .w1c, 0, false⟩]⟩,
  ⟨0x3000300, [], [⟨31, 23, .rw, 0, false⟩, ⟨22, 20, .rw, 0, false⟩, ⟨19, 16, .rw, 0, false⟩, ⟨15, 15, .rw, 0, false⟩, ⟨0, 0, .w1s, 0, false⟩]⟩,
  ⟨0x3000308, [], [⟨63, 56, .ro, 0, false⟩, ⟨55, 47, .ro, 0, false⟩, ⟨46, 44, .ro, 0, false⟩, ⟨43, 40, .ro, 0, false⟩, ⟨39, 32, .ro, 0, false⟩, ⟨31, 24, .ro, 0, false⟩, ⟨0, 0, .w1c, 0, false⟩]⟩,
  ⟨0x3001000, [(0x8, 512)], [⟨63, 61, .ro, 0, true⟩, ⟨55, 40, .ro, 0, true⟩, ⟨39, 32, .ro, 0, true⟩, ⟨31, 24, .ro, 0, true⟩, ⟨23, 0, .ro, 0, false⟩]⟩]

/-- The register maps of block TIER: TIER_CTRL (Table 9.7), TIER_POOL_CTRL (Table 9.8), TIER_POOL_STATUS (Table 9.9), TIER_SHELF_STATUS (Table 9.10), TIER_ERR_CNT (Table 9.11), TIER_ERR_LOG (Table 9.12). -/
def regMapsTIER : List RegMap := [
  ⟨0x4000000, [], [⟨63, 32, .rw, 0x3e8, false⟩, ⟨0, 0, .rw, 1, false⟩]⟩,
  ⟨0x4000100, [], [⟨17, 0, .rw, 0, false⟩]⟩,
  ⟨0x4000108, [], [⟨63, 46, .ro, 0, false⟩, ⟨45, 28, .ro, 0, false⟩, ⟨27, 16, .ro, 0, false⟩, ⟨15, 0, .ro, 0, false⟩]⟩,
  ⟨0x4000200, [], [⟨63, 39, .ro, 0, false⟩, ⟨38, 22, .ro, 0, false⟩, ⟨21, 1, .ro, 0, false⟩, ⟨0, 0, .ro, 0, false⟩]⟩,
  ⟨0x4000208, [], [⟨63, 48, .ro, 0, false⟩, ⟨47, 32, .ro, 0, false⟩, ⟨31, 16, .ro, 0, false⟩, ⟨15, 0, .ro, 0, false⟩]⟩,
  ⟨0x4000300, [], [⟨63, 48, .ro, 0, false⟩, ⟨47, 23, .ro, 0, false⟩, ⟨22, 20, .ro, 0, false⟩, ⟨0, 0, .w1c, 0, false⟩]⟩]

/-- The register maps of block COH: COH_STATUS (Table 10.8), COH_CTRL (Table 10.9), COH_AGENT_CMD (Table 10.10), COH_WAYS (Table 10.11), COH_HINT_RANGE (Table 10.12), COH_HINT_STATUS (Table 10.13), COH_ERR_CNT (Table 10.14), COH_AGENT (Table 10.15). -/
def regMapsCOH : List RegMap := [
  ⟨0x5000000, [], [⟨63, 63, .ro, 0, false⟩, ⟨55, 48, .ro, 0, false⟩, ⟨47, 40, .ro, 0, false⟩, ⟨7, 0, .ro, 0, true⟩]⟩,
  ⟨0x5000008, [], [⟨63, 32, .rw, 0x2710, false⟩, ⟨0, 0, .rw, 1, false⟩]⟩,
  ⟨0x5000020, [], [⟨31, 24, .ro, 0, false⟩, ⟨15, 8, .rw, 0, false⟩, ⟨7, 5, .rw, 0, false⟩, ⟨0, 0, .w1s, 0, false⟩]⟩,
  ⟨0x5000100, [(0x8, 6)], [⟨13, 9, .rw, 0x18, false⟩, ⟨8, 8, .ro, 0, false⟩, ⟨4, 0, .ro, 0x18, false⟩]⟩,
  ⟨0x5000200, [(0x8, 8)], [⟨63, 46, .rw, 0, false⟩, ⟨45, 28, .rw, 0, false⟩, ⟨7, 0, .rw, 0, false⟩]⟩,
  ⟨0x5000300, [], [⟨63, 32, .ro, 0, false⟩, ⟨31, 0, .ro, 0, false⟩]⟩,
  ⟨0x5000308, [], [⟨63, 48, .ro, 0, false⟩, ⟨47, 32, .ro, 0, false⟩, ⟨31, 16, .ro, 0, false⟩, ⟨15, 0, .ro, 0, false⟩]⟩,
  ⟨0x5001000, [(0x8, 96)], [⟨63, 61, .ro, 0, true⟩, ⟨60, 60, .ro, 0, false⟩, ⟨47, 24, .ro, 0, false⟩, ⟨23, 0, .ro, 0, false⟩]⟩]

/-- The register maps of block REEF: REEF_SRAM_LIMIT (Table 3.3), REEF_TMAP (Table 3.6), REEF_PTS (Table 3.7), REEF_ROT_CTRL (Table 3.9), REEF_ROT_STATUS (Table 3.10), REEF_HANDOVER (Table 3.11), REEF_STATUS (Table 3.12), REEF_HO_STATUS (Table 3.13), REEF_LOCKSTEP (Table 4.2), REEF_SEQ_STATUS (Table 4.13), REEF_SEQ_FAULT (Table 4.14), REEF_TD_STATUS (Table 6.7), REEF_THR_FAULT (Table 6.8), REEF_DET_STATUS (Table 7.18). -/
def regMapsREEF : List RegMap := [
  ⟨0x6000108, [], [⟨7, 4, .rw, 0xe, false⟩, ⟨3, 0, .rw, 2, false⟩]⟩,
  ⟨0x6001000, [(0x8, 160)], [⟨63, 48, .ro, 0, true⟩, ⟨47, 32, .ro, 0, true⟩, ⟨31, 16, .ro, 0, true⟩, ⟨15, 0, .ro, 0, true⟩]⟩,
  ⟨0x6002000, [(0x40, 4), (0x8, 6)], [⟨63, 0, .ro, 0, true⟩]⟩,
  ⟨0x6000200, [], [⟨63, 32, .rw, 0x64, false⟩, ⟨8, 8, .w1s, 0, false⟩, ⟨0, 0, .rw, 1, false⟩]⟩,
  ⟨0x6000208, [], [⟨63, 40, .ro, 0, false⟩, ⟨39, 16, .ro, 0, false⟩, ⟨15, 0, .ro, 0, false⟩]⟩,
  ⟨0x6000300, [], [⟨63, 32, .rw, 0xf4240, false⟩, ⟨31, 0, .rw, 0xc350, false⟩]⟩,
  ⟨0x6000100, [], [⟨63, 48, .ro, 0, false⟩, ⟨39, 36, .ro, 0, false⟩, ⟨35, 35, .ro, 0, false⟩, ⟨34, 32, .ro, 0, false⟩, ⟨25, 24, .ro, 0, false⟩, ⟨15, 12, .ro, 0, false⟩, ⟨11, 8, .ro, 0, false⟩, ⟨7, 4, .ro, 0, false⟩, ⟨3, 0, .ro, 0, false⟩]⟩,
  ⟨0x6000308, [], [⟨63, 32, .ro, 0, false⟩, ⟨31, 0, .ro, 0, false⟩]⟩,
  ⟨0x6000410, [], [⟨63, 32, .ro, 0, true⟩, ⟨19, 16, .ro, 0, true⟩, ⟨15, 0, .rw, 0x3e8, false⟩]⟩,
  ⟨0x6000400, [], [⟨47, 32, .ro, 0, false⟩, ⟨15, 12, .ro, 0xf, false⟩, ⟨6, 4, .ro, 0, false⟩, ⟨2, 0, .ro, 0, false⟩]⟩,
  ⟨0x6000408, [], [⟨63, 48, .ro, 0, false⟩, ⟨47, 40, .ro, 0, false⟩, ⟨39, 32, .ro, 0, false⟩, ⟨0, 0, .w1c, 0, false⟩]⟩,
  ⟨0x6000500, [(0x8, 4)], [⟨50, 38, .ro, 0, false⟩, ⟨37, 25, .ro, 0, false⟩, ⟨20, 16, .ro, 0, false⟩]⟩,
  ⟨0x6000520, [], [⟨63, 40, .ro, 0, false⟩, ⟨39, 30, .ro, 0, false⟩, ⟨29, 25, .ro, 0, false⟩, ⟨24, 20, .ro, 0, false⟩, ⟨19, 12, .ro, 0, false⟩, ⟨11, 4, .ro, 0, false⟩, ⟨0, 0, .w1c, 0, false⟩]⟩,
  ⟨0x6000600, [], [⟨63, 32, .ro, 0, false⟩, ⟨31, 16, .ro, 0, false⟩]⟩]

/-- The register maps of block NFP: NFP_DOM_CTRL (Table 7.9), NFP_DOM_START (Table 7.10), NFP_DOM_STATUS (Table 7.11), NFP_DOM_TICK (Table 7.12), NFP_DOM_SYNC (Table 7.13), NFP_PTP_CTRL (Table 7.14), NFP_SCHED_ADDR (Table 7.15), NFP_SCHED_SWITCH (Table 7.16), NFP_SCHED_STATUS (Table 7.17), NFP_PORT_CTRL (Table 13.8), NFP_PORT_STATUS (Table 13.9), NFP_CTRL (Table 13.10), NFP_STORE (Table 13.11), NFP_JOB_W0 (Table 13.12), NFP_JOB_W1 (Table 13.12), NFP_JOB_SQ (Table 13.13), NFP_WIN_W0 (Table 13.14), NFP_WIN_W1 (Table 13.14), NFP_WIN_RANGE (Table 13.15), NFP_DROP_CNT (Table 13.16), NFP_DROP_LOG (Table 13.17), NFP_ETH_MAC (Table 13.18), NFP_ETH_PEER (Table 13.18), NFP_COLL_STATUS (Table 13.19). -/
def regMapsNFP : List RegMap := [
  ⟨0x7008000, [], [⟨63, 48, .rw, 0x618, false⟩, ⟨46, 32, .rw, 0, false⟩, ⟨31, 22, .rw, 1, false⟩, ⟨21, 13, .rw, 0, false⟩, ⟨12, 4, .rw, 0, false⟩, ⟨3, 1, .rw, 3, false⟩, ⟨0, 0, .rw, 0, false⟩]⟩,
  ⟨0x7008008, [], [⟨63, 0, .rw, 0, false⟩]⟩,
  ⟨0x7008010, [], [⟨63, 48, .ro, 0, false⟩, ⟨39, 36, .ro, 8, false⟩, ⟨35, 32, .ro, 8, false⟩, ⟨23, 16, .ro, 0, false⟩, ⟨3, 3, .ro, 0, false⟩, ⟨2, 0, .ro, 0, false⟩]⟩,
  ⟨0x7008018, [], [⟨63, 0, .ro, 0, false⟩]⟩,
  ⟨0x7008020, [], [⟨63, 32, .ro, 0, false⟩, ⟨31, 0, .ro, 0, false⟩]⟩,
  ⟨0x7008028, [], [⟨15, 8, .rw, 0xff, false⟩, ⟨7, 7, .rw, 0, false⟩, ⟨6, 0, .rw, 0, false⟩]⟩,
  ⟨0x7008030, [], [⟨47, 14, .rw, 0, false⟩, ⟨0, 0, .w1s, 0, false⟩]⟩,
  ⟨0x7008038, [], [⟨63, 0, .rw, 0xffffffffffffffff, false⟩]⟩,
  ⟨0x7008040, [], [⟨63, 32, .ro, 0, false⟩, ⟨26, 16, .ro, 0, false⟩, ⟨15, 8, .ro, 0, false⟩, ⟨2, 2, .w1c, 0, false⟩, ⟨1, 1, .ro, 0, false⟩, ⟨0, 0, .ro, 0, false⟩]⟩,
  ⟨0x7000000, [(0x8, 8)], [⟨3, 3, .rw, 1, false⟩, ⟨2, 2, .rw, 0, false⟩, ⟨1, 1, .rw, 0, false⟩, ⟨0, 0, .rw, 0, false⟩]⟩,
  ⟨0x7000040, [(0x8, 8)], [⟨63, 48, .ro, 0, false⟩, ⟨47, 32, .ro, 0, false⟩, ⟨15, 12, .ro, 0, false⟩, ⟨11, 11, .ro, 0, false⟩, ⟨10, 8, .ro, 0, false⟩, ⟨2, 0, .ro, 0, false⟩]⟩,
  ⟨0x7000100, [], [⟨63, 48, .rw, 0x88b5, false⟩, ⟨47, 32, .rw, 0xc8, false⟩, ⟨31, 30, .rw, 3, false⟩, ⟨29, 24, .rw, 0x3f, false⟩]⟩,
  ⟨0x7000108, [], [⟨46, 32, .rw, 0, false⟩, ⟨15, 0, .rw, 0, false⟩]⟩,
  ⟨0x7000200, [(0x10, 16)], [⟨63, 32, .rw, 0, false⟩, ⟨31, 16, .rw, 0, false⟩, ⟨15, 15, .rw, 0, false⟩, ⟨14, 0, .rw, 0, false⟩]⟩,
  ⟨0x7000208, [(0x10, 16)], [⟨63, 0, .rw, 0, false⟩]⟩,
  ⟨0x7000300, [], [⟨63, 0, .rw, 0, false⟩]⟩,
  ⟨0x7010000, [(0x10, 4096)], [⟨63, 32, .rw, 0, false⟩, ⟨15, 8, .rw, 0, false⟩, ⟨4, 4, .rw, 0, false⟩, ⟨3, 3, .rw, 0, false⟩, ⟨2, 2, .rw, 0, false⟩, ⟨1, 1, .ro, 0, false⟩, ⟨0, 0, .rw, 0, false⟩]⟩,
  ⟨0x7010008, [(0x10, 4096)], [⟨63, 0, .rw, 0, false⟩]⟩,
  ⟨0x7020000, [(0x8, 256)], [⟨63, 46, .rw, 0, false⟩, ⟨45, 28, .rw, 0, false⟩]⟩,
  ⟨0x7000400, [], [⟨63, 56, .rc, 0, false⟩, ⟨55, 48, .rc, 0, false⟩, ⟨47, 40, .rc, 0, false⟩, ⟨39, 32, .rc, 0, false⟩, ⟨31, 24, .rc, 0, false⟩, ⟨23, 16, .rc, 0, false⟩, ⟨15, 8, .rc, 0, false⟩]⟩,
  ⟨0x7000408, [], [⟨63, 32, .ro, 0, false⟩, ⟨31, 17, .ro, 0, false⟩, ⟨16, 4, .ro, 0, false⟩, ⟨3, 1, .ro, 0, false⟩, ⟨0, 0, .w1c, 0, false⟩]⟩,
  ⟨0x7000500, [(0x10, 8)], [⟨47, 0, .rw, 0, false⟩]⟩,
  ⟨0x7000508, [(0x10, 8)], [⟨47, 0, .rw, 0, false⟩]⟩,
  ⟨0x7000600, [], [⟨63, 32, .ro, 0, false⟩, ⟨31, 16, .ro, 0, false⟩, ⟨6, 0, .ro, 0, false⟩]⟩]

/-- The register maps of block STR: STR_LINK_STATUS (Table 14.7), STR_CTRL (Table 14.8), STR_HWIN (Table 14.9), STR_DMA_RING (Table 14.10), STR_DMA_PTR (Table 14.11). -/
def regMapsSTR : List RegMap := [
  ⟨0x8000000, [], [⟨63, 48, .ro, 0, false⟩, ⟨47, 32, .ro, 0, false⟩, ⟨15, 12, .ro, 0, false⟩, ⟨11, 11, .ro, 0, false⟩, ⟨2, 0, .ro, 0, false⟩]⟩,
  ⟨0x8000008, [], [⟨63, 48, .rw, 0x32, false⟩, ⟨47, 32, .rw, 0, false⟩]⟩,
  ⟨0x8000100, [(0x8, 16)], [⟨63, 40, .rw, 0, false⟩, ⟨0, 0, .rw, 0, false⟩]⟩,
  ⟨0x8000200, [(0x10, 8)], [⟨47, 12, .rw, 0, false⟩, ⟨10, 0, .rw, 0, false⟩]⟩,
  ⟨0x8000208, [(0x10, 8)], [⟨63, 48, .ro, 0, false⟩, ⟨47, 32, .rw, 0, false⟩, ⟨7, 4, .rw, 8, false⟩, ⟨3, 2, .ro, 0, false⟩, ⟨0, 0, .rw, 0, false⟩]⟩]

/-- The register maps of block NRW: NRW_DISC_STATUS (Table 15.9), NRW_CTRL (Table 15.10), NRW_DIE (Table 15.11), NRW_LINK (Table 15.12), NRW_CLK_STATUS (Table 15.13), NRW_DIE_CMD (Table 15.14). -/
def regMapsNRW : List RegMap := [
  ⟨0x9000000, [], [⟨55, 48, .ro, 0, false⟩, ⟨47, 40, .ro, 0, false⟩, ⟨39, 32, .ro, 0, false⟩, ⟨31, 24, .ro, 0xff, false⟩, ⟨2, 0, .ro, 0, false⟩]⟩,
  ⟨0x9000008, [], [⟨0, 0, .rw, 0, false⟩]⟩,
  ⟨0x9000100, [(0x8, 6)], [⟨63, 56, .ro, 0, false⟩, ⟨55, 48, .ro, 0, false⟩, ⟨47, 40, .ro, 0, false⟩, ⟨39, 36, .ro, 0, false⟩, ⟨35, 32, .ro, 0, false⟩, ⟨31, 16, .ro, 0, true⟩]⟩,
  ⟨0x9000200, [(0x8, 9)], [⟨63, 48, .ro, 0, false⟩, ⟨47, 32, .ro, 0, false⟩, ⟨15, 4, .ro, 0, false⟩, ⟨2, 0, .ro, 0, false⟩]⟩,
  ⟨0x9000300, [], [⟨63, 63, .ro, 0, false⟩, ⟨62, 62, .ro, 0, false⟩, ⟨61, 61, .ro, 0, false⟩, ⟨47, 32, .ro, 0, false⟩]⟩,
  ⟨0x9000400, [], [⟨31, 24, .ro, 0, false⟩, ⟨18, 16, .rw, 0, false⟩, ⟨7, 5, .rw, 0, false⟩, ⟨0, 0, .w1s, 0, false⟩]⟩]

/-- The register maps of block TWN: TWN_CTRL (Table 16.7), TWN_STATUS (Table 16.8), TWN_LINK_STATUS (Table 16.9), TWN_CMD (Table 16.10), TWN_TALLY (Table 16.11), TWN_DIGEST (Table 16.12), TWN_PDIGEST (Table 16.12), TWN_SET_W0 (Table 16.13), TWN_SET_W1 (Table 16.13). -/
def regMapsTWN : List RegMap := [
  ⟨0xa000000, [], [⟨63, 48, .rw, 0x64, false⟩, ⟨47, 32, .rw, 0x100, false⟩, ⟨31, 16, .rw, 0x2710, false⟩, ⟨1, 1, .rw, 0, false⟩, ⟨0, 0, .rw, 0, false⟩]⟩,
  ⟨0xa000008, [], [⟨63, 48, .ro, 0, false⟩, ⟨39, 32, .ro, 0, false⟩, ⟨4, 4, .ro, 0, false⟩, ⟨3, 0, .ro, 0, false⟩]⟩,
  ⟨0xa000010, [], [⟨63, 48, .ro, 0, false⟩, ⟨47, 32, .ro, 0, false⟩, ⟨15, 12, .ro, 0, false⟩, ⟨11, 11, .ro, 0, false⟩, ⟨2, 0, .ro, 0, false⟩]⟩,
  ⟨0xa000018, [], [⟨31, 24, .ro, 0, false⟩, ⟨7, 4, .rw, 0, false⟩, ⟨0, 0, .w1s, 0, false⟩]⟩,
  ⟨0xa000020, [], [⟨63, 32, .ro, 0, false⟩, ⟨31, 0, .ro, 0, false⟩]⟩,
  ⟨0xa000040, [(0x8, 4)], [⟨63, 0, .ro, 0, false⟩]⟩,
  ⟨0xa000060, [(0x8, 4)], [⟨63, 0, .ro, 0, false⟩]⟩,
  ⟨0xa001000, [(0x10, 64)], [⟨56, 0, .rw, 0, false⟩]⟩,
  ⟨0xa001008, [(0x10, 64)], [⟨39, 0, .rw, 0, false⟩]⟩]

/-- The register maps of block TDM: TDM_SEQ (Table 18.5), TDM_STATUS (Table 18.6), TDM_ACK (Table 18.7), TDM_OPEN (Table 18.8), TDM_DUMP (Table 18.9), TDM_DUMP_LEN (Table 18.10), TDM_SNAPSEL (Table 18.11). -/
def regMapsTDM : List RegMap := [
  ⟨0xb000000, [], [⟨63, 0, .ro, 0, true⟩]⟩,
  ⟨0xb000008, [], [⟨63, 32, .ro, 0, false⟩, ⟨31, 12, .ro, 0, true⟩, ⟨11, 2, .ro, 0, true⟩, ⟨1, 1, .ro, 0, false⟩, ⟨0, 0, .ro, 0, false⟩]⟩,
  ⟨0xb000010, [], [⟨63, 63, .wo, 0, false⟩, ⟨62, 0, .wo, 0, false⟩]⟩,
  ⟨0xb000018, [], [⟨15, 8, .ro, 0, false⟩, ⟨1, 1, .rw, 0, false⟩, ⟨0, 0, .rw, 0, false⟩]⟩,
  ⟨0xb000100, [], [⟨63, 61, .ro, 0, true⟩, ⟨60, 60, .ro, 0, true⟩, ⟨59, 59, .ro, 0, true⟩, ⟨0, 0, .w1c, 0, true⟩]⟩,
  ⟨0xb000108, [], [⟨30, 0, .ro, 0, true⟩]⟩,
  ⟨0xb001000, [(0x80, 16), (0x8, 10)], [⟨63, 63, .rw, 0, false⟩, ⟨62, 62, .rw, 0, false⟩, ⟨47, 32, .rw, 0, false⟩, ⟨27, 24, .rw, 0, false⟩, ⟨23, 0, .rw, 0, false⟩]⟩]

/-- The register maps of block SEC: SEC_LC_STATE (Table 19.6), SEC_CMD (Table 19.7), SEC_CMD_ADDR (Table 19.8), SEC_CHALLENGE (Table 19.9), SEC_PATCH_STATUS (Table 19.10), SEC_ENTROPY (Table 19.11), SEC_MR (Table 19.12), SEC_ID_WIN (Table 19.13). -/
def regMapsSEC : List RegMap := [
  ⟨0xc000000, [], [⟨13, 8, .ro, 0, false⟩, ⟨7, 7, .ro, 0, false⟩, ⟨6, 4, .ro, 0, false⟩, ⟨2, 0, .ro, 0, false⟩]⟩,
  ⟨0xc000008, [], [⟨63, 56, .ro, 0, false⟩, ⟨31, 16, .rw, 0, false⟩, ⟨11, 8, .rw, 0, false⟩, ⟨0, 0, .w1s, 0, false⟩]⟩,
  ⟨0xc000010, [], [⟨47, 0, .rw, 0, false⟩]⟩,
  ⟨0xc000018, [], [⟨63, 0, .ro, 0, false⟩]⟩,
  ⟨0xc000100, [], [⟨63, 32, .ro, 0, false⟩, ⟨31, 24, .ro, 0, false⟩, ⟨11, 8, .ro, 0, false⟩, ⟨1, 1, .ro, 0, false⟩, ⟨0, 0, .ro, 0, false⟩]⟩,
  ⟨0xc000108, [], [⟨63, 48, .ro, 0, false⟩, ⟨47, 32, .ro, 0, false⟩, ⟨1, 1, .ro, 0, false⟩, ⟨0, 0, .ro, 0, false⟩]⟩,
  ⟨0xc000400, [(0x20, 16), (0x8, 4)], [⟨63, 0, .ro, 0, false⟩]⟩,
  ⟨0xc001000, [(0x8, 1024)], [⟨63, 0, .ro, 0, false⟩]⟩]

/-- The register maps of block PWR: PWR_STATUS (Table 20.7), PWR_INPUT (Table 20.8), PWR_THROTTLE (Table 20.9), PWR_CAP (Table 20.10), PWR_LAST_OFF (Table 20.11), PWR_TEMP (Table 20.12), PWR_METER_COPY (Table 20.13), PWR_METER_INFO (Table 20.14). -/
def regMapsPWR : List RegMap := [
  ⟨0xd000000, [], [⟨3, 3, .ro, 0, true⟩, ⟨2, 2, .ro, 0, false⟩, ⟨1, 1, .ro, 0, false⟩, ⟨0, 0, .ro, 0, false⟩]⟩,
  ⟨0xd000008, [], [⟨63, 48, .ro, 0, false⟩, ⟨47, 32, .ro, 0, false⟩, ⟨31, 16, .ro, 0, false⟩, ⟨15, 0, .ro, 0, false⟩]⟩,
  ⟨0xd000010, [], [⟨63, 32, .ro, 0, true⟩, ⟨27, 24, .ro, 8, false⟩, ⟨23, 20, .ro, 8, false⟩, ⟨19, 19, .ro, 0, false⟩, ⟨7, 0, .ro, 0, false⟩]⟩,
  ⟨0xd000018, [], [⟨63, 48, .rw, 0xd48, false⟩, ⟨47, 32, .rw, 0xc1c, false⟩, ⟨31, 16, .rw, 0x64, false⟩]⟩,
  ⟨0xd000020, [], [⟨63, 56, .ro, 0, true⟩, ⟨55, 48, .ro, 0, true⟩, ⟨31, 0, .ro, 0, true⟩]⟩,
  ⟨0xd000100, [(0x8, 24)], [⟨31, 16, .ro, 0, true⟩, ⟨15, 0, .ro, 0, false⟩]⟩,
  ⟨0xd000200, [], [⟨63, 0, .ro, 0, false⟩]⟩,
  ⟨0xd000208, [], [⟨63, 32, .ro, 0, false⟩, ⟨31, 0, .ro, 0, false⟩]⟩]

/-- The register maps of block RAS: RAS_SUMMARY (Table 17.6), RAS_MAINT_CTRL (Table 17.7), RAS_TEST_CMD (Table 17.8), RAS_TEST_RESULT (Table 17.9), RAS_TILE_CNT (Table 17.10), RAS_CORE_MAP (Table 17.11), RAS_FW_MAP (Table 17.12), RAS_PERSIST (Table 17.13), RAS_SHELF (Table 17.14). -/
def regMapsRAS : List RegMap := [
  ⟨0xe000000, [], [⟨63, 60, .ro, 0, false⟩, ⟨59, 56, .ro, 0, false⟩, ⟨55, 54, .ro, 0, false⟩, ⟨53, 52, .ro, 0, false⟩, ⟨51, 51, .ro, 0, false⟩, ⟨50, 50, .ro, 0, false⟩, ⟨49, 46, .ro, 0, false⟩, ⟨45, 45, .ro, 0, false⟩, ⟨44, 44, .ro, 0, false⟩, ⟨43, 40, .ro, 0, false⟩, ⟨39, 32, .ro, 0, false⟩, ⟨7, 7, .w1c, 0, false⟩, ⟨1, 0, .ro, 0, false⟩]⟩,
  ⟨0xe000008, [], [⟨21, 16, .ro, 0, false⟩, ⟨15, 8, .ro, 0, false⟩, ⟨0, 0, .rw, 0, false⟩]⟩,
  ⟨0xe000100, [], [⟨31, 16, .rw, 0, false⟩, ⟨11, 8, .rw, 0, false⟩, ⟨0, 0, .w1s, 0, false⟩]⟩,
  ⟨0xe000108, [], [⟨63, 56, .ro, 0, false⟩, ⟨55, 52, .ro, 0, false⟩, ⟨51, 36, .ro, 0, false⟩, ⟨35, 20, .ro, 0, false⟩, ⟨19, 16, .ro, 0, false⟩, ⟨0, 0, .w1c, 0, false⟩]⟩,
  ⟨0xe000110, [], [⟨63, 32, .ro, 0, true⟩, ⟨31, 16, .ro, 0, true⟩]⟩,
  ⟨0xe000200, [(0x20, 2), (0x8, 4)], [⟨63, 0, .ro, 0, true⟩]⟩,
  ⟨0xe000240, [], [⟨31, 0, .ro, 0, true⟩]⟩,
  ⟨0xe000300, [], [⟨63, 32, .ro, 0, false⟩, ⟨31, 15, .ro, 0, false⟩, ⟨2, 2, .ro, 0, false⟩, ⟨1, 1, .ro, 0, false⟩, ⟨0, 0, .ro, 0, false⟩]⟩,
  ⟨0xe001000, [(0x8, 16)], [⟨63, 48, .ro, 0, false⟩, ⟨47, 32, .ro, 0, false⟩, ⟨31, 16, .ro, 0, false⟩, ⟨15, 0, .ro, 0, false⟩]⟩]

/-- The register maps of the block of a number (Table 0.5's order, R16). -/
def regMapsOf : Nat → List RegMap
  | 0 => regMapsGLB
  | 1 => regMapsFE
  | 2 => regMapsCTU
  | 3 => regMapsMEM
  | 4 => regMapsTIER
  | 5 => regMapsCOH
  | 6 => regMapsREEF
  | 7 => regMapsNFP
  | 8 => regMapsSTR
  | 9 => regMapsNRW
  | 10 => regMapsTWN
  | 11 => regMapsTDM
  | 12 => regMapsSEC
  | 13 => regMapsPWR
  | 14 => regMapsRAS
  | _ => []

end Sys2Proof.Machine
end

