-- ==== Sys2Proof/Machine/Ops.lean ====
section
/-! DEFINITION. The named operations that the meanings share: sparse tables, registers and their fields, events, memory, the host link, interrupts, translation, and the wrappers that turn an effect into an outcome. -/

namespace Sys2Proof.Machine

/-- The outcome of a command. -/
abbrev Out := Host.Outcome State Fault Refusal

/-! ### Sparse tables -/

/-- What key `k` reads as. -/
def sget {α : Type} (dflt : Nat → α) : Sparse α → Nat → α
  | [], k => dflt k
  | (j, v) :: r, k => if k = j then v else sget dflt r k

/-- The table with a key that it does not hold listed in its place. -/
def sinsert {α : Type} : Sparse α → Nat → α → Sparse α
  | [], k, v => [(k, v)]
  | (j, w) :: r, k, v => if k < j then (k, v) :: (j, w) :: r else (j, w) :: sinsert r k v

/-- The table with `v` at key `k`, in canonical form when it was. -/
def sput {α : Type} [DecidableEq α] (dflt : Nat → α) (t : Sparse α) (k : Nat) (v : α) : Sparse α :=
  let r := t.filter fun p => !(p.1 == k)
  if v = dflt k then r else sinsert r k v

/-- Every key of a table is above `b`, keys rise, and no value is the default of its key. -/
def swfAbove {α : Type} [DecidableEq α] (dflt : Nat → α) : Nat → Sparse α → Bool
  | _, [] => true
  | b, (j, v) :: r => decide (b ≤ j) && decide (v ≠ dflt j) && swfAbove dflt (j + 1) r

/-- The canonical form of a table. -/
def swf {α : Type} [DecidableEq α] (dflt : Nat → α) (t : Sparse α) : Bool := swfAbove dflt 0 t

/-- The table without the keys of a range. -/
def sclear {α : Type} (t : Sparse α) (lo hi : Nat) : Sparse α := t.filter fun p => !(lo ≤ p.1 && p.1 < hi)

/-! ### Lists -/

/-- The list with the elements that satisfy `p` changed. -/
def updWhere {α : Type} (p : α → Bool) (f : α → α) (l : List α) : List α :=
  l.map fun x => if p x then f x else x

/-- The list with element `i` replaced. -/
def putAt {α : Type} (l : List α) (i : Nat) (v : α) : List α := l.set i v

/-- The list with the entry of a key replaced or added at its end. -/
def putKey {β : Type} (l : List (Nat × β)) (k : Nat) (v : β) : List (Nat × β) :=
  if l.any (·.1 == k) then l.map fun p => if p.1 = k then (k, v) else p else l ++ [(k, v)]

/-- The value of a key, if any. -/
def getKey {β : Type} (l : List (Nat × β)) (k : Nat) : Option β := (l.find? (·.1 == k)).map (·.2)

/-! ### Words, bytes, bit fields -/

/-- Bits `[hi:lo]` of a word (R11). -/
def fieldOf (w : Word) (hi lo : Nat) : Nat := w.toNat / 2 ^ lo % 2 ^ (hi + 1 - lo)

/-- The word with bits `[hi:lo]` set to `v` modulo their width. -/
def withField (w : Word) (hi lo v : Nat) : Word :=
  BitVec.ofNat 64 (w.toNat % 2 ^ lo + v % 2 ^ (hi + 1 - lo) * 2 ^ lo + w.toNat / 2 ^ (hi + 1) * 2 ^ (hi + 1))

/-- The `n` little-endian bytes of a number. -/
def leBytes : Nat → Nat → List Byte
  | 0, _ => []
  | n + 1, v => BitVec.ofNat 8 v :: leBytes n (v / 256)

/-- The number of little-endian bytes. -/
def leNat : List Byte → Nat
  | [] => 0
  | b :: r => b.toNat + 256 * leNat r

/-- Byte `i` of a 64-byte line. -/
def lineByte (l : BitVec 512) (i : Nat) : Byte := l.extractLsb' (8 * i) 8

/-- A line of bytes. -/
def lineOf (bs : List Byte) : BitVec 512 := BitVec.ofNat 512 (leNat bs)

/-- The 64 bytes of a line. -/
def lineBytes (l : BitVec 512) : List Byte := leBytes 64 l.toNat

/-- Bytes `[off, off + n)` of a 128-byte entry as a number (Table 12.2). -/
def entF (e : BitVec 1024) (off n : Nat) : Nat := e.toNat / 2 ^ (8 * off) % 2 ^ (8 * n)

/-- The signed value of a number of `w` bits. -/
def sgn (w v : Nat) : Int :=
  let c := v % 2 ^ w
  if c < 2 ^ (w - 1) then (c : Int) else (c : Int) - 2 ^ w

/-- The code of a signed value in `w` bits. -/
def unsgn (w : Nat) (v : Int) : Nat := (v % (2 ^ w : Int)).toNat

/-- The code of a completion status (Table 12.10). -/
def statusCode : Status → Nat
  | .ok => 0 | .aborted => 1 | .fenceCycle => 2 | .fenceTimeout => 3 | .ringTorn => 4 | .handleInvalid => 5
  | .faultUnresolved => 6 | .rights => 7 | .tierDataError => 8 | .tierLate => 9 | .barrierOrphan => 10
  | .poisonConsumed => 11 | .resourceLost => 12 | .notPermitted => 13 | .busy => 14 | .targetReset => 15
  | .epochStale => 16 | .tallyMismatch => 17 | .pairingRefused => 18

/-! ### Registers (R11–R16) -/

/-- Whether an offset from a map's base names one of its registers. -/
def dimsHit : List (Nat × Nat) → Nat → Bool
  | [], r => r == 0
  | (st, n) :: ds, r => decide (r / st < n) && dimsHit ds (r % st)

/-- The map of the register at an offset from 0x7F00_0000_0000, if a map lists it (R13). -/
def regMapAt (off : Nat) : Option RegMap :=
  (regMapsOf (off / 2 ^ 24)).find? fun m => decide (m.base ≤ off) && dimsHit m.dims (off - m.base)

/-- The default snapshot slots of Table 18.2, class by class: VALID, IDX, STRIDE, BLOCK and OFFSET of TDM_SNAPSEL. -/
def snapDefault (c : Nat) : List (Nat × Nat × Nat × Nat) :=
  match c with
  | 1 => [(0, 0, 6, 0x400), (0, 0, 6, 0x408), (0, 0, 6, 0x410), (0, 0, 6, 0x100)]
  | 2 => [(0, 0, 6, 0x520), (0, 0, 6, 0x500), (0, 0, 6, 0x508), (0, 0, 6, 0x510), (0, 0, 6, 0x518)]
  | 3 => [(0, 0, 3, 0), (0, 0, 3, 0x208), (1, 8, 3, 0x1000)]
  | 4 => [(0, 0, 5, 0), (0, 0, 5, 0x308), (1, 8, 5, 0x1000)]
  | 5 => [(0, 0, 2, 0), (0, 0, 2, 0x210), (0, 0, 2, 0x208)]
  | 6 => [(0, 0, 4, 0x300), (0, 0, 4, 0x208), (0, 0, 4, 0x108), (0, 0, 4, 0x200)]
  | 7 => [(0, 0, 1, 0), (0, 0, 1, 0x240), (1, 16, 1, 0x200000), (1, 16, 1, 0x200008)]
  | 8 => [(1, 8, 7, 0x40), (0, 0, 7, 0x408), (0, 0, 7, 0x600)]
  | 9 => [(0, 0, 8, 0), (0, 0, 8, 8)]
  | 10 => [(0, 0, 9, 0), (0, 0, 9, 0x300), (1, 8, 9, 0x200), (1, 8, 9, 0x100)]
  | 11 => [(0, 0, 10, 8), (0, 0, 10, 0x10), (0, 0, 10, 0x20)]
  | 12 => [(0, 0, 14, 0), (0, 0, 14, 0x108), (0, 0, 14, 0x300)]
  | 13 => [(0, 0, 7, 0x8010), (0, 0, 7, 0x8020), (0, 0, 6, 0x600)]
  | 14 => [(0, 0, 13, 0), (0, 0, 13, 8), (0, 0, 13, 0x10)]
  | 15 => [(0, 0, 12, 0), (0, 0, 12, 8), (0, 0, 12, 0x100)]
  | _ => []

/-- The reset value of a register (R12): its map's, and the resets that differ by index (Tables 10.11, 18.11). -/
def regReset (off : Nat) : Word :=
  match regMapAt off with
  | none => 0
  | some m =>
    if m.base = 0x5000100 ∧ 0x5000120 ≤ off then BitVec.ofNat 64 (0x10 * 2 ^ 9 + 0x10)
    else if m.base = 0xb001000 then
      let r := off - m.base
      match (snapDefault (r / 0x80))[r % 0x80 / 8]? with
      | some (idx, stride, blk, o) => BitVec.ofNat 64 (2 ^ 63 + idx * 2 ^ 62 + stride * 2 ^ 32 + blk * 2 ^ 24 + o)
      | none => 0
    else m.fields.foldl (fun w f => withField w f.hi f.lo f.reset) 0

/-- The value a register holds. -/
def Dev.word (d : Dev) (off : Nat) : Word := sget regReset d.regs off

/-- The device with a register's value replaced. -/
def Dev.setWord (d : Dev) (off : Nat) (v : Word) : Dev := { d with regs := sput regReset d.regs off v }

/-- A field's value. -/
def Dev.rd (d : Dev) (f : Fld) : Nat := fieldOf (d.word f.reg) f.hi f.lo

/-- The device with a field set, modulo its width. -/
def Dev.wr (d : Dev) (f : Fld) (v : Nat) : Dev := d.setWord f.reg (withField (d.word f.reg) f.hi f.lo v)

/-- The largest value of a field. -/
def Fld.max (f : Fld) : Nat := 2 ^ (f.hi + 1 - f.lo) - 1

/-- The device with a counting field raised by `n`, saturating at the field's largest value. -/
def Dev.incBy (d : Dev) (f : Fld) (n : Nat) : Dev := d.wr f (min f.max (d.rd f + n))

/-- The device with a counting field raised by 1, saturating. -/
def Dev.inc (d : Dev) (f : Fld) : Dev := d.incBy f 1

/-- What a plain write gives one field (Table 0.4). -/
def writeField (old new : Word) (f : FieldMap) : Word :=
  let o := fieldOf old f.hi f.lo
  let v := fieldOf new f.hi f.lo
  match f.acc with
  | .ro | .rc | .wo => old
  | .rw => withField old f.hi f.lo v
  | .w1c => withField old f.hi f.lo (o - Nat.land o v)
  | .w1s => withField old f.hi f.lo (Nat.lor o v)

/-- What a plain write gives a register: each field by its access type, reserved bits 0 (Table 0.4, R13). -/
def writeWord (m : RegMap) (old new : Word) : Word := m.fields.foldl (fun w f => writeField w new f) old

/-- A plain write of a register that the maps list (Table 0.4). -/
def Dev.plainWrite (d : Dev) (off : Nat) (v : Word) : Dev :=
  match regMapAt off with
  | none => d
  | some m => d.setWord off (writeWord m (d.word off) v)

/-- What a read returns: WO fields and reserved bits read 0 (Table 0.4, R13). -/
def Dev.readReg (d : Dev) (off : Nat) : Word :=
  match regMapAt off with
  | none => 0
  | some m =>
    m.fields.foldl (fun w f => if f.acc = .wo then w else withField w f.hi f.lo (fieldOf (d.word off) f.hi f.lo)) 0

/-- The local physical address of the register blocks (Table 0.6). -/
def regBase : Nat := 0x7F0000000000

/-! ### Time and events -/

/-- The device time counter (R8). -/
def Dev.now (d : Dev) : Nat := d.rd GLB_TIME_TIME

/-- The ARITH tick counter of the completion stamps (R8). -/
def Dev.tick (d : Dev) : Nat := d.rd FE_TICK_TICK

/-- A report on its way to the Tidemark unit (R499): class, severity, event, SOURCE and the arguments. -/
def Dev.event (d : Dev) (cls sev ev src a0 a1 a2 : Nat) : Dev :=
  { d with tdm := { d.tdm with reports := d.tdm.reports ++ [⟨cls, sev, ev, src, a0, a1, a2⟩] } }

/-- A register write that the device discards (R577): the whole write, with one ACCESS INFO event 2. -/
def Dev.discard (d : Dev) (off : Nat) (v : Word) : Dev :=
  d.event 0 0 2 (off / 2 ^ 24) (regBase + off) v.toNat 0

/-- What a register write leads to, or the discard of the whole write where its rule gives none (R577). -/
def Dev.orDiscard (d : Dev) (off : Nat) (v : Word) (r : Option Dev) : Dev :=
  match r with
  | some d' => d'
  | none => d.discard off v

/-- A fresh free value: the model's counter advances and nothing constrains the word (DESIGN CHOICE, assumption 4). -/
def Dev.free (d : Dev) : Word × Dev := (Config.freeWord d.fresh, { d with fresh := d.fresh + 1 })

/-! ### The address map (R17–R19, R229) -/

/-- The 380 GiB available to allocation, reserve included (Table 0.6). -/
def allocTop : Nat := 0x005F00000000

/-- The pool's end (Table 0.6). -/
def poolTop : Nat := 0x006000000000

/-- The spill region and the dump area (R500, R509). -/
def spillBase : Nat := 0x005FBC000000
def dumpBase : Nat := 0x005FC0000000

/-- Whether a frame belongs to the retirement reserve: floor(i × 95 / 2), i from 0 to 4,095 (R229). -/
def reserveFrame (f : Nat) : Bool := decide (f ≤ 194512) && (f % 95 == 0 || f % 95 == 47)

/-- Whether a physical address lies in the pool. -/
def inPool (a : Nat) : Bool := decide (a < poolTop)

/-- Whether a range lies in HBM available to allocation outside reserve frames. -/
def inAlloc (a n : Nat) : Bool :=
  decide (a + n ≤ allocTop) && !(List.range ((a % 2 ^ 21 + n + 2 ^ 21 - 1) / 2 ^ 21)).any fun i => reserveFrame (a / 2 ^ 21 + i)

/-- Whether a range lies in the host and peer window (Table 0.6). -/
def inHost (a n : Nat) : Bool := decide (0x100000000000 ≤ a) && decide (a + n ≤ 0x200000000000)

/-- Whether a table or ring of `n` bytes may lie at an address: HBM available to allocation, or the host window. -/
def inMemory (a n : Nat) : Bool := inAlloc a n || inHost a n

/-- What a write of a ring's register comes to: the same ring, a ring that stops, one that starts, or other fields of one not in use; none when it is discarded (R576, R577, Tables 11.13, 12.14). -/
inductive RingWrite where
  | same | stop | start | plain
  deriving DecidableEq, Repr

/-- The write of a ring's register with its least LOG2 and the bytes of an entry. -/
def ringWrite (old v : Word) (lo bytes : Nat) : Option RingWrite :=
  let log := fieldOf v 8 4
  if log < lo ∨ 16 < log then none
  else if fieldOf old 0 0 = 1 ∧ fieldOf v 0 0 = 1 then
    if fieldOf old 47 12 = fieldOf v 47 12 ∧ fieldOf old 8 4 = log then some .same else none
  else if fieldOf old 0 0 = 1 then some .stop
  else if fieldOf v 0 0 = 1 then (if inMemory (fieldOf v 47 12 * 4096) (bytes * 2 ^ log) then some .start else none)
  else some .plain

/-- The pseudo-channel of a pool address (R227). -/
def placePc (a : Nat) : Nat :=
  let g := a / 256
  Nat.xor (Nat.xor g (g / 2 ^ 9)) (Nat.xor (g / 2 ^ 18) (g / 2 ^ 27)) % 512

/-- The byte offset of a pool address in its pseudo-channel (R227). -/
def placeOff (a : Nat) : Nat := a / 2 ^ 17 * 256 + a % 256

/-- The bank, row and burst of a pool address (R227). -/
def placeBank (a : Nat) : Nat := placeOff a / 1024 % 48
def placeRow (a : Nat) : Nat := placeOff a / 1024 / 48
def placeBurst (a : Nat) : Nat := placeOff a % 1024 / 32

/-- The accelerator die whose shared cache is the home of a pool address (R32). -/
def homeOf (a : Nat) : Nat := placePc a / 128

/-! ### Memory -/

/-- A byte of the pool as the memory holds it. (DESIGN CHOICE, assumption 6) -/
def Dev.memByte (d : Dev) (a : Nat) : Byte := sget (fun _ => 0) d.pool.hbm a

/-- Whether the memory gives a line poisoned: marked so, or on a pseudo-channel that can no longer be trained (R244, R250). -/
def Dev.memPoison (d : Dev) (a : Nat) : Bool := sget (fun _ => false) d.pool.poison (a / 64) || d.pool.lost.contains (placePc a)

/-- The canonical form of the memory. -/
abbrev Memory.wf (p : Pool) : Prop := swf (fun _ => (0 : Byte)) p.hbm = true ∧ swf (fun _ => false) p.poison = true

/-- The line that a tracked cache holds modified, if any. -/
def Dev.dirtyLine (d : Dev) (a : Nat) : Option CLine :=
  d.coh.lines.find? fun l => l.line == a / 64 && l.st == .m

/-- The byte that a coherent read of a pool address gives (Table 10.2). -/
def Dev.byteAt (d : Dev) (a : Nat) : Byte :=
  match d.dirtyLine a with
  | some l => lineByte l.data (a % 64)
  | none => d.memByte a

/-- Whether a coherent read of a pool address gives poisoned data. -/
def Dev.poisonAt (d : Dev) (a : Nat) : Bool :=
  match d.dirtyLine a with
  | some l => l.poisoned
  | none => d.memPoison a

/-- `n` bytes from a pool address. -/
def Dev.bytesAt (d : Dev) (a n : Nat) : List Byte := (List.range n).map fun i => d.byteAt (a + i)

/-- Whether a range of the pool holds poison. -/
def Dev.poisonIn (d : Dev) (a n : Nat) : Bool :=
  (List.range ((a % 64 + n + 63) / 64)).any fun i => d.poisonAt (a / 64 * 64 + 64 * i)

/-- A little-endian number of `n` bytes from a pool address. -/
def Dev.natAt (d : Dev) (a n : Nat) : Nat := leNat (d.bytesAt a n)

/-- Bytes written to the memory, one by one. -/
def hbmWrite (m : Sparse Byte) : Nat → List Byte → Sparse Byte
  | _, [] => m
  | a, b :: r => hbmWrite (sput (fun _ => 0) m a b) (a + 1) r

/-- A line's dirty copy written to memory and every tracked copy and reservation of it dropped, as a WR at the home does first (R294, Table 10.2). -/
def Dev.recall (d : Dev) (line : Nat) : Dev :=
  let p := match d.dirtyLine (line * 64) with
    | some l => { d.pool with hbm := hbmWrite d.pool.hbm (line * 64) (lineBytes l.data),
                              poison := sput (fun _ => false) d.pool.poison line l.poisoned }
    | none => d.pool
  let cs := updWhere (fun k => k.resv == some line) (fun (k : Core) => { k with resv := none }) d.cores.cores
  { d with pool := p, coh := { d.coh with lines := d.coh.lines.filter (·.line != line),
                                          dups := d.coh.dups.filter (·.line != line) },
           cores := { d.cores with cores := cs } }

/-- Every line of a range recalled. -/
def Dev.recallRange (d : Dev) (a n : Nat) : Dev :=
  (List.range ((a % 64 + n + 63) / 64)).foldl (fun d i => d.recall (a / 64 + i)) d

/-- The poison marks after a write of `n` bytes: a whole line takes the write's mark, a partly written one keeps or gains it (R244). -/
def poisonWrite (m : Sparse Bool) (a n : Nat) (bad : Bool) : Sparse Bool :=
  (List.range ((a % 64 + n + 63) / 64)).foldl (fun m i =>
    let l := a / 64 + i
    let whole := decide (a ≤ l * 64) && decide (l * 64 + 64 ≤ a + n)
    sput (fun _ => false) m l (bad || (!whole && sget (fun _ => false) m l))) m

/-- Bytes written at their homes (WR of Table 10.2), with a poison mark. -/
def Dev.putBytes (d : Dev) (a : Nat) (bs : List Byte) (bad : Bool := false) : Dev :=
  let d := d.recallRange a bs.length
  { d with pool := { d.pool with hbm := hbmWrite d.pool.hbm a bs,
                                 poison := poisonWrite d.pool.poison a bs.length bad } }

/-- A little-endian number of `n` bytes written. -/
def Dev.putNat (d : Dev) (a n v : Nat) : Dev := d.putBytes a (leBytes n v)

/-- A range of the pool filled with zeros as whole-line writes, poison cleared (R563). -/
def Dev.zeroFill (d : Dev) (lo hi : Nat) : Dev :=
  { d with pool := { d.pool with hbm := sclear d.pool.hbm lo hi, poison := sclear d.pool.poison (lo / 64) (hi / 64) } }

/-! ### Strait and interrupts (R411, R419, R424, R425) -/

/-- Whether Strait is UP or DEGRADED, or retrains, while what is sent waits in its retry buffer (R385, R409). -/
def Dev.straitUp (d : Dev) : Bool :=
  let s := d.rd STR_LINK_STATUS_STATE
  s == 2 || s == 3 || s == 4

/-- The PCIe address of a window address; none when its segment is not in use (R419). -/
def Dev.hostAddr (d : Dev) (a : Nat) : Option Nat :=
  let i := (a - 0x100000000000) / 2 ^ 40
  if d.rd (STR_HWIN_VALID i) = 1 then some (d.rd (STR_HWIN_BASE i) * 2 ^ 40 + a % 2 ^ 40) else none

/-- The message joins what the module has sent. -/
def Dev.send (d : Dev) (m : Msg) : Dev := { d with out := d.out ++ [m] }

/-- TWN_STATUS.STATE and the role in force: Table 16.1. -/
def Dev.twState (d : Dev) : Nat := d.rd TWN_STATUS_STATE
def Dev.isLeeward (d : Dev) : Bool := d.rd TWN_STATUS_ROLE == 1 && (d.twState == 2 || d.twState == 3 || d.twState == 4 || d.twState == 6)

/-- Whether the module sends nothing to the world: a leeward before a takeover, a FENCED module, and a windward that has sent FAILING (R463, R473, R478). -/
def Dev.mute (d : Dev) : Bool := d.isLeeward || d.twState == 8 || d.twn.sendStopped

/-- A write to the host window: sent, not sent by a mute module, or ended RIGHTS or RESOURCE_LOST (R411, R419, R421, R463). -/
def Dev.hostWrite (d : Dev) (a : Nat) (bs : List Byte) (pmask : BitVec 64) : Dev × Status :=
  match d.hostAddr a with
  | none => (d, .rights)
  | some p => if d.mute then (d, .ok) else if d.straitUp then (d.send (.straitWr p bs pmask), .ok) else (d, .resourceLost)

/-- A record written to a local physical address in HBM or the host window. -/
def Dev.putRecord (d : Dev) (a : Nat) (bs : List Byte) : Dev :=
  if inPool a then d.putBytes a bs else (d.hostWrite a bs 0).1

/-- An interrupt on a vector, held off under R425; it is lost while Strait is not UP (DESIGN CHOICE, assumption 9). -/
def Dev.putInt (d : Dev) (vec : Nat) : Dev :=
  if !d.straitUp then d
  else if d.rd STR_CTRL_HOLDOFF = 0 then d.send (.int vec)
  else if d.str.holdoff.any (·.1 == vec) then
    { d with str := { d.str with holdoff := putKey d.str.holdoff vec true } }
  else (d.send (.int vec)) |> fun d => { d with str := { d.str with holdoff := d.str.holdoff ++ [(vec, false)] } }

/-- An interrupt, which a mute module does not send (R463, R473, R478). -/
def Dev.raiseInt (d : Dev) (vec : Nat) : Dev := if d.mute then d else d.putInt vec

/-! ### Translation (R315–R322) -/

/-- What a translation gives: a physical address (bit 63 remote), an end with a status, or a wait on a fault or a tier miss. -/
inductive Xlate where
  | pa (a : Nat)
  | ended (st : Status)
  | waits
  deriving DecidableEq, Repr

/-- The context-table slot of a tag (R329). -/
def Dev.ctxSlot (d : Dev) (tag : Nat) : Option Nat :=
  (d.fe.contexts.find? (·.tag == tag)).map (·.slot)

/-- The right bit that an access needs in its leaf (Table 11.3). -/
def accBit : Access → Nat
  | .read => 1 | .write => 2 | .atomic => 3 | .image => 1

/-- Whether a leaf gives an access its right (R321). -/
def leafAllows (leaf : Word) (acc : Access) : Bool := leaf.getLsbD (accBit acc)

/-- Where a walk stands after it has read an entry (R318–R320, R333). -/
inductive WalkStep where
  | next (table : Nat)
  | leaf
  | notPresent | stream | malformed
  deriving DecidableEq, Repr

/-- What an entry at a level tells a walk (Table 11.2, R318). -/
def walkEntry (level : Nat) (e : Word) : WalkStep :=
  if fieldOf e 0 0 = 0 then (if fieldOf e 7 7 = 1 then .stream else .notPresent)
  else if fieldOf e 4 4 = 1 then
    if 3 ≤ level ∨ (level = 2 ∧ fieldOf e 29 12 ≠ 0) ∨ (level = 1 ∧ fieldOf e 20 12 ≠ 0)
        ∨ 5 ≤ fieldOf e 10 8 ∨ fieldOf e 7 7 = 1 ∨ fieldOf e 11 11 = 1
        ∨ (fieldOf e 62 48 ≠ 0 ∧ fieldOf e 63 63 = 0) then .malformed
    else .leaf
  else
    let t := fieldOf e 47 12 * 4096
    if level = 0 ∨ fieldOf e 63 48 ≠ 0 ∨ fieldOf e 11 5 ≠ 0 ∨ fieldOf e 3 1 ≠ 0 ∨ !inAlloc t 4096 then .malformed
    else .next t

/-- The bytes of virtual space under one entry of a level (Table 11.1). -/
def levelSpan (level : Nat) : Nat := 2 ^ (12 + 9 * level)

/-- The index of a virtual address at a level (Table 11.1). -/
def levelIndex (level : Nat) (va : Nat) : Nat := va / levelSpan level % 512

/-- The physical address that a leaf gives (R343). -/
def leafPa (leaf : Word) (level va : Nat) : Nat :=
  let off := va % levelSpan level
  let base := fieldOf leaf 47 12 * 4096
  (if fieldOf leaf 63 63 = 1 then 2 ^ 63 + fieldOf leaf 62 48 * 2 ^ 48 else 0) + (base / levelSpan level * levelSpan level + off)

/-- Whether the page of a local leaf may be used (R320). -/
def leafUsable (leaf : Word) : Bool :=
  fieldOf leaf 63 63 == 1 || (let a := fieldOf leaf 47 12 * 4096; decide (a < allocTop) || inHost a 4096)

/-- What a leaf gives an access (R320–R322). -/
def leafAnswer (leaf : Word) (level va : Nat) (acc : Access) : Xlate :=
  if !leafUsable leaf then .ended .rights
  else if leafAllows leaf acc then .pa (leafPa leaf level va)
  else if fieldOf leaf 5 5 = 1 then .waits else .ended .rights

/-- The walk of a virtual address from a table on, level by level (R316, R318, R580). -/
def Dev.walkFrom (d : Dev) (va : Nat) (acc : Access) : Nat → Nat → Xlate
  | 0, table =>
    let a := table + 8 * levelIndex 0 va
    if d.poisonAt a then .ended .poisonConsumed
    else
      let e := BitVec.ofNat 64 (d.natAt a 8)
      match walkEntry 0 e with
      | .leaf => leafAnswer e 0 va acc
      | _ => .waits
  | level + 1, table =>
    let a := table + 8 * levelIndex (level + 1) va
    if d.poisonAt a then .ended .poisonConsumed
    else
      let e := BitVec.ofNat 64 (d.natAt a 8)
      match walkEntry (level + 1) e with
      | .leaf => leafAnswer e (level + 1) va acc
      | .next t => d.walkFrom va acc level t
      | _ => .waits

/-- The home of a reserve frame refuses every access to it (R230). -/
def Xlate.atHome : Xlate → Xlate
  | .pa a => if inPool a && reserveFrame (a / 2 ^ 21) then .ended .rights else .pa a
  | x => x

/-- The translation that an engine's access gets: from an entry the CTU holds, else from the tables (R315–R322, R329). -/
def Dev.xlate (d : Dev) (tag va : Nat) (acc : Access) : Xlate := (answer).atHome
where
 /-- What the CTU answers. -/
 answer : Xlate :=
  if 2 ^ 57 ≤ va then .ended .rights
  else match d.ctxSlot tag with
    | none => .ended .rights
    | some slot =>
      match d.ctu.tlb.find? (fun t => t.tag == tag && decide (t.vpage ≤ va) && decide (va < t.vpage + t.span)) with
      | some t => leafAnswer (t.leaf + BitVec.ofNat 64 ((va - t.vpage) / levelSpan t.level * levelSpan t.level)) t.level va acc
      | none => d.walkFrom va acc 4 (d.rd (CTU_CTX_ROOT slot) * 4096)

/-- The bytes of a virtual range in HBM and whether any is poisoned; the first page that does not translate to HBM decides otherwise. -/
def Dev.vread (d : Dev) (tag : Nat) (acc : Access) : Nat → Nat → Except Xlate (List (Byte × Bool))
  | _, 0 => .ok []
  | va, n + 1 =>
    match d.xlate tag va acc with
    | .pa a =>
      if inPool a then
        match d.vread tag acc (va + 1) n with
        | .ok r => .ok ((d.byteAt a, d.poisonAt a) :: r)
        | .error e => .error e
      else .error (.pa a)
    | x => .error x

/-- Bytes written to a virtual range in HBM; the first page that does not translate to HBM decides otherwise. -/
def Dev.vwrite (d : Dev) (tag : Nat) : Nat → List (Byte × Bool) → Except Xlate Dev
  | _, [] => .ok d
  | va, (b, bad) :: r =>
    match d.xlate tag va .write with
    | .pa a => if inPool a then (d.putBytes a [b] bad).vwrite tag (va + 1) r else .error (.pa a)
    | x => .error x

/-! ### Outcomes -/

/-- Whether the module acts at all: its rails are up and its clocks run (R448, R544). -/
def Dev.live (d : Dev) : Bool := d.pw.on && d.nrw.clocksRun

/-- An effect on the module as a command's outcome; a module without power or clocks does nothing (DESIGN CHOICE, assumption 3). -/
def act (f : Dev → Dev) (s : State) : Out :=
  .next (if s.dev.live then { s with dev := f s.dev } else s)

/-- Whether the coherent domain is down or the fatal sequence has begun: every engine has stopped (Table 10.7, R454). -/
def Dev.down (d : Dev) : Bool := d.rd COH_STATUS_FATAL == 1 || d.ras.fatal

/-- An effect of an engine or agent: none once the coherent domain is down (R314). -/
def run (f : Dev → Dev) (s : State) : Out :=
  .next (if s.dev.live && !s.dev.down then { s with dev := f s.dev } else s)

/-- An effect that a pin or the world has on the module whether or not its clocks run. -/
def pin (f : Dev → Dev) (s : State) : Out := .next { s with dev := f s.dev }

/-- Whether discovery has stopped, so that only GLB, NRW, SEC and TDM answer (R445). -/
def Dev.discStopped (d : Dev) : Bool := let s := d.rd NRW_DISC_STATUS_STATE; s == 4 || s == 5
def blockOpen (blk : Nat) : Bool := [0, 9, 11, 12].contains blk

/-- Whether a register write takes effect, and what the device is where it does not: closed in END (TDM_OPEN refuses with a status of its own), ignored by the blocks that do not answer after a stopped discovery, discarded before READY unless the register is open early (R445, R519, R571). (DEDUCED, assumption 10) -/
def Dev.regGate (d : Dev) (off : Nat) (v : Word) (early : Bool := false) : Option Dev :=
  if d.rd SEC_LC_STATE_STATE = 5 ∧ off ≠ TDM_OPEN_DUMP.reg then some (d.event 15 0 5 0 0 0 0)
  else if d.discStopped && !blockOpen (off / 2 ^ 24) then some d
  else if d.rd GLB_STATUS_READY = 1 ∨ early then none
  else some (d.discard off v)

/-- A register write of value `v` that a command stands for. (DEDUCED, assumption 11) -/
def regCmd (off : Nat) (v : Word) (f : Dev → Dev) (s : State) : Out :=
  run (fun d => (d.regGate off v).getD (f d)) s

end Sys2Proof.Machine
end

