-- ==== Sys2Proof/Machine/FeOps.lean ====
section
/-! DEFINITION. The operations on the command front end that its own commands and the engines share: operations in flight, queues, fences, handles, completions, allocation. -/

namespace Sys2Proof.Machine

/-! ### Twin state as the front end sees it (R456, R462, R463) -/

/-- Whether a module mirrors as windward. -/
def Dev.isWindward (d : Dev) : Bool := d.twState == 3 && d.rd TWN_STATUS_ROLE == 0

/-- A windward tells its partner of a decision (Table 16.3). -/
def Dev.tellDecision (d : Dev) : Dev := if d.isWindward then d.send (.twin d.fe.gdn 12 0) else d

/-- Whether the module may dispatch: not HELD, ISOLATED or FENCED (R472, R476, R478), nor with the partner MAX_LAG records behind (R462). -/
def Dev.mayDispatch (d : Dev) : Bool :=
  match d.twState with
  | 4 | 5 | 8 => false
  | 3 => d.rd TWN_STATUS_ROLE == 1 || decide (d.rd TWN_STATUS_LAG < d.rd TWN_CTRL_MAX_LAG)
  | _ => true

/-! ### Operations in flight (R358) -/

/-- The operation of a tracker. -/
def Dev.op? (d : Dev) (id : Nat) : Option FeOp := d.fe.ops.find? (·.id == id)

/-- The device with an operation changed. -/
def Dev.updOp (d : Dev) (id : Nat) (f : FeOp → FeOp) : Dev :=
  { d with fe := { d.fe with ops := updWhere (·.id == id) f d.fe.ops } }

/-- Whether an operation has ended its work. -/
def FeOp.ended (o : FeOp) : Bool :=
  match o.phase with
  | .done _ _ _ => true
  | _ => false

/-- The opcode of an operation's entry (Table 12.3). -/
def FeOp.opcode (o : FeOp) : Nat := entF o.entry 0 1

/-- The operation's work ends with a status, cause and exit value; a second end changes nothing. -/
def FeOp.finish (o : FeOp) (st : Status) (cause : Nat) (exit : BitVec 32) : FeOp :=
  if o.ended then o else { o with phase := .done st cause exit }

/-- Whether an entry is a streamed task: a thread kernel not ORDERED_ONLY, a core task, a collective in ARRIVAL mode (R461). -/
def FeOp.streamed (o : FeOp) : Bool := o.opcode == 6 || (!o.ordered && (o.opcode == 2 || o.opcode == 5))

/-- A STREAM record of a windward's streamed task: a write performed at a home, or the end marker (R466, Table 16.3). -/
def Dev.tellStream (d : Dev) (id : Nat) (last : Bool := false) : Dev :=
  match d.op? id with
  | some o => if d.isWindward && o.streamed then d.send (.twin o.gdn 13 (if last then 1 else 0)) else d
  | none => d

/-- An operation's work ends; a windward's streamed task sends its end marker, and OPERATION_COMPLETE posts it (R466). -/
def Dev.finish (d : Dev) (id : Nat) (st : Status) (cause : Nat := 0) (exit : BitVec 32 := 0) : Dev :=
  let first := (d.op? id).any fun o => !o.ended
  let d := d.updOp id fun o => o.finish st cause exit
  if first then d.tellStream id true else d

/-- An operation has started on its engine. -/
def Dev.begin (d : Dev) (id : Nat) : Dev :=
  d.updOp id fun o => if o.phase = .dispatched then { o with phase := .running, start := d.tick } else o

/-- Whether an operation of an opcode waits in its engine to be started. -/
def Dev.ready? (d : Dev) (id opcode : Nat) : Option FeOp :=
  d.fe.ops.find? fun o => o.id == id && o.phase == .dispatched && o.opcode == opcode

/-- Operations of a queue in flight. -/
def Dev.inFlight (d : Dev) (qid : Nat) : Nat := (d.fe.ops.filter (·.qid == qid)).length

/-- The counts that FE_STATUS, FE_Q_STATE and CTU_STATUS show, from what the front end holds (Tables 12.12, 12.21, 11.10). -/
def Dev.feSync (d : Dev) (qid : Nat) : Dev :=
  (((((d.wr FE_STATUS_INFLIGHT d.fe.ops.length).wr FE_STATUS_LIVE_CTX d.fe.contexts.length).wr
    FE_STATUS_LIVE_Q d.fe.queues.length).wr FE_STATUS_LIVE_FENCES d.fe.fences.length).wr
    CTU_STATUS_LIVE_CTX d.fe.contexts.length).wr (FE_Q_STATE_INFLIGHT qid) (d.inFlight qid)

/-! ### Queues -/

/-- The queue of a QID; a FREE QID has none. -/
def Dev.queue? (d : Dev) (qid : Nat) : Option Queue := d.fe.queues.find? (·.qid == qid)

/-- The device with a queue changed. -/
def Dev.updQueue (d : Dev) (qid : Nat) (f : Queue → Queue) : Dev :=
  { d with fe := { d.fe with queues := updWhere (·.qid == qid) f d.fe.queues } }

/-- FE_Q_STATE.STATE (Table 12.21). -/
def Dev.qState (d : Dev) (qid : Nat) : Nat := d.rd (FE_Q_STATE_STATE qid)
def Dev.setQState (d : Dev) (qid st : Nat) : Dev := d.wr (FE_Q_STATE_STATE qid) st

/-- Whether a queue's completion ring is full (R376). -/
def Queue.full (q : Queue) : Bool := decide (2 ^ q.cqLog2 ≤ (q.posted - q.cqHead).toNat)

/-! ### Fences (R360–R362) -/

def Dev.fence? (d : Dev) (i : Nat) : Option Fence := d.fe.fences.find? (·.index == i)

/-- VALUE rises to the larger of itself and `v` (R360). -/
def Dev.signalFence (d : Dev) (i v : Nat) : Dev := d.wr (FE_FENCE_VALUE i) (max (d.rd (FE_FENCE_VALUE i)) v)

/-- ERROR is set (R360). -/
def Dev.errFence (d : Dev) (i : Nat) : Dev := d.wr (FE_FENCE_ERROR i) 1

/-- What a completion does to its SIG_H fence: raises VALUE when OK, sets ERROR otherwise (R360). -/
def Dev.fenceEnd (d : Dev) (sig : Option Nat) (st : Status) (v : Nat) : Dev :=
  match sig with
  | none => d
  | some i => if (d.fence? i).isNone then d else if st = .ok then d.signalFence i v else d.errFence i

/-- A signal of a queue's program to a fence (FSIG, ECALL 0x101): performed only by its SIGNALLER, else discarded with FRONT_END event 5 (R361). -/
def Dev.fsig (d : Dev) (tag qid i : Nat) (v : Word) : Dev :=
  match d.fence? i with
  | some f => if f.tag = tag ∧ f.signaller = some qid then d.signalFence i (min v.toNat (2 ^ 63 - 1))
              else d.event 7 0 5 qid i v.toNat 0
  | none => d.event 7 0 5 qid i v.toNat 0

/-! ### Handles (R349, R350) -/

/-- The live handle-table entry that a handle of a context names (Table 12.1). -/
def Dev.handleEntry (d : Dev) (tag h : Nat) : Option Handle :=
  if h / 2 ^ 14 % 256 ≠ 0 then none
  else d.fe.handles.find? fun e =>
    e.tag == tag && e.live && e.index == h % 2 ^ 14 && e.gen == h / 2 ^ 22 % 256 && e.kind == h / 2 ^ 30 % 4

/-- The object of an object id. -/
def Dev.object? (d : Dev) (id : Nat) : Option FeObject := d.fe.objects.find? (·.id == id)

/-- The value that a handle of a kind relocates to (R350); a handle of another kind does not relocate. -/
def Dev.reloc (d : Dev) (tag kind h off : Nat) : Option Nat :=
  match d.handleEntry tag h with
  | none => none
  | some e =>
    if e.kind ≠ kind then none
    else if kind = 0 then
      match d.object? e.target with
      | some o => if off < o.size ∧ o.freeing.isNone then some (o.base + off) else none
      | none => none
    else some e.target

/-- The object that an object handle names. -/
def Dev.handleObject (d : Dev) (tag h : Nat) : Option FeObject :=
  match d.handleEntry tag h with
  | some e => if e.kind = 0 then d.object? e.target else none
  | none => none

/-- The handle of a table entry (Table 12.1). -/
def Handle.code (e : Handle) : Nat := e.kind * 2 ^ 30 + e.gen * 2 ^ 22 + e.index

/-- The lowest table index of a context that holds no live handle; none when the table is full (R347). -/
def Dev.freeIndex (d : Dev) (tag : Nat) : Option Nat :=
  ((List.range 16383).map (· + 1)).find? fun i => !d.fe.handles.any fun e => e.tag == tag && e.index == i && e.live

/-- A new handle of a context: the entry's generation rises each time the entry is freed (R349). -/
def Dev.newHandle (d : Dev) (tag kind target : Nat) : Option (Handle × Dev) :=
  match d.freeIndex tag with
  | none => none
  | some i =>
    let gen := match d.fe.handles.find? (fun e => e.tag == tag && e.index == i) with
      | some e => e.gen
      | none => 0
    let e : Handle := ⟨tag, i, gen, true, kind, target⟩
    let rest := d.fe.handles.filter fun e => !(e.tag == tag && e.index == i)
    some (e, { d with fe := { d.fe with handles := rest ++ [e] } })

/-- A handle-table entry freed: its generation rises by 1 (R349). -/
def Dev.freeHandle (d : Dev) (p : Handle → Bool) : Dev :=
  { d with fe := { d.fe with handles := updWhere p (fun e => { e with live := false, gen := (e.gen + 1) % 256 }) d.fe.handles } }

/-! ### Physical allocation (R230, R348, Table 12.8) -/

/-- Whether a range of allocatable HBM is free: outside reserve frames and held by nothing. -/
def Dev.rangeFree (d : Dev) (a n : Nat) : Bool :=
  inAlloc a n && !(d.fe.ranges ++ d.fe.phys).any fun r => decide (a < r.1 + r.2) && decide (r.1 < a + n)

/-- Whether some run of `n` bytes, a multiple of a frame, is free: it could start at 0, after a reserve frame or after a held range. -/
def Dev.hasRoom (d : Dev) (n : Nat) : Bool :=
  (List.range 4096).any (fun i => d.rangeFree ((i * 95 / 2 + 1) * 2 ^ 21) n) ||
    (d.fe.ranges ++ d.fe.phys).any fun r => d.rangeFree ((r.1 + r.2 + 2 ^ 21 - 1) / 2 ^ 21 * 2 ^ 21) n

/-- A range taken for tables, objects or the window pool. -/
def Dev.hold (d : Dev) (a n : Nat) : Dev := { d with fe := { d.fe with ranges := d.fe.ranges ++ [(a, n)] } }

/-! ### Completions (R358, R360, R376) -/

/-- The 32 bytes of a completion entry (Table 12.9). -/
def completionBytes (start fin exit seq st cause flags qid : Nat) : List Byte :=
  leBytes 8 start ++ leBytes 8 fin ++ leBytes 4 exit ++ leBytes 4 seq ++ leBytes 1 st ++ leBytes 1 cause
    ++ leBytes 1 flags ++ leBytes 1 0 ++ leBytes 2 qid ++ leBytes 2 0

/-- PHASE of the n-th entry of a completion ring (R376). -/
def phaseBit (n log : Nat) : Nat := (n / 2 ^ log + 1) % 2

/-- The completion record written into its ring and confirmed to a partner, or only recorded on a leeward (R463, R474). -/
def Dev.writeCompletion (d : Dev) (q : Queue) (bs : List Byte) (gdn : Nat) (irq : Bool) : Dev :=
  let d' := if d.isLeeward then
      { d with twn := { d.twn with unposted := d.twn.unposted ++ [(gdn, BitVec.ofNat 256 (leNat bs), irq)] } }
    else
      let d := d.putRecord (q.cqPa + q.posted.toNat % 2 ^ q.cqLog2 * 32) bs
      if d.isWindward then d.send (.twin gdn 8 0) else d
  d'.updQueue q.qid fun q => { q with posted := q.posted + 1 }

/-- An interrupt, suppressed on a leeward (R463). -/
def Dev.interrupt (d : Dev) (vec : Nat) : Dev := if d.isLeeward then d else d.raiseInt vec

/-- The completion of an entry: the record unless QUIET and OK, then the fence, then the interrupt, then HALTED under ERR_STOP (R360, R365, R376). -/
def Dev.complete (d : Dev) (qid : Nat) (entry : BitVec 1024) (sig : Option Nat) (st : Status) (cause exit start gdn : Nat)
    (tdLost : Bool) : Dev :=
  match d.queue? qid with
  | none => d
  | some q =>
    let flags := entF entry 1 1
    let quiet := flags / 8 % 2 = 1 ∧ st = .ok
    let bs := completionBytes start d.tick exit (entF entry 4 4) (statusCode st) cause
      (phaseBit q.posted.toNat q.cqLog2 + (if tdLost then 2 else 0)) qid
    let irq : Bool := decide (flags % 2 = 1 ∨ st ≠ .ok)
    let d := if quiet then d else d.writeCompletion q bs gdn irq
    let d := d.fenceEnd sig st (entF entry 24 8)
    let d := if irq then d.interrupt q.vector else d
    if st ≠ .ok ∧ d.rd (FE_Q_STATE_ERR_STOP qid) = 1 ∧ d.qState qid ≠ 5 ∧ d.qState qid ≠ 6 then d.setQState qid 4 else d

/-- The entry at a queue's head is refused: it completes at once and does not run; a full ring keeps it waiting (R357, R364, R376). -/
def Dev.refuse (d : Dev) (qid : Nat) (st : Status) (cause : Nat) : Dev :=
  match d.queue? qid with
  | none => d
  | some q =>
    match q.head with
    | none => d
    | some h =>
      if q.full then d
      else
        let tag := d.rd (FE_Q_STATE_TAG qid)
        let sig := d.reloc tag 1 (entF h.entry 12 4) 0
        let d := d.updQueue qid fun q => { q with head := none }
        let d := if d.qState qid = 2 ∨ d.qState qid = 3 then d.setQState qid 1 else d
        let d := if d.isWindward then d.send (.twin d.fe.gdn 2 (BitVec.ofNat 256 (statusCode st))) else d
        d.complete qid h.entry sig st cause 0 d.tick 0 false

/-! ### Waits and cycles (R362, R363) -/

/-- What a head's wait on its fence comes to. -/
inductive WaitState where
  | satisfied | error | onDevice (s : Nat) | offDevice | bad
  deriving DecidableEq, Repr

/-- The state of a head's wait (R362): an entry without WAIT_H waits for nothing. -/
def Dev.waitState (d : Dev) (tag : Nat) (entry : BitVec 1024) : WaitState :=
  let h := entF entry 8 4
  if h = 0 then .satisfied
  else match d.reloc tag 1 h 0 with
    | none => .bad
    | some i =>
      if entF entry 16 8 ≤ d.rd (FE_FENCE_VALUE i) then .satisfied
      else if d.rd (FE_FENCE_ERROR i) = 1 then .error
      else match d.fence? i with
        | some f => (match f.signaller with | some s => .onDevice s | none => .offDevice)
        | none => .bad

/-- The queue that a queue's head waits on, on-device, if its head has begun to wait (R363). -/
def Dev.waitsOn (d : Dev) (qid : Nat) : Option WaitState :=
  match d.queue? qid with
  | none => none
  | some q =>
    match q.head with
    | some h => if h.waitAt.isSome then some (d.waitState (d.rd (FE_Q_STATE_TAG qid)) h.entry) else none
    | none => none

/-- The edge from a queue in the wait-for graph: its head waits on-device on S, whose head waits on a fence with nothing in flight (R363). -/
def Dev.waitEdge (d : Dev) (qid : Nat) : Option Nat :=
  match d.waitsOn qid with
  | some (.onDevice s) =>
    match d.waitsOn s with
    | some (.onDevice _) => if d.inFlight s = 0 then some s else none
    | some .offDevice => if d.inFlight s = 0 then some s else none
    | _ => none
  | _ => none

/-- Whether the edges from a queue lead back to it within `n` steps. -/
def Dev.leadsBack (d : Dev) (target : Nat) : Nat → Nat → Bool
  | 0, _ => false
  | n + 1, q =>
    match d.waitEdge q with
    | some s => s == target || d.leadsBack target n s
    | none => false

/-- A queue's wait closes a cycle of on-device waits: it is refused FENCE_CYCLE with an INFO event (R363). -/
def Dev.cycleCheck (d : Dev) (qid : Nat) : Dev :=
  match d.queue? qid with
  | none => d
  | some q =>
    match q.head with
    | none => d
    | some h =>
      if d.leadsBack qid d.fe.queues.length qid then
        (d.event 7 0 2 qid (entF h.entry 4 4) 0 0).refuse qid .fenceCycle 0
      else d

/-! ### Contexts -/

def Dev.context? (d : Dev) (tag : Nat) : Option Context := d.fe.contexts.find? (·.tag == tag)

/-- The bytes of a virtual range as the front end reads them; none when a page does not translate to HBM or a line is poisoned. -/
def Dev.vbytes (d : Dev) (tag va n : Nat) : Option (List Byte) :=
  match d.vread tag .read va n with
  | .ok bs => if bs.any (·.2) then none else some (bs.map (·.1))
  | .error _ => none

/-- A 64-byte image header as a number, if it can be read (Tables 4.3, 6.1). -/
def Dev.header (d : Dev) (tag va : Nat) : Option Nat := (d.vbytes tag va 64).map leNat

/-- Bytes `[off, off + n)` of a header. -/
def hdrF (h off n : Nat) : Nat := h / 2 ^ (8 * off) % 2 ^ (8 * n)

/-! ### Agents and cores (Tables 10.6, 17.11) -/

/-- COH_AGENT[n].STATE: 0 ACTIVE, 1 CLEANING, 2 OFFLINE, 3 DEAD, 4 ABSENT. -/
def Dev.agentState (d : Dev) (a : Nat) : Nat := d.rd (COH_AGENT_STATE a)

/-- The physical core that bears a logical core number of a control die; none when it is ABSENT (Table 17.11). -/
def Dev.physCore (d : Dev) (die n : Nat) : Option Nat :=
  let b := d.rd (RAS_CORE_MAP_MAP die (n / 8)) / 256 ^ (n % 8) % 256
  if b / 128 = 1 then some (b % 64) else none

/-! ### Functions (R370, R372) -/

/-- The function that owns an opcode (Table 12.3). -/
def functionOf (opcode : Nat) : Option Nat := if 1 ≤ opcode ∧ opcode ≤ 6 then some (opcode - 1) else none

/-- FE_FUNC_STATUS.STATE of a function: 0 ENABLED, 1 DRAINING, 2 DISABLED. -/
def Dev.funcState (d : Dev) (f : Nat) : Nat := d.rd FE_FUNC_STATUS_STATE / 4 ^ f % 4
def Dev.setFuncState (d : Dev) (f st : Nat) : Dev :=
  let w := d.rd FE_FUNC_STATUS_STATE
  d.wr FE_FUNC_STATUS_STATE (w - w / 4 ^ f % 4 * 4 ^ f + st * 4 ^ f)

end Sys2Proof.Machine
end

