-- ==== Sys2Proof/Machine/CtuOps.lean ====
section
/-! DEFINITION. The shared operations on the translation unit and on page tables: invalidations (R330–R332), and writing and removing leaves (R316, R323, R348). -/

namespace Sys2Proof.Machine

/-- Whether an entry covers any byte of a range of a tag; no range: every entry of the tag. -/
def Tlb.hit (t : Tlb) (tag : Nat) (range : Option (Nat × Nat)) : Bool :=
  t.tag == tag && match range with
    | none => true
    | some (lo, hi) => decide (t.vpage < hi) && decide (lo < t.vpage + t.span)

/-- Step 1 of an invalidation: the matching entries and the tag's walk-cache entries are dropped, and walks of the tag restart and cache nothing (R331, R332). -/
def Dev.dropEntries (d : Dev) (tag : Nat) (range : Option (Nat × Nat)) : Dev :=
  { d with ctu := { d.ctu with
      tlb := d.ctu.tlb.filter fun t => !t.hit tag range
      walkCache := d.ctu.walkCache.filter (·.1 != tag)
      walks := updWhere (·.tag == tag) (fun w => { w with noCache := true, level := 4, table := match d.context? tag with
        | some c => c.root
        | none => w.table }) d.ctu.walks } }

/-- An invalidation begins (R330, R331): its entries go at once, and it completes when what was translated through them has been performed. -/
def Dev.startInval (d : Dev) (src : Option Nat) (tag : Nat) (range : Option (Nat × Nat)) : Dev :=
  let d := d.dropEntries tag range
  { d with ctu := { d.ctu with invals := d.ctu.invals ++ [⟨d.ctu.nextId, src, tag, range⟩], nextId := d.ctu.nextId + 1 } }

/-- CTU_FQ_STATUS.PENDING and CTU_STATUS.WALKS as the CTU holds them (Tables 11.10, 11.15). -/
def Dev.fqSync (d : Dev) : Dev :=
  (d.wr CTU_FQ_STATUS_PENDING d.ctu.faults.length).wr CTU_STATUS_WALKS d.ctu.walks.length

/-- Requests end with a status. -/
def Dev.endReqs (d : Dev) (rs : List CtuReq) (st : Status) : Dev :=
  { d with ctu := { d.ctu with answers := d.ctu.answers ++ rs.map fun r => (r, .ended st) } }

/-- The pending records of a tag are freed and their requests end with a status, and so do its stalled and waiting requests (R339, R374). -/
def Dev.freeFaults (d : Dev) (tag : Nat) (st : Status) : Dev :=
  let rs := (d.ctu.faults.filter (·.tag == tag)).flatMap (·.reqs) ++ d.ctu.stalled.filter (·.tag == tag)
    ++ d.ctu.tierWait.filter (·.tag == tag)
  let d := { d with ctu := { d.ctu with faults := d.ctu.faults.filter (·.tag != tag)
                                        stalled := d.ctu.stalled.filter (·.tag != tag)
                                        tierWait := d.ctu.tierWait.filter (·.tag != tag) } }
  (d.endReqs rs st).fqSync

/-- Whether the CTU takes another invalidation (R330). -/
def Dev.invalRoom (d : Dev) : Bool := decide (d.ctu.invals.length < 16)

/-- The page size of a SIZE code (Table 11.11); none when the code is not listed. -/
def invalPage (size : Nat) : Option Nat :=
  match size with
  | 0 => some (2 ^ 12) | 1 => some (2 ^ 21) | 2 => some (2 ^ 30) | _ => none

/-- The byte range of a RANGE invalidation, if its COUNT, SIZE and end are allowed (Table 11.11). -/
def invalRange (va size count : Nat) : Option (Nat × Nat) :=
  match invalPage size with
  | none => none
  | some p =>
    let lo := va / p * p
    if count = 0 ∨ 2 ^ 57 < lo + count * p then none else some (lo, lo + count * p)

/-- A leaf written at a level below a table, with tables taken from a supply of free pages where an entry is not present (R348); none when the supply runs out or an entry is a leaf already. -/
def Dev.mapLeaf (d : Dev) (va level : Nat) (leaf : Word) : Nat → Nat → List Nat → Option (Dev × List Nat)
  | 0, table, sup => if level = 0 then some (d.putNat (table + 8 * levelIndex 0 va) 8 leaf.toNat, sup) else none
  | l + 1, table, sup =>
    let a := table + 8 * levelIndex (l + 1) va
    if level = l + 1 then some (d.putNat a 8 leaf.toNat, sup)
    else
      let e := BitVec.ofNat 64 (d.natAt a 8)
      match walkEntry (l + 1) e with
      | .next t => d.mapLeaf va level leaf l t sup
      | .notPresent =>
        match sup with
        | [] => none
        | p :: sup =>
          if d.rangeFree p 4096 ∧ p % 4096 = 0 then
            (((d.hold p 4096).zeroFill p (p + 4096)).putNat a 8 (p + 1)).mapLeaf va level leaf l p sup
          else none
      | _ => none

/-- A leaf of an existing table replaced, if the tables above it are there. -/
def Dev.setLeaf (d : Dev) (va level : Nat) (leaf : Word) : Nat → Nat → Dev
  | 0, table => if level = 0 then d.putNat (table + 8 * levelIndex 0 va) 8 leaf.toNat else d
  | l + 1, table =>
    let a := table + 8 * levelIndex (l + 1) va
    if level = l + 1 then d.putNat a 8 leaf.toNat
    else match walkEntry (l + 1) (BitVec.ofNat 64 (d.natAt a 8)) with
      | .next t => d.setLeaf va level leaf l t
      | _ => d

/-- The leaf word of a local page with rights and, where used, the STREAM mark (Table 11.2). -/
def leafWord (pa rights : Nat) : Word := BitVec.ofNat 64 (pa + 16 + rights * 2 + 1)

end Sys2Proof.Machine
end

