-- ==== Sys2Proof/Machine/NfpOps.lean ====
section
/-! DEFINITION. The shared operations on the node fabric: send queues and ports (R399, R400), requests (R386–R390), windows (R392–R396). -/

namespace Sys2Proof.Machine

/-! ### Ports and send queues (R378, R399, R400) -/

/-- The link layer of a link; one that has never come up is at its reset. -/
def Dev.link (d : Dev) (k : Nat) : Link := (getKey d.nfp.links k).getD {}
def Dev.setLink (d : Dev) (k : Nat) (l : Link) : Dev := { d with nfp := { d.nfp with links := putKey d.nfp.links k l } }

/-- Whether a port is UP or DEGRADED. -/
def Dev.portUp (d : Dev) (p : Nat) : Bool := d.rd (NFP_PORT_STATUS_STATE p) == 2 || d.rd (NFP_PORT_STATUS_STATE p) == 3

/-- Whether a port carries Ethernet: the mode in force (R378). -/
def Dev.portEth (d : Dev) (p : Nat) : Bool := (d.link p).ethLatch

/-- Whether a port is of the STORAGE class (R399, Table 13.8). -/
def Dev.portStorage (d : Dev) (p : Nat) : Bool := d.portEth p || d.rd (NFP_PORT_CTRL_CLASS p) == 1

/-- Whether a rank is reached by STORAGE ports (R399). -/
def Dev.storeRank (d : Dev) (r : Nat) : Bool :=
  decide (d.rd NFP_STORE_BASE ≤ r) && decide (r < d.rd NFP_STORE_BASE + d.rd NFP_STORE_COUNT)

/-- The kinds of packet that travel over Ethernet (R401). -/
def ethKind (kind : Nat) : Bool := [1, 2, 4, 6, 8, 9, 11].contains kind

/-- The ports by which a packet leaves for a rank (R387, R399, R401); a collective's chunk leaves by one die's ports: 256 is added to its kind for C0, 512 for C1 (R402). -/
def Dev.portsFor (d : Dev) (kind rank : Nat) : List Nat :=
  (List.range 8).filter fun p => d.portUp p && d.portStorage p == d.storeRank rank && (!d.portEth p || ethKind kind) &&
    (decide (kind < 256) || p / 4 + 1 == kind / 256)

/-- Whether a remote atomic has a path of COMPUTE ports in NFP mode (R387). -/
def Dev.atomPath (d : Dev) (rank : Nat) : Bool := !d.storeRank rank && !(d.portsFor 3 rank).isEmpty

/-- Whether slot tables are in force: the member is RUNNING (R214, R400). -/
def Dev.domRunning (d : Dev) : Bool := d.rd NFP_DOM_STATUS_STATE == 4

/-- The port whose turn it is for a send queue. -/
def Dev.turn (d : Dev) (sq : Nat) (ports : List Nat) : Option Nat :=
  match getKey d.nfp.lastPort sq with
  | none => ports.head?
  | some l => match ports.find? (fun p => decide (l < p)) with
    | some p => some p
    | none => ports.head?

/-- The virtual channel of a packet and the flits it takes (R382, Table 13.4). -/
def nfpVc (kind : Nat) : Nat := match kind % 256 with | 5 => 2 | 6 => 3 | k => if k < 5 then 0 else 1
def nfpFlits (p : Packet) : Nat := (40 + p.payload.length + 239) / 240

/-- Whether a port has the credits and the retry buffer for a packet (R383, R384). -/
def Dev.portTakes (d : Dev) (p kind : Nat) (k : Packet) : Bool :=
  let l := d.link p
  d.portEth p || (decide (nfpFlits k ≤ l.credits.getD (nfpVc kind) 0) && decide (l.retry.length + nfpFlits k ≤ 2048))

/-- A packet leaves by a port: its flits spend credits and are held for replay (R382–R384). -/
def Dev.portSend (d : Dev) (p kind : Nat) (k : Packet) : Dev :=
  let n := nfpFlits k
  let l := d.link p
  let vc := nfpVc kind
  let d := if d.portEth p then d else d.setLink p { l with
    txSeq := (l.txSeq + n) % 4096
    retry := l.retry ++ (List.range n).map fun i => (l.txSeq + i) % 4096
    credits := putAt l.credits vc (l.credits.getD vc 0 - n) }
  d.send (.nfp p (kind % 256) k)

/-- What waits in the send queues, and the answers, leave by turns over the ports of their class; nothing does while slot tables are in force or the module is mute (R400, R463). -/
def Dev.flushSqs (d : Dev) : Dev :=
  if d.domRunning ∨ d.mute then d
  else
    let d := d.nfp.answers.foldl (fun d a =>
      match (d.portsFor a.1 a.2.dst).find? fun p => d.portTakes p a.1 a.2 with
      | none => { d with nfp := { d.nfp with answers := d.nfp.answers ++ [a] } }
      | some p => d.portSend p a.1 a.2) { d with nfp := { d.nfp with answers := [] } }
    d.nfp.sqs.foldl (fun d q =>
      match d.turn q.1 ((d.portsFor q.2.1 q.2.2.dst).filter fun p => d.portTakes p q.2.1 q.2.2) with
      | none => { d with nfp := { d.nfp with sqs := d.nfp.sqs ++ [q] } }
      | some p =>
        let d := d.portSend p q.2.1 q.2.2
        { d with nfp := { d.nfp with lastPort := putKey d.nfp.lastPort q.1 p } })
      { d with nfp := { d.nfp with sqs := [] } }

/-- A packet joins its send queue. -/
def Dev.enqueueSq (d : Dev) (sq kind : Nat) (p : Packet) : Dev :=
  { d with nfp := { d.nfp with sqs := d.nfp.sqs ++ [(sq, kind, p)] } }.flushSqs

/-- An answer joins those that wait for a port, or for an OPEN slot while slot tables are in force (R399, R400). -/
def Dev.sendAnswer (d : Dev) (kind : Nat) (p : Packet) : Dev :=
  { d with nfp := { d.nfp with answers := d.nfp.answers ++ [(kind, p)] } }.flushSqs

/-! ### Jobs and requests (R388–R390) -/

/-- The valid job entry of an epoch. -/
def Dev.jobOf (d : Dev) (epoch : Nat) : Option Nat :=
  (List.range 16).find? fun j => d.rd (NFP_JOB_W0_VALID j) == 1 && d.rd (NFP_JOB_W0_EPOCH j) == epoch

/-- The valid job entry of a context. -/
def Dev.tagJob (d : Dev) (tag : Nat) : Option Nat :=
  (List.range 16).find? fun j => d.rd (NFP_JOB_W0_VALID j) == 1 && d.rd (NFP_JOB_W0_TAG j) == tag

/-- The send queue of a job entry (Table 13.13). -/
def Dev.jobSq (d : Dev) (j : Nat) : Nat := d.rd NFP_JOB_SQ_SQ / 16 ^ j % 16 * 4

/-- The first transaction tag from `t` on that no outstanding request carries. -/
def Dev.freeTag (d : Dev) : Nat → Nat → Nat
  | 0, t => t
  | n + 1, t => if d.nfp.reqs.any (·.tag == t) then d.freeTag n ((t + 1) % 65536) else t

/-- A request sent under a new tag and remembered until it is answered (R386, R388). -/
def Dev.request (d : Dev) (sq kind job : Nat) (op : Option Nat) (p : Packet) : Dev :=
  let t := d.freeTag 65536 d.nfp.nextTag
  let p := { p with tag := t }
  let r : NfpReq := ⟨t, kind, p, job, op, d.now, 0⟩
  { d with nfp := { d.nfp with nextTag := (t + 1) % 65536, reqs := d.nfp.reqs ++ [r] } }.enqueueSq sq kind p

/-- A remote access of a context (R389): the packet of its job entry; none when the context holds no entry. -/
def Dev.remote (d : Dev) (tag kind : Nat) (op : Option Nat) (pa len : Nat) (payload : List Byte) (pmask : BitVec 64) : Option Dev :=
  match d.tagJob tag with
  | none => none
  | some j =>
    let rank := pa / 2 ^ 48 % 2 ^ 15
    if kind = 3 ∧ !d.atomPath rank then none
    else some (d.request (d.jobSq j) kind j op
      ⟨false, false, rank, d.rd (NFP_JOB_W0_RANK j), 0xFFFF, BitVec.ofNat 32 (d.rd (NFP_JOB_W0_EPOCH j)), 0, len, pa % 2 ^ 48,
        BitVec.ofNat 64 (d.rd (NFP_JOB_W1_TOKEN j)), pmask, payload⟩)

/-- A collective is no longer in flight: it is counted, and its operation ends (R404, R407, Table 13.19). -/
def Dev.collEnd (d : Dev) (op : Nat) (st : Status) (cause : Nat := 0) : Dev :=
  if !d.nfp.colls.any (·.op == op) then d
  else
    let d := { d with nfp := { d.nfp with colls := d.nfp.colls.filter (·.op != op), reqs := d.nfp.reqs.filter (·.op != some op) } }
    let d := (d.inc NFP_COLL_STATUS_DONE).wr NFP_COLL_STATUS_INFLIGHT d.nfp.colls.length
    (if st = .ok then d else d.inc NFP_COLL_STATUS_FAILED).finish op st cause

/-- An outstanding request leaves the table; its operation or collective ends with a status that is not OK (R388, R390, R407). -/
def Dev.endReq (d : Dev) (r : NfpReq) (st : Status) : Dev :=
  let d := { d with nfp := { d.nfp with reqs := d.nfp.reqs.filter (·.tag != r.tag) } }
  match r.op with
  | some op => if st = .ok then d else (d.collEnd op st).finish op st
  | none => d

/-- The windows that are open. -/
def Dev.openWindows (d : Dev) : List Nat :=
  d.regs.filterMap fun r =>
    if 0x7010000 ≤ r.1 ∧ r.1 < 0x7020000 ∧ r.1 % 16 = 0 ∧ r.2.getLsbD 0 then some ((r.1 - 0x7010000) / 16) else none

/-! ### Windows (R392–R395) -/

/-- A window closes; a bind window loses its binding. -/
def Dev.closeWin (d : Dev) (n : Nat) : Dev :=
  let d := (d.wr (NFP_WIN_W0_OPEN n) 0).wr (NFP_WIN_W0_BOUND n) 0
  { d with tier := { d.tier with bindings := d.tier.bindings.filter (·.win != n) } }

/-- A job entry ends: its outstanding requests end EPOCH_STALE and every window of its EPOCH closes, with which a task that bound one ends (R390). -/
def Dev.endJob (d : Dev) (j : Nat) : Dev :=
  let e := d.rd (NFP_JOB_W0_EPOCH j)
  let d := d.wr (NFP_JOB_W0_VALID j) 0
  let d := (d.nfp.reqs.filter (·.job == j)).foldl (fun d r => d.endReq r .epochStale) d
  (d.openWindows.filter fun n => d.rd (NFP_WIN_W0_EPOCH n) == e).foldl (fun d n =>
    match (d.tier.bindings.find? (·.win == n)).bind (·.op) with
    | some op => (d.closeWin n).finish op .epochStale
    | none => d.closeWin n) d

/-- A bind window is held by a binding and opens if its EPOCH is that of a valid job entry (R392, R395). -/
def Dev.bindWin (d : Dev) (b : Binding) : Dev :=
  let d := d.wr (NFP_WIN_W0_BOUND b.win) 1
  let d := if (d.jobOf (d.rd (NFP_WIN_W0_EPOCH b.win))).isSome then d.wr (NFP_WIN_W0_OPEN b.win) 1 else d
  { d with tier := { d.tier with bindings := d.tier.bindings ++ [b] } }

/-- The binding of a window. -/
def Dev.binding? (d : Dev) (win : Nat) : Option Binding := d.tier.bindings.find? (·.win == win)

/-- Bytes written line by line, each with the mark of its line (R394). -/
def Dev.putMasked (d : Dev) (a : Nat) (bs : List Byte) (pmask : BitVec 64) : Dev :=
  (List.range ((a % 64 + bs.length + 63) / 64)).foldl (fun d i =>
    let from_ := if i = 0 then 0 else 64 * i - a % 64
    let upto := 64 * (i + 1) - a % 64
    d.putBytes (a + from_) ((bs.drop from_).take (upto - from_)) (pmask.getLsbD i)) d

/-- The marks of the lines of a range, as a PMASK (R394). -/
def Dev.maskOf (d : Dev) (a n : Nat) : BitVec 64 :=
  BitVec.ofNat 64 ((List.range ((a % 64 + n + 63) / 64)).foldl (fun m i =>
    if d.poisonAt (a / 64 * 64 + 64 * i) then m + 2 ^ i else m) 0)

/-- The bytes of a page of an object of tier T1 (Table 9.2). -/
def FeObject.pageBytes (o : FeObject) : Nat := levelSpan (o.flags.toNat / 2 ^ 10 % 4)

/-- The physical address of a byte of an object of tier T1. -/
def FeObject.paOf (o : FeObject) (off : Nat) : Nat := o.frames.getD (off / o.pageBytes) 0 + off % o.pageBytes

end Sys2Proof.Machine
end

