-- ==== Sys2Proof/Machine/Shake.lean ====
section
/-! DEFINITION. SHAKE256 (FIPS 202), the hash of the stripe, object, register and quote digests (R264, R517, R523). PRESUMED: the manual names the function and not its steps (PRESUMED, assumption 41). -/

namespace Sys2Proof.Machine

/-- The round constants of Keccak-f[1600]. -/
def keccakRc : List Word :=
  [0x0000000000000001, 0x0000000000008082, 0x800000000000808A, 0x8000000080008000, 0x000000000000808B, 0x0000000080000001,
   0x8000000080008081, 0x8000000000008009, 0x000000000000008A, 0x0000000000000088, 0x0000000080008009, 0x000000008000000A,
   0x000000008000808B, 0x800000000000008B, 0x8000000000008089, 0x8000000000008003, 0x8000000000008002, 0x8000000000000080,
   0x000000000000800A, 0x800000008000000A, 0x8000000080008081, 0x8000000000008080, 0x0000000080000001, 0x8000000080008008]

/-- The rotation of lane (x, y), at index x + 5y. -/
def keccakRho : List Nat :=
  [0, 1, 62, 28, 27, 36, 44, 6, 55, 20, 3, 10, 43, 25, 39, 41, 45, 15, 21, 8, 18, 2, 61, 56, 14]

/-- Lane (x, y) of a state. -/
def lane (a : List Word) (x y : Nat) : Word := a.getD (x % 5 + 5 * (y % 5)) 0

/-- One round. -/
def keccakRound (a : List Word) (rc : Word) : List Word :=
  let c := (List.range 5).map fun x => lane a x 0 ^^^ lane a x 1 ^^^ lane a x 2 ^^^ lane a x 3 ^^^ lane a x 4
  let col := fun x => c.getD (x % 5) 0
  let t := (List.range 25).map fun i => lane a i (i / 5) ^^^ col (i % 5 + 4) ^^^ (col (i % 5 + 1)).rotateLeft 1
  let r := fun x y => (lane t x y).rotateLeft (keccakRho.getD (x % 5 + 5 * (y % 5)) 0)
  -- lane (x, y) of the permuted state is lane (x + 3y, x) of the rotated one
  let b := (List.range 25).map fun i => r (i % 5 + 3 * (i / 5)) (i % 5)
  (List.range 25).map fun i =>
    let v := lane b i (i / 5) ^^^ (~~~(lane b (i % 5 + 1) (i / 5)) &&& lane b (i % 5 + 2) (i / 5))
    if i = 0 then v ^^^ rc else v

/-- The permutation Keccak-f[1600]. -/
def keccakF (a : List Word) : List Word := keccakRc.foldl keccakRound a

/-- The little-endian number of bytes, as a lane. -/
def laneOf : List Byte → Nat
  | [] => 0
  | b :: r => b.toNat + 256 * laneOf r

/-- A block of 136 bytes added to a state. -/
def absorbBlock (a : List Word) (blk : List Byte) : List Word :=
  keccakF ((List.range 25).map fun i =>
    a.getD i 0 ^^^ (if i < 17 then BitVec.ofNat 64 (laneOf ((blk.drop (8 * i)).take 8)) else 0))

/-- All blocks of a message absorbed, `n` of them whole, and the padded last one. -/
def absorb : Nat → List Word → List Byte → List Word
  | 0, a, m =>
    let body := m ++ (if m.length = 135 then [0x9F] else 0x1F :: List.replicate (134 - m.length) 0 ++ [0x80])
    absorbBlock a body
  | n + 1, a, m => absorb n (absorbBlock a (m.take 136)) (m.drop 136)

/-- The bytes of a state's rate. -/
def rateBytes (a : List Word) : List Byte :=
  (List.range 136).map fun i => (lane a (i / 8) (i / 40)).extractLsb' (8 * (i % 8)) 8

/-- Blocks of output. -/
def squeeze : Nat → List Word → List Byte
  | 0, _ => []
  | n + 1, a => rateBytes a ++ squeeze n (keccakF a)

/-- SHAKE256 of a message with `n` bytes of output. -/
def shake256 (m : List Byte) (n : Nat) : List Byte :=
  (squeeze ((n + 135) / 136) (absorb (m.length / 136) (List.replicate 25 0) m)).take n

/-- SHAKE256 with 256-bit output, as a number with the first byte lowest. -/
def digest256 (m : List Byte) : BitVec 256 := BitVec.ofNat 256 (laneOf (shake256 m 32))

end Sys2Proof.Machine
end

