-- ==== Sys2Proof/Machine/TierOps.lean ====
section
/-! DEFINITION. The shared operations of the tier engine: copies, references and the window pool (R270–R284), the Shelf directory (R264), receive bindings (R285–R287). (DEDUCED, assumption 39) -/

namespace Sys2Proof.Machine

/-! ### Streamed objects and the Shelf directory (R259, R262, R264, R271) -/

/-- The bytes of a frame and of a stripe. -/
def frameBytes : Nat := 2 ^ 21
def stripeBytes : Nat := 2 ^ 20

/-- The TIER of an object's flags: 0 T1, 1 SHELF, 2 REMOTE (Table 9.2). -/
def FeObject.tier (o : FeObject) : Nat := o.flags.toNat % 4

/-- The first byte of a segment (R259). -/
def segStart (segs : List Nat) (k : Nat) : Nat := (segs.take k).sum

/-- The segment that holds a byte of an object. -/
def segAt : List Nat → Nat → Nat
  | [], _ => 0
  | l :: r, off => if off < l then 0 else 1 + segAt r (off - l)

/-- The identity under which streamed objects share copies: the directory index, or the RANK and KEY of the primary source (R271). -/
def remoteIdent (src : BitVec 256) : Nat := 2 ^ 80 + src.toNat % 2 ^ 15 * 2 ^ 64 + src.toNat / 2 ^ 64 % 2 ^ 64

/-- Whether an identity is that of a REMOTE object. -/
def isRemote (ident : Nat) : Bool := decide (2 ^ 80 ≤ ident)

/-- The SOURCE of a TIER event and OBJ of TIER_ERR_LOG: the directory index, or 0xFFFF (Tables 9.12, 18.2). -/
def tierSource (ident : Nat) : Nat := if isRemote ident then 0xFFFF else ident

/-- The directory entry of an index. -/
def Dev.dirent? (d : Dev) (i : Nat) : Option Dirent := d.nv.dir.find? (·.index == i)

/-- The device with a directory entry changed. -/
def Dev.updDirent (d : Dev) (i : Nat) (f : Dirent → Dirent) : Dev :=
  { d with nv := { d.nv with dir := updWhere (·.index == i) f d.nv.dir } }

/-- The stripes of an object. -/
def Dirent.stripes (e : Dirent) : Nat := e.segs.sum / stripeBytes

/-- A byte of the Shelf (R262). -/
def Dev.flashByte (d : Dev) (i a : Nat) : Byte := sget (fun _ => 0) d.nv.flash (i * 2 ^ 50 + a)

/-- The bytes of a stripe of an object. -/
def Dev.stripe (d : Dev) (i st : Nat) : List Byte := (List.range stripeBytes).map fun k => d.flashByte i (st * stripeBytes + k)

/-- Bytes written to the Shelf. -/
def Dev.flashWrite (d : Dev) (i a : Nat) (bs : List Byte) : Dev :=
  { d with nv := { d.nv with flash := hbmWrite d.nv.flash (i * 2 ^ 50 + a) bs } }

/-- An entry returns to FREE with its stripes (R264, R269). -/
def Dev.freeDirent (d : Dev) (i : Nat) : Dev :=
  { d with nv := { d.nv with dir := d.nv.dir.filter (·.index != i),
                             flash := sclear d.nv.flash (i * 2 ^ 50) ((i + 1) * 2 ^ 50) } }

/-! ### Status registers (Tables 9.9, 9.10) -/

/-- The frames that copies hold. -/
def Dev.usedFrames (d : Dev) : List Nat := d.tier.copies.flatMap (·.frames)

/-- The counts of the pool and the Shelf as their status registers show them. -/
def Dev.tierSync (d : Dev) : Dev :=
  let aged := (d.tier.copies.filter (·.stamp.isSome)).flatMap (·.frames)
  let bad := (d.nv.dir.map (·.bad.length)).sum
  let d := (d.wr TIER_POOL_STATUS_FREE (d.tier.poolFrames.length - d.usedFrames.length)).wr TIER_POOL_STATUS_AGED aged.length
  let d := (d.wr TIER_POOL_STATUS_WAITING (d.tier.waiters.filter (!·.placed)).length).wr TIER_POOL_STATUS_COPIES d.tier.copies.length
  let d := d.wr TIER_SHELF_STATUS_FREE_STRIPES (18874368 - (d.nv.dir.map Dirent.stripes).sum)
  (d.wr TIER_SHELF_STATUS_OBJECTS d.nv.dir.length).wr TIER_SHELF_STATUS_BAD_STRIPES (min bad (2 ^ 20 - 1))

/-! ### Copies -/

def Dev.copy? (d : Dev) (id : Nat) : Option Copy := d.tier.copies.find? (·.id == id)
def Dev.copyOf (d : Dev) (ident seg : Nat) : Option Copy := d.tier.copies.find? fun c => c.ident == ident && c.seg == seg
def Dev.updCopy (d : Dev) (id : Nat) (f : Copy → Copy) : Dev :=
  { d with tier := { d.tier with copies := updWhere (·.id == id) f d.tier.copies } }

/-- The bytes of a copy. -/
def Copy.len (c : Copy) : Nat := c.frames.length * frameBytes

/-- The physical address of a byte of a copy. -/
def Copy.paOf (c : Copy) (off : Nat) : Nat := c.frames.getD (off / frameBytes) 0 + off % frameBytes

/-- The stripes of a copy, by their numbers in the object. -/
def Copy.stripes (c : Copy) : List Nat := (List.range (c.len / stripeBytes)).map (c.start / stripeBytes + ·)

/-- The open objects of a context with an identity. -/
def Dev.openObjs (d : Dev) (tag ident : Nat) : List FeObject :=
  d.fe.objects.filter fun o => o.tag == tag && o.tier != 0 && o.ident == ident

/-- A segment's pages put into a context's tables, read-only, or taken out of them and out of the CTU (R273). -/
def Dev.segPages (d : Dev) (tag : Nat) (c : Copy) (on : Bool) : Dev :=
  match d.context? tag with
  | none => d
  | some cx =>
    (d.openObjs tag c.ident).foldl (fun d o =>
      let va := o.base + c.start
      let d := (List.range c.frames.length).foldl (fun d i =>
        d.setLeaf (va + i * frameBytes) 1 (if on then leafWord (c.frames.getD i 0) 1 else 0x80) 4 cx.root) d
      if on then d else d.dropEntries tag (some (va, va + c.len))) d

/-- A promotion ends: its task completes with a status. -/
def Dev.endWaiter (d : Dev) (w : Waiter) (st : Status) : Dev :=
  let d := { d with tier := { d.tier with waiters := d.tier.waiters.filter (·.id != w.id) } }
  match w.op with
  | some op => d.finish op st
  | none => d

/-- The promotions of a copy that are not complete. -/
def Dev.waitersOf (d : Dev) (c : Copy) : List Waiter :=
  d.tier.waiters.filter fun w => w.placed && w.ident == c.ident && w.seg == c.seg

/-- The earliest deadline of a copy's promotions (R276). -/
def Dev.copyDeadline (d : Dev) (c : Copy) : Option Nat :=
  (d.waitersOf c).foldl (fun m w => some (match m with | some x => min x w.deadline | none => w.deadline)) none

/-- The copy that the age list gives up next: the oldest stamp, ties to the lower lowest frame (R275). -/
def Dev.oldestAged (d : Dev) : Option Copy :=
  let key := fun (c : Copy) => (c.stamp.getD 0) * 2 ^ 64 + c.frames.foldl min (2 ^ 63)
  (d.tier.copies.filter (·.stamp.isSome)).foldl (fun m c => match m with
    | some x => if key c < key x then some c else m
    | none => some c) none

/-- A copy becomes FREE; a window bound for its fill closes. -/
def Dev.freeCopy (d : Dev) (id : Nat) : Dev :=
  let d := (d.tier.bindings.filter (·.fill == some id)).foldl (fun d b => d.closeWin b.win) d
  { d with tier := { d.tier with copies := d.tier.copies.filter (·.id != id) } }

/-- Frames for a copy: free ones, then those of the age list; none when both together are short (R275). -/
def Dev.takeFrames (d : Dev) (n : Nat) : Nat → Option (List Nat × Dev)
  | 0 => none
  | k + 1 =>
    let used := d.usedFrames
    let free := d.tier.poolFrames.filter fun f => !used.contains f
    if n ≤ free.length then some (free.take n, d)
    else match d.oldestAged with
      | some c => (d.freeCopy c.id).takeFrames n k
      | none => none

/-- The alternate source of a copy: the second record of a REMOTE object, the only one of a SHELF object (Table 9.3). -/
def Dev.alternate (d : Dev) (ident : Nat) : Option (BitVec 256) :=
  (d.fe.objects.filter fun o => o.tier != 0 && o.ident == ident).findSome? fun o =>
    if o.tier = 1 then o.source[0]? else o.source[1]?

/-- The primary source of a REMOTE copy. -/
def Dev.primary (d : Dev) (ident : Nat) : Option (BitVec 256) :=
  (d.fe.objects.filter fun o => o.tier == 2 && o.ident == ident).findSome? (·.source[0]?)

/-- A FETCH to a source for a range (R397). -/
def Dev.sendFetch (d : Dev) (src : BitVec 256) (off len woff : Nat) : Dev :=
  let win := src.toNat / 2 ^ 16 % 2 ^ 16
  match d.jobOf (d.rd (NFP_WIN_W0_EPOCH win)) with
  | none => d
  | some j =>
    d.request (d.rd NFP_CTRL_TIER_SQ) 4 j none
      ⟨false, false, src.toNat % 2 ^ 15, d.rd (NFP_JOB_W0_RANK j), win, BitVec.ofNat 32 (d.rd (NFP_WIN_W0_EPOCH win)), 0, 32, 0,
        BitVec.ofNat 64 (d.rd (NFP_WIN_W1_TOKEN win)), 0,
        leBytes 8 (src.toNat / 2 ^ 64) ++ leBytes 8 (src.toNat / 2 ^ 128 % 2 ^ 64 + off) ++ leBytes 8 len ++ leBytes 8 woff⟩

/-- Whether a source's window can be bound by the tier engine now: a bind window, unbound, of a valid job (R287, R392). -/
def Dev.canBind (d : Dev) (src : BitVec 256) : Bool :=
  let win := src.toNat / 2 ^ 16 % 2 ^ 16
  decide (256 ≤ win) && decide (win < 4096) && d.rd (NFP_WIN_W0_BOUND win) == 0 && (d.jobOf (d.rd (NFP_WIN_W0_EPOCH win))).isSome

/-- REMOTE fills that have no window yet bind theirs and send their fetch, in order of deadline (R276, R287). -/
def Dev.startFills (d : Dev) : Dev :=
  d.tier.copies.foldl (fun d _ =>
    let idle := d.tier.copies.filter fun c => isRemote c.ident && c.state == 1 && !d.tier.bindings.any (·.fill == some c.id) &&
      (d.primary c.ident).any d.canBind
    let first := idle.foldl (fun m c => match m with
      | some x => if (d.copyDeadline c).getD 0 < (d.copyDeadline x).getD 0 then some c else m
      | none => some c) (none : Option Copy)
    match first with
    | none => d
    | some c =>
      match d.primary c.ident with
      | none => d
      | some src =>
        (d.bindWin ⟨src.toNat / 2 ^ 16 % 2 ^ 16, none, some c.id, 0, 0, 0, c.len, [], false, 0, false, 0, none, 0⟩).sendFetch
          src c.start c.len 0) d

/-- A refetch of a copy's bad stripes from its alternate source begins, when REFETCH is 1 and there is one (R282). -/
def Dev.startRefetch (d : Dev) (id : Nat) : Dev :=
  match d.copy? id with
  | none => d
  | some c =>
    match d.alternate c.ident with
    | none => d
    | some src =>
      if d.rd TIER_CTRL_REFETCH = 0 ∨ !d.canBind src then d
      else
        let have_ := (c.stripes.filter fun s => !c.bad.contains s).flatMap fun s =>
          (List.range 256).map fun k => (s * stripeBytes - c.start) / 4096 + k
        let d := d.bindWin ⟨src.toNat / 2 ^ 16 % 2 ^ 16, none, some id, 0, 0, 0, c.len, have_, false, 0, false, 0, none, 0⟩
        let d := c.bad.foldl (fun d s => d.sendFetch src (s * stripeBytes) stripeBytes (s * stripeBytes - c.start)) d
        d.updCopy id fun c => { c with refetch := some (d.now + d.rd TIER_CTRL_REFETCH_MS * 100000) }

/-! ### References (R272–R275) -/

/-- The waiting accesses to a range end with a status (R279, R280). -/
def Dev.ctuAnswer (d : Dev) (r : CtuReq) (a : CtuAnswer) : Dev :=
  { d with ctu := { d.ctu with answers := d.ctu.answers ++ [(r, a)] } }

/-- A context takes a reference to a copy, which leaves the age list; the pages of a VALID copy are mapped (R272–R274). -/
def Dev.takeRef (d : Dev) (tag : Nat) (c : Copy) : Dev :=
  let d := d.updCopy c.id fun c => { c with refs := c.refs ++ [tag], stamp := none }
  if c.state = 2 then d.segPages tag c true else d

/-- The frames of a leeward's new copy: those that its windward has placed it on, whose aged copies make way; none before that is known (R459). -/
def Dev.placedFrames (d : Dev) (ident seg : Nat) : Option (List Nat × Dev) :=
  match d.twn.placements.find? fun p => p.1 == ident && p.2.1 == seg with
  | none => none
  | some p =>
    let d := { d with twn := { d.twn with placements := d.twn.placements.erase p } }
    let aged := d.tier.copies.filter fun c => c.stamp.isSome && c.frames.any p.2.2.contains
    some (p.2.2, aged.foldl (fun d c => d.freeCopy c.id) d)

/-- A new copy of a segment takes frames and starts to fill (R275, R276, R282); none when there is no space. -/
def Dev.placeCopy (d : Dev) (tag ident seg start len : Nat) : Option Dev :=
  match (if d.isLeeward then d.placedFrames ident seg else d.takeFrames (len / frameBytes) (d.tier.copies.length + 1)) with
  | none => none
  | some (fr, d) =>
    let id := d.tier.nextCopy
    let c : Copy := ⟨id, ident, seg, start, 1, fr, [tag], [], [], none, none⟩
    let bad := match d.dirent? ident with
      | some e => if isRemote ident then [] else c.stripes.filter e.bad.contains
      | none => []
    let d := { d with tier := { d.tier with nextCopy := id + 1, copies := d.tier.copies ++ [{ c with bad := bad }] } }
    some (if isRemote ident then d else if bad.isEmpty then d else d.startRefetch id)

/-- A copy becomes VALID: pages mapped for every reference, promotions complete OK (R273, R276). -/
def Dev.makeValid (d : Dev) (id : Nat) : Dev :=
  match d.copy? id with
  | none => d
  | some c =>
    let d := d.updCopy id fun c => { c with state := 2, bad := [], refetch := none, got := c.stripes }
    let d := c.refs.foldl (fun d t => d.segPages t c true) d
    (d.waitersOf c).foldl (fun d w => d.endWaiter w .ok) d

/-- A copy becomes BAD: recorded, its promotions complete TIER_DATA_ERROR and keep their references, and a refetch may begin (R280–R282). -/
def Dev.makeBad (d : Dev) (id stripe kind : Nat) : Dev :=
  match d.copy? id with
  | none => d
  | some c =>
    let d := (d.tier.bindings.filter (·.fill == some id)).foldl (fun d b => d.closeWin b.win) d
    let d := d.updCopy id fun c => { c with state := 3, bad := if c.bad.contains stripe then c.bad else c.bad ++ [stripe] }
    let d := (((d.wr TIER_ERR_LOG_OBJ (tierSource c.ident)).wr TIER_ERR_LOG_STRIPE stripe).wr TIER_ERR_LOG_KIND kind).wr TIER_ERR_LOG_VALID 1
    let d := (d.inc TIER_ERR_CNT_DATA_ERR).event 6 2 2 (tierSource c.ident) (c.seg * 2 ^ 32 + stripe) 0 0
    let d := if isRemote c.ident ∨ kind ≠ 0 then d
      else d.updDirent c.ident fun e => { e with bad := if e.bad.contains stripe then e.bad else e.bad ++ [stripe] }
    let d := (d.waitersOf c).foldl (fun d w => d.endWaiter w .tierDataError) d
    if kind < 3 then d.startRefetch id else d

/-- A fill whose Shelf stripe is marked bad and which no refetch can serve makes the copy BAD at once (R282). -/
def Dev.badAtOnce (d : Dev) (ident seg : Nat) : Dev :=
  match d.copyOf ident seg with
  | none => d
  | some c =>
    match c.bad.head? with
    | some s => if c.state = 1 ∧ c.refetch.isNone then d.makeBad c.id s 0 else d
    | none => d

/-- A promotion of a context for a segment is tried: it joins the segment's copy or places a new one; false when it must wait for space (R272, R274, R275). -/
def Dev.tryPromote (d : Dev) (w : Waiter) (start len : Nat) : Dev × Bool :=
  match d.copyOf w.ident w.seg with
  | some c =>
    let d := if c.refs.contains w.tag then d else d.takeRef w.tag c
    if c.state = 2 then (d.endWaiter w .ok, true)
    else if c.state = 3 then (d.endWaiter w .tierDataError, true)
    else ({ d with tier := { d.tier with waiters := updWhere (·.id == w.id) (fun w => { w with placed := true }) d.tier.waiters } }, true)
  | none =>
    match d.placeCopy w.tag w.ident w.seg start len with
    | none => (d, false)
    | some d =>
      let d := { d with tier := { d.tier with waiters := updWhere (·.id == w.id) (fun w => { w with placed := true }) d.tier.waiters } }
      (d.tellDecision.badAtOnce w.ident w.seg, true)

/-- The segment table of a streamed object of a context. -/
def Dev.segsOf (d : Dev) (tag ident : Nat) : List Nat := ((d.openObjs tag ident).head?.map (·.segs)).getD []

/-- Waiting promotions are placed in acceptance order (R275). -/
def Dev.placeWaiting (d : Dev) : Dev :=
  (d.tier.waiters.filter (!·.placed)).foldl (fun d w =>
    let segs := d.segsOf w.tag w.ident
    (d.tryPromote w (segStart segs w.seg) (segs.getD w.seg 0)).1) d

/-- A promotion is accepted (R272): for a PROMOTE task, or on demand without one (R277). -/
def Dev.promoteSeg (d : Dev) (tag : Nat) (o : FeObject) (seg rel : Nat) (op : Option Nat) : Dev :=
  let w : Waiter := ⟨d.tier.nextWait, op, tag, o.ident, seg, d.now + rel, false⟩
  let d := { d with tier := { d.tier with waiters := d.tier.waiters ++ [w], nextWait := d.tier.nextWait + 1 } }
  let (d, ok) := d.tryPromote w (segStart o.segs seg) (o.segs.getD seg 0)
  if ok ∨ d.isLeeward then d else d.event 6 0 4 (tierSource o.ident) (seg * 2 ^ 32) 0 0

/-- The last reference to a copy has gone: a fill stops, anything else joins the age list, and what waits is placed (R274, R279). -/
def Dev.dropLast (d : Dev) (id : Nat) : Dev :=
  match d.copy? id with
  | none => d
  | some c =>
    if !c.refs.isEmpty then d
    else
      let dying := !isRemote c.ident && (d.dirent? c.ident).any (·.state == 3)
      let d := if c.state = 1 ∨ dying then d.freeCopy id else d.updCopy id fun c => { c with stamp := some d.now }
      d.placeWaiting

/-- A context's reference to a copy is dropped (R273, R274). -/
def Dev.dropRef (d : Dev) (tag : Nat) (c : Copy) : Dev :=
  if !c.refs.contains tag then d
  else ((d.segPages tag c false).updCopy c.id fun c => { c with refs := c.refs.filter (· != tag) }).dropLast c.id

/-! ### Tier misses (R277) -/

/-- What Table 9.6 gives a waiting access. -/
def Dev.tierResolve (d : Dev) (r : CtuReq) : Dev :=
  match (d.fe.objects.find? fun o => o.tag == r.tag && o.tier != 0 && decide (o.base ≤ r.va.toNat) && decide (r.va.toNat < o.base + o.size)) with
  | none => d.ctuAnswer r (.ended .rights)
  | some o =>
    let seg := segAt o.segs (r.va.toNat - o.base)
    let wait := fun (d : Dev) => { d with ctu := { d.ctu with tierWait := d.ctu.tierWait ++ [r] } }
    let replay := fun (d : Dev) => match d.xlate r.tag r.va.toNat r.acc with
      | .pa a => d.ctuAnswer r (.pa (BitVec.ofNat 64 a))
      | .ended st => d.ctuAnswer r (.ended st)
      | .waits => wait d
    let demand := o.flags.toNat / 2 ^ 8 % 2 = 1
    match d.copyOf o.ident seg with
    | some c =>
      if c.state = 3 then d.ctuAnswer r (.ended .tierDataError)
      else if c.refs.contains r.tag then (if c.state = 2 then replay d else wait d)
      else if !demand then d.ctuAnswer r (.ended .tierLate)
      else if c.state = 2 then replay (d.takeRef r.tag c)
      else wait (d.promoteSeg r.tag o seg o.deadline none)
    | none =>
      if !demand then d.ctuAnswer r (.ended .tierLate)
      else if d.tier.waiters.any (fun w => w.tag == r.tag && w.ident == o.ident && w.seg == seg) then wait d
      else
        let d := d.promoteSeg r.tag o seg o.deadline none
        match d.copyOf o.ident seg with
        | some c => if c.state = 3 then d.ctuAnswer r (.ended .tierDataError) else wait d
        | none => wait d

/-- The accesses that wait at the tier engine are looked at again, and the status registers and fills follow. -/
def Dev.tierSettleOnce (d : Dev) : Dev :=
  let ws := d.ctu.tierWait
  let d := { d with ctu := { d.ctu with tierWait := [] } }
  ((ws.foldl (fun d r => d.tierResolve r) d).startFills).tierSync

/-- A promotion that is not complete at its deadline ends TIER_LATE, with the accesses of its context that wait on the copy and its reference (R279). -/
def Dev.promotionLate (d : Dev) (w : Waiter) : Dev :=
  let d := (((d.endWaiter w .tierLate).inc TIER_ERR_CNT_LATE).event 6 2 1 (tierSource w.ident) (w.seg * 2 ^ 32) 0 0).tellDecision
  let onCopy := fun (r : CtuReq) => r.tag == w.tag && d.fe.objects.any fun o => o.tag == w.tag && o.tier != 0 && o.ident == w.ident &&
    decide (o.base ≤ r.va.toNat) && decide (r.va.toNat < o.base + o.size) && segAt o.segs (r.va.toNat - o.base) == w.seg
  let rs := d.ctu.tierWait.filter onCopy
  let d := { d with ctu := { d.ctu with tierWait := d.ctu.tierWait.filter fun r => !onCopy r } }
  let d := d.endReqs rs .tierLate
  let d := match d.copyOf w.ident w.seg with
    | some c => if w.placed then d.dropRef w.tag c else d
    | none => d
  d.tierSettleOnce

/-- The deadlines that a windward has decided, met by the promotions that a leeward has by now (R459). -/
def Dev.twinLates (d : Dev) : Dev :=
  d.twn.lates.foldl (fun d l =>
    match d.tier.waiters.find? fun w => w.tag == l.1 && w.ident == l.2.1 && w.seg == l.2.2 with
    | none => d
    | some w => ({ d with twn := { d.twn with lates := d.twn.lates.erase l } }).promotionLate w) d

/-- The tier engine settles: see `tierSettleOnce`; a leeward then meets the deadlines its windward has decided. -/
def Dev.tierSettle (d : Dev) : Dev := d.tierSettleOnce.twinLates

/-- Every reference of a context to an object's copies is dropped and its waiting promotions end ABORTED, as EVICT does (R273, R274). -/
def Dev.dropObject (d : Dev) (tag ident : Nat) : Dev :=
  let ws := d.tier.waiters.filter fun w => w.tag == tag && w.ident == ident
  let d := ws.foldl (fun d w => d.endWaiter w .aborted) d
  (d.tier.copies.filter (·.ident == ident)).foldl (fun d c => d.dropRef tag c) d

/-- A DELETING entry becomes FREE when the last handle to its object is closed (R269). -/
def Dev.closeDirent (d : Dev) (ident : Nat) : Dev :=
  if isRemote ident then d
  else if (d.dirent? ident).any (·.state == 3) ∧ !d.fe.objects.any (fun o => o.tier == 1 && o.ident == ident) then
    let d := (d.tier.copies.filter (·.ident == ident)).foldl (fun d c => d.freeCopy c.id) d
    d.freeDirent ident
  else d

/-! ### Data into bound windows (R285, R287, R394, R396) -/

/-- A refetched copy is checked stripe by stripe; it becomes VALID, and a SHELF copy's stripes are repaired, or it stays BAD (R282, R283). -/
def Dev.refetchDone (d : Dev) (c : Copy) : Dev :=
  let digestOf := fun s => ((d.dirent? c.ident).bind fun e => getKey e.digests s)
  let bytes := fun (s : Nat) => d.bytesAt (c.paOf (s * stripeBytes - c.start)) stripeBytes
  let wrong := if isRemote c.ident then none else c.bad.find? fun s => digestOf s != some (digest256 (bytes s))
  match wrong with
  | some s =>
    let d := (d.inc TIER_ERR_CNT_REFETCH_FAIL).updCopy c.id fun c => { c with refetch := none }
    let d := (((d.wr TIER_ERR_LOG_OBJ (tierSource c.ident)).wr TIER_ERR_LOG_STRIPE s).wr TIER_ERR_LOG_KIND 3).wr TIER_ERR_LOG_VALID 1
    if c.state = 1 then d.makeBad c.id s 3 else d
  | none =>
    let d := if isRemote c.ident then d else c.bad.foldl (fun d s =>
      (d.flashWrite c.ident (s * stripeBytes) (bytes s)).updDirent c.ident fun e => { e with bad := e.bad.filter (· != s) }) d
    let d := (d.inc TIER_ERR_CNT_REFETCH_OK).event 6 1 3 (tierSource c.ident) (c.seg * 2 ^ 32 + c.bad.headD 0) 0 0
    let d := d.updCopy c.id fun x => { x with bad := [], refetch := none, got := x.got ++ c.bad }
    let all := c.stripes.all fun s => c.got.contains s || c.bad.contains s
    if c.state = 3 ∨ all then d.makeValid c.id else d

/-- A binding that every block and the final write have reached is complete (R285, R287). -/
def Dev.bindDone (d : Dev) (b : Binding) : Dev :=
  let d := d.closeWin b.win
  match b.fill with
  | some id =>
    match d.copy? id with
    | none => d
    | some c => if c.refetch.isSome then d.refetchDone c else d.makeValid id
  | none =>
    let st := if b.poisoned then Status.tierDataError else Status.ok
    let d := match d.xlate b.tag b.record .write with
      | .pa a => d.putRecord a (leBytes 8 (statusCode st) ++ leBytes 8 b.bytes)
      | _ => d
    let d := match b.fence with
      | some i => if (d.fence? i).isSome then d.signalFence i b.value else d
      | none => d
    match b.op with
    | some op => d.finish op .ok
    | none => d

/-- A write accepted into a bind window (R285, R394, R396). -/
def Dev.bindWrite (d : Dev) (win off : Nat) (bs : List Byte) (pmask : BitVec 64) (final : Bool) : Dev :=
  match d.binding? win with
  | none => d
  | some b =>
    let target := match b.fill with
      | some id => (d.copy? id).map fun c => c.paOf off
      | none => (d.object? b.obj).map fun o => o.paOf (b.base + off)
    match target with
    | none => d
    | some pa =>
      let d := d.putMasked pa bs pmask
      let blk := off / 4096
      let b' := { b with
        blocks := if b.blocks.contains blk then b.blocks else b.blocks ++ [blk]
        final := b.final || final, bytes := b.bytes + bs.length, poisoned := b.poisoned || pmask != 0 }
      let d := { d with tier := { d.tier with bindings := updWhere (·.win == win) (fun _ => b') d.tier.bindings } }
      match b.fill, decide (pmask = 0) with
      | some id, false =>
        match d.copy? id with
        | some c => (d.makeBad id ((c.start + off) / stripeBytes) 1).tierSettle
        | none => d
      | _, _ =>
        if b'.final ∧ b'.blocks.length = (b'.len + 4095) / 4096 then (d.bindDone b').tierSettle else d

end Sys2Proof.Machine
end

