-- ==== Sys2Proof/Machine/CohOps.lean ====
section
/-! DEFINITION. The shared operations on the caches and their homes: what a home does for each request (R297–R301), write hints (R305–R307), the death of agents (R311–R314). -/

namespace Sys2Proof.Machine

/-! ### Agents (Table 10.6) -/

/-- The physical core of a core L2 and its die. (DESIGN CHOICE, assumption 8) -/
def cacheDie (c : Nat) : Nat := c / 33
def cacheCore (c : Nat) : Nat := c % 33

/-- The agent of a tracked cache: the cluster of a core L2; a system cache is no agent. -/
def cacheAgent (c : Nat) : Option Nat := if c < 66 then some (16 * cacheDie c + cacheCore c / 4) else none

/-- The core L2s of a cluster. -/
def clusterCaches (agent : Nat) : List Nat := (List.range 66).filter fun c => cacheAgent c == some agent

/-- Whether an agent ID names a core cluster. -/
def isCluster (a : Nat) : Bool := decide (a < 9) || (decide (16 ≤ a) && decide (a < 25))

/-- Whether an agent ID is listed, and its class: 0 user, 1 system. -/
def agentClass (a : Nat) : Option Nat :=
  if a < 9 ∨ (16 ≤ a ∧ a < 25) ∨ (0x20 ≤ a ∧ a ≤ 0x3A) then some 0
  else if (0x40 ≤ a ∧ a ≤ 0x44) ∨ (0x48 ≤ a ∧ a ≤ 0x4C) ∨ a = 0x50 ∨ a = 0x51 ∨ (0x54 ≤ a ∧ a ≤ 0x5B) then some 1
  else none

/-- Whether a cache is in service: a core L2 of an ACTIVE or CLEANING cluster, a system cache always. -/
def Dev.cacheLives (d : Dev) (c : Nat) : Bool :=
  match cacheAgent c with
  | some a => d.agentState a == 0 || d.agentState a == 1
  | none => decide (c < 68)

/-! ### Lines and filter entries -/

def Dev.cline? (d : Dev) (c l : Nat) : Option CLine := d.coh.lines.find? fun x => x.cache == c && x.line == l
def Dev.dup? (d : Dev) (c l : Nat) : Option Dup := d.coh.dups.find? fun x => x.cache == c && x.line == l

/-- The device with its coherence state changed. -/
def Dev.updCoh (d : Dev) (f : Coh → Coh) : Dev := { d with coh := f d.coh }

/-- A line leaves a cache, and with it a reservation on it (R294). -/
def Dev.dropLine (d : Dev) (c l : Nat) : Dev :=
  let d := d.updCoh fun h => { h with lines := h.lines.filter fun x => !(x.cache == c && x.line == l) }
  let cs := updWhere (fun k => k.id == c && k.resv == some l) (fun (k : Core) => { k with resv := none }) d.cores.cores
  { d with cores := { d.cores with cores := cs } }

/-- A cache holds a line in a state from now on. -/
def Dev.putLine (d : Dev) (x : CLine) : Dev :=
  d.updCoh fun h => { h with lines := (h.lines.filter fun y => !(y.cache == x.cache && y.line == x.line)) ++ [x] }

/-- A filter entry of a home. -/
def Dev.putDup (d : Dev) (c l : Nat) (owned : Bool) : Dev :=
  d.updCoh fun h => { h with dups := (h.dups.filter fun y => !(y.cache == c && y.line == l)) ++ [⟨c, l, owned⟩] }
def Dev.clearDup (d : Dev) (c l : Nat) : Dev :=
  d.updCoh fun h => { h with dups := h.dups.filter fun y => !(y.cache == c && y.line == l) }

/-- A whole line written at its home: the memory's bytes and mark, whatever the caches hold. (DESIGN CHOICE, assumption 19) -/
def Dev.homeWrite (d : Dev) (l : Nat) (data : BitVec 512) (bad : Bool) : Dev :=
  { d with pool := { d.pool with hbm := hbmWrite d.pool.hbm (l * 64) (lineBytes data)
                                 poison := sput (fun _ => false) d.pool.poison l bad } }

/-- A line at its home. -/
def Dev.homeLine (d : Dev) (l : Nat) : BitVec 512 := lineOf ((List.range 64).map fun i => d.memByte (l * 64 + i))
def Dev.homePoison (d : Dev) (l : Nat) : Bool := d.memPoison (l * 64)

/-- The ways in use of a tracked cache's set and the lines there (Table 10.1, R309). (DESIGN CHOICE, assumption 20) -/
def Dev.setFull (d : Dev) (c l : Nat) : Bool :=
  let (sets, ways) := if c < 66 then (1024, 16) else (65536, min (d.rd (COH_WAYS_TARGET (4 + (c - 66)))) (d.rd (COH_WAYS_IN_FORCE (4 + (c - 66)))))
  decide (ways ≤ (d.coh.lines.filter fun x => x.cache == c && x.line % sets == l % sets).length)

/-! ### Requests at a home (Table 10.2) -/

/-- The cache that a request comes from, if a tracked one. -/
def HomeReq.cache : HomeReq → Option Nat
  | .rdShared c | .rdOwn c | .upgrade c | .clean c | .flush c | .move c => some c
  | _ => none

/-- The snoop that a request needs and whom it is sent to: 0 SNP_SHARE, 1 SNP_CLEAN, 2 SNP_INV. -/
def Dev.snoopOf (d : Dev) (l : Nat) (r : HomeReq) : Nat × List Nat :=
  let others := d.coh.dups.filter fun x => x.line == l && r.cache != some x.cache
  let owner := (others.filter (·.owned)).map (·.cache)
  let all := others.map (·.cache)
  match r with
  | .rdShared _ => (0, owner)
  | .rdOwn _ | .upgrade _ | .wr _ _ _ _ _ | .atom _ _ => (2, all)
  | .rdOnce _ => (1, owner)
  | .clean c => (1, owner ++ (d.coh.dups.filter fun x => x.line == l && x.cache == c && x.owned).map (·.cache))
  | .flush c => (2, all ++ (d.coh.dups.filter fun x => x.line == l && x.cache == c).map (·.cache))
  | .move _ => (0, [])

/-- The hint that a write carries: its own, else the first COH_HINT_RANGE entry that contains the line (R306). -/
def Dev.hintFor (d : Dev) (l : Nat) (own : Nat) : Nat :=
  if own / 128 = 1 then own
  else
    let f := l / 2 ^ 15
    let inR := fun i => decide (d.rd (COH_HINT_RANGE_FIRST i) ≤ f) && decide (f ≤ d.rd (COH_HINT_RANGE_LAST i)) &&
      d.rd (COH_HINT_RANGE_HINT i) / 128 == 1
    match (List.range 8).find? inR with
    | some i => d.rd (COH_HINT_RANGE_HINT i)
    | none => 0

/-- The cache that a hint names: the system cache of its die, or the L2 of the physical core behind its logical core (Table 10.4). -/
def Dev.hintCache (d : Dev) (h : Nat) : Option Nat :=
  let die := h / 32 % 2
  if h / 64 % 2 = 1 then some (66 + die)
  else
    (d.physCore die (h % 32)).map (33 * die + ·)

/-- A hinted write's line is installed in its target at once, or the hint is dropped (R307). -/
def Dev.install (d : Dev) (l : Nat) (own : Nat) : Dev :=
  let h := d.hintFor l own
  if h / 128 = 0 then d
  else
    let ok := match d.hintCache h with
      | some c => d.rd COH_CTRL_HINT_EN == 1 && (match cacheAgent c with | some a => d.agentState a == 0 | none => true) &&
          !d.homePoison l && !(d.coh.txns.any fun t => t.line == l && t.req.cache == some c) &&
          !(d.coh.waiting.any fun w => w.1 == l && w.2.cache == some c) &&
          !d.setFull c l
      | none => false
    match ok, d.hintCache h with
    | true, some c => ((d.putLine ⟨c, l, .e, d.homeLine l, false⟩).putDup c l true).inc COH_HINT_STATUS_INSTALLED
    | _, _ => d.inc COH_HINT_STATUS_DROPPED

/-- An answer of a home to an agent. -/
def Dev.homeAnswer (d : Dev) (a : HomeAnswer) : Dev := d.updCoh fun h => { h with answers := h.answers ++ [a] }

/-- The lanes of an atomic performed on a line in ascending order: the line and the values before (R188). -/
def atomLanes : BitVec 512 → List AtomLane → BitVec 512 × List Word
  | x, [] => (x, [])
  | x, a :: r =>
    let n := if a.wide then 8 else 4
    let old := x.toNat / 2 ^ (8 * a.off) % 2 ^ (8 * n)
    let v := (atomResult a.func.toNat a.wide old (a.a.toNat % 2 ^ (8 * n)) (a.b.toNat % 2 ^ (8 * n))).getD old
    let x' := BitVec.ofNat 512 (x.toNat - old * 2 ^ (8 * a.off) + v * 2 ^ (8 * a.off))
    let (y, olds) := atomLanes x' r
    (y, BitVec.ofNat 64 old :: olds)

/-- A masked write merged over a line. -/
def mergeLine (old new : BitVec 512) (mask : BitVec 64) : BitVec 512 :=
  lineOf ((List.range 64).map fun i => if mask.getLsbD i then lineByte new i else lineByte old i)

/-- A request performed at its home once every snoop it needed has been answered (Table 10.2). -/
def Dev.perform (d : Dev) (l : Nat) (r : HomeReq) : Dev :=
  let shared := d.coh.dups.any fun x => x.line == l && r.cache != some x.cache
  let grant := fun (d : Dev) (c : Nat) (st : Mesi) =>
    if d.cacheLives c then
      (d.putLine ⟨c, l, st, d.homeLine l, d.homePoison l⟩).putDup c l (st != .s)
    else d
  match r with
  | .rdShared c => grant d c (if shared then .s else .e)
  | .rdOwn c => grant d c .e
  | .upgrade c =>
    match d.cline? c l with
    | some x => if x.st = .s then (d.putLine { x with st := .e }).putDup c l true else grant d c .e
    | none => grant d c .e
  | .rdOnce a => d.homeAnswer ⟨a, l, d.homeLine l, d.homePoison l, []⟩
  | .wr _ mask data bad hint =>
    let whole := mask == BitVec.allOnes 64
    (d.homeWrite l (mergeLine (d.homeLine l) data mask) (bad || (!whole && d.homePoison l))).install l hint.toNat
  | .atom a lanes =>
    let (x, olds) := atomLanes (d.homeLine l) lanes
    (d.homeWrite l x (d.homePoison l)).homeAnswer ⟨a, l, d.homeLine l, d.homePoison l, olds⟩
  | .clean _ => d
  | .flush c => d.clearDup c l
  | .move c =>
    match d.dup? (66 + cacheDie c) l with
    | some e => (d.clearDup (66 + cacheDie c) l).putDup c l e.owned
    | none => d

/-- A line's transaction has ended: the requests behind it are taken in order (R297). -/
def Dev.nextOnLine (d : Dev) (l : Nat) : Nat → Dev
  | 0 => d
  | n + 1 =>
    if d.coh.txns.any (·.line == l) then d
    else match d.coh.waiting.find? (·.1 == l) with
      | none => d
      | some w =>
        let d := d.updCoh fun h => { h with waiting := h.waiting.erase w }
        let (k, cs) := d.snoopOf l w.2
        if cs.isEmpty then (d.perform l w.2).nextOnLine l n
        else d.updCoh fun h => { h with txns := h.txns ++ [⟨l, w.2, k, cs⟩] }

/-- A request reaches the home of its line and is taken up there in order (R297). -/
def Dev.homeRequest (d : Dev) (l : Nat) (r : HomeReq) : Dev :=
  let d := d.updCoh fun h => { h with waiting := h.waiting ++ [(l, r)] }
  d.nextOnLine l (d.coh.waiting.length)

/-- A transaction whose snoops have all been answered is performed. -/
def Dev.txnStep (d : Dev) (l : Nat) : Dev :=
  match d.coh.txns.find? (·.line == l) with
  | none => d
  | some t =>
    if t.wait.isEmpty then
      let d := d.updCoh fun h => { h with txns := h.txns.filter (·.line != l) }
      (d.perform l t.req).nextOnLine l (d.coh.waiting.length + 1)
    else d

/-- A write that a core's cache makes at a home joins the stream of the core's task (R466). -/
def Dev.streamCache (d : Dev) (c : Nat) : Dev :=
  match (d.cores.cores.find? (·.id == c)).bind (·.task) with
  | some t => d.tellStream t.op
  | none => d

/-- A cache has answered its snoop, with dirty data where it held some; the home writes that, changes the entry and goes on (R300, R301). -/
def Dev.snoopDone (d : Dev) (c l : Nat) (gone : Bool) (data : Option (BitVec 512 × Bool)) : Dev :=
  match d.coh.txns.find? (·.line == l) with
  | none => d
  | some t =>
    let d := match data with
      | some (x, bad) => (d.homeWrite l x bad).streamCache c
      | none => d
    let d := if gone ∨ t.snoop = 2 then d.clearDup c l else if t.snoop = 0 then d.putDup c l false else d
    let d := d.updCoh fun h => { h with
      txns := updWhere (·.line == l) (fun t => { t with wait := t.wait.filter (· != c) }) h.txns
      snpAns := h.snpAns.filter fun a => !(a.cache == c && a.line == l) }
    d.txnStep l

/-! ### Death (R311–R314) -/

/-- The coherent domain goes down with the death of a system-class agent: FATAL is set, the twin is told, and the fatal handler begins its dump unless one is held (R314, R473, R509, R511). -/
def Dev.beginDump (d : Dev) (seq agent cause die : Nat) : Dev :=
  if d.rd TDM_DUMP_VALID = 1 then d.wr TDM_DUMP_KEPT 1
  else match d.tdm.dump with
    | some p => { d with tdm := { d.tdm with dump := some { p with second := true } } }
    | none =>
      let d := d.wr TDM_DUMP_STATE 1
      { d with tdm := { d.tdm with dump := some ⟨false, seq, d.now, agent, cause, die, false, 0, none⟩ } }

/-- FAILING goes to the partner and the module's egress stops (R473). -/
def Dev.sendFailing (d : Dev) : Dev :=
  if d.rd TWN_STATUS_ROLE = 0 ∧ (d.twState = 1 ∨ d.twState = 2 ∨ d.twState = 3 ∨ d.twState = 4) then
    let d := d.send (.twin 0 9 0)
    { d with twn := { d.twn with sendStopped := true } }
  else d

/-- A system-class agent is declared dead (R314). -/
def Dev.domainDown (d : Dev) (agent cause : Nat) : Dev :=
  if d.down then d.beginDump 0 agent cause 0xFF
  else
    let d := ((d.wr COH_STATUS_FATAL 1).wr COH_STATUS_FATAL_AGENT agent).wr COH_STATUS_FATAL_CAUSE cause
    let d := (d.wr (COH_AGENT_STATE agent) 3).event 4 3 4 agent 0 cause 0
    let d := { d with ras := { d.ras with deadAgents := d.ras.deadAgents ++ [agent] } }
    (d.sendFailing).beginDump (d.rd TDM_SEQ_SEQ + d.tdm.reports.length) agent cause 0xFF

/-- The operations that a dead agent was serving complete RESOURCE_LOST (R312, R313). -/
def Dev.endServed (d : Dev) (agent : Nat) : Dev :=
  let served := fun (o : FeOp) =>
    if 0x20 ≤ agent ∧ agent ≤ 0x33 then o.opcode == 3 && o.unit == agent - 0x20
    else if agent = 0x34 ∨ agent = 0x35 then o.opcode == 4
    else if agent = 0x36 ∨ agent = 0x37 then o.opcode == 5
    else isCluster agent && o.opcode == 6 && o.phase != .dispatched && (cacheAgent o.unit == some agent)
  let d := (d.fe.ops.filter served).foldl (fun d o => d.finish o.id .resourceLost) d
  let cs := updWhere (fun (k : Core) => cacheAgent k.id == some agent) (fun k => { k with task := none, held := none, resv := none }) d.cores.cores
  let d := { d with cores := { d.cores with cores := cs } }
  let d := if agent = 0x38 then { d with str := { d.str with dmaDead := true } } else d
  if agent = 0x39 ∨ agent = 0x3A then { d with nfp := { d.nfp with rxDead := d.nfp.rxDead ++ [agent - 0x39] } } else d

/-- A user-class agent is declared dead: its lines are reclaimed at every home, owned ones written poisoned, and its work ends (R312). -/
def Dev.agentDies (d : Dev) (agent : Nat) : Dev :=
  if d.agentState agent = 3 then d
  else
    let mine := fun (c : Nat) => cacheAgent c == some agent
    let held := d.coh.dups.filter fun x => mine x.cache
    let owned := held.filter (·.owned)
    let d := owned.foldl (fun d x => d.homeWrite x.line (d.homeLine x.line) true) d
    let d := d.updCoh fun h => { h with
      lines := h.lines.filter fun x => !mine x.cache
      dups := h.dups.filter fun x => !mine x.cache
      waiting := h.waiting.filter fun w => !(w.2.cache.any mine)
      snpAns := h.snpAns.filter fun a => !mine a.cache
      txns := h.txns.map fun t => { t with wait := t.wait.filter fun c => !mine c } }
    let d := ((d.wr (COH_AGENT_STATE agent) 3).wr (COH_AGENT_RECLAIMED agent) held.length).wr (COH_AGENT_POISONED agent) owned.length
    let d := (d.inc COH_STATUS_DEAD_USER).event 4 2 3 agent 0 held.length owned.length
    let d := { d with ras := { d.ras with deadAgents := d.ras.deadAgents ++ [agent] } }
    let d := d.endServed agent
    ((d.coh.txns.filter (·.wait.isEmpty)).map (·.line)).foldl (fun d l => d.txnStep l) d

end Sys2Proof.Machine
end

