-- ==== Sys2Proof/Machine/Operands.lean ====
section
/-! DEFINITION. The operand forms of the two programs of the Reef: the fields of lane instructions (Table 6.3) and of sequencer slots (Table 4.7), and the registers they read and write (R109, R162). -/

namespace Sys2Proof

/-! ### Fields of a lane instruction (Table 6.3) -/

/-- RB, RC, RM and SAT of the R format, and its reserved bits. -/
def LaneArgs.rb (l : LaneArgs) : Nat := (l.low.extractLsb' 24 8).toNat
def LaneArgs.rc (l : LaneArgs) : Nat := (l.low.extractLsb' 16 8).toNat
def LaneArgs.rm (l : LaneArgs) : Nat := (l.low.extractLsb' 14 2).toNat
def LaneArgs.sat (l : LaneArgs) : Bool := l.low.getLsbD 13
def LaneArgs.rsvd (l : LaneArgs) : Nat := (l.low.extractLsb' 0 13).toNat

/-- IMM of the I format, signed, and OFF of the M format. -/
def LaneArgs.imm (l : LaneArgs) : Int := l.low.toInt
def LaneArgs.off (l : LaneArgs) : Int := (l.low.extractLsb' 0 24).toInt
def LaneArgs.offBits (l : LaneArgs) : Nat := (l.low.extractLsb' 0 24).toNat

end Sys2Proof

namespace Sys2Proof.Machine

/-! ### Lane registers and predicates (R162) -/

/-- The key of a lane of a group slot. -/
def laneKey (tile slot lane : Nat) : Nat := (tile * 32 + slot) * 32 + lane

/-- A register of a lane; V0 reads 0. -/
def Threads.reg (t : Threads) (lk r : Nat) : Nat :=
  if r = 0 then 0 else (sget (fun _ => 0) t.v (lk * 256 + r)).toNat

/-- A register pair, the low word in the even one. -/
def Threads.pair (t : Threads) (lk r : Nat) : Nat := t.reg lk r + 2 ^ 32 * t.reg lk (r + 1)

/-- A register written; V0 ignores writes. -/
def Threads.setReg (t : Threads) (lk r v : Nat) : Threads :=
  if r = 0 then t else { t with v := sput (fun _ => 0) t.v (lk * 256 + r) (BitVec.ofNat 32 v) }

/-- A register pair written. -/
def Threads.setPair (t : Threads) (lk r v : Nat) : Threads := (t.setReg lk r v).setReg lk (r + 1) (v / 2 ^ 32)

/-- A predicate of a lane; P0 reads 1. -/
def Threads.pred (t : Threads) (lk p : Nat) : Bool := if p % 8 = 0 then true else sget (fun _ => false) t.p (lk * 8 + p % 8)

/-- A predicate written; P0 ignores writes. -/
def Threads.setPred (t : Threads) (lk p : Nat) (b : Bool) : Threads :=
  if p % 8 = 0 then t else { t with p := sput (fun _ => false) t.p (lk * 8 + p % 8) b }

/-- The guard of a lane instruction: P[PI] XOR PN (R163). -/
def Threads.guard (t : Threads) (lk : Nat) (l : LaneArgs) : Bool := (t.pred lk l.pi.toNat) != l.pn

/-! ### Sequencer registers (Table 4.4) -/

/-- An X register; X0 reads 0. -/
def Seq.xr (s : Seq) (r : Nat) : Word := if r % 64 = 0 then 0 else sget (fun _ => 0) s.x (r % 64)

/-- An X register written; X0 ignores writes. -/
def Seq.setX (s : Seq) (r : Nat) (v : Word) : Seq :=
  if r % 64 = 0 then s else { s with x := sput (fun _ => 0) s.x (r % 64) v }

end Sys2Proof.Machine
end

