-- ==== Sys2Proof/Machine/TileOps.lean ====
section
/-! DEFINITION. The shared operations on tiles: local store and accumulators (R70, R75), the tile L1 and its invalidate-all (R181, R291–R293, R304). -/

namespace Sys2Proof.Machine

/-! ### Local store and accumulators -/

/-- The bytes of a segment of tile SRAM (R75). -/
def segBytes : Nat := 131072

/-- A byte of a tile's local store. -/
def Tiles.lsByte (t : Tiles) (tile a : Nat) : Byte := sget (fun _ => 0) t.ls (tile * 2 ^ 21 + a)

/-- A number of `n` bytes of a tile's local store. -/
def Tiles.lsNat (t : Tiles) (tile a n : Nat) : Nat := leNat ((List.range n).map fun i => t.lsByte tile (a + i))

/-- Whether a range of a tile's local store holds poison. -/
def Tiles.lsBad (t : Tiles) (tile a n : Nat) : Bool :=
  (List.range ((a % 64 + n + 63) / 64)).any fun i => sget (fun _ => false) t.lsPoison (tile * 2 ^ 15 + a / 64 + i)

/-- Bytes written to a tile's local store, with a poison mark: a partial write keeps a line's mark (R244, R290). -/
def Tiles.lsPut (t : Tiles) (tile a : Nat) (bs : List Byte) (bad : Bool := false) : Tiles :=
  { t with ls := hbmWrite t.ls (tile * 2 ^ 21 + a) bs, lsPoison := poisonWrite t.lsPoison (tile * 2 ^ 21 + a) bs.length bad }

/-- The key of an accumulator entry: tile, bank, row, column. -/
def accKey (tile bank i j : Nat) : Nat := ((tile * 2 + bank) * 64 + i) * 128 + j

/-- An accumulator entry (R70, R74). -/
def Tiles.accAt (t : Tiles) (tile bank i j : Nat) : Nat := (sget (fun _ => 0) t.acc (accKey tile bank i j)).toNat
def Tiles.accBad (t : Tiles) (tile bank i j : Nat) : Bool := sget (fun _ => false) t.accPoison (accKey tile bank i j)

/-- An accumulator entry written, with a poison mark. -/
def Tiles.accPut (t : Tiles) (tile bank i j v : Nat) (bad : Bool) : Tiles :=
  { t with acc := sput (fun _ => 0) t.acc (accKey tile bank i j) (BitVec.ofNat 32 v)
           accPoison := sput (fun _ => false) t.accPoison (accKey tile bank i j) bad }

/-- The device with its tiles changed. -/
def Dev.updTiles (d : Dev) (f : Tiles → Tiles) : Dev := { d with tiles := f d.tiles }

/-! ### Lines written at their homes -/

/-- The runs of set bits of a mask from bit `i` on: first bit and length. -/
def maskRuns (m : BitVec 64) : Nat → Nat → Option (Nat × Nat) → List (Nat × Nat)
  | 0, _, run => run.toList
  | n + 1, i, run =>
    if m.getLsbD i then maskRuns m n (i + 1) (some (match run with | some (s, l) => (s, l + 1) | none => (i, 1)))
    else run.toList ++ maskRuns m n (i + 1) none

/-- Masked bytes of a line written at its home, a hint range applying (Table 10.2, R306). -/
def Dev.putLineMasked (d : Dev) (l : Nat) (data : BitVec 512) (mask : BitVec 64) (bad : Bool) (hint : Nat := 0) : Dev :=
  let d := d.recall l
  let whole := mask == BitVec.allOnes 64
  (d.homeWrite l (mergeLine (d.homeLine l) data mask) (bad || (!whole && d.homePoison l))).install l hint

/-- Masked bytes of a line sent to a physical address of any kind: its home, the host or another module (R289, R343). -/
def Dev.putAnywhere (d : Dev) (tag : Nat) (op : Option Nat) (pa : Nat) (data : BitVec 512) (mask : BitVec 64) (bad : Bool)
    (hint : Nat := 0) : Except Xlate Dev :=
  let part := fun (r : Nat × Nat) => ((lineBytes data).drop r.1).take r.2
  let pm : BitVec 64 := if bad then 1 else 0
  if inPool pa then
    let d := d.putLineMasked (pa / 64) data mask bad hint
    .ok (match op with
      | some id => d.tellStream id
      | none => d)
  else if 2 ^ 63 ≤ pa then
    (maskRuns mask 64 0 none).foldlM (fun d r =>
      match d.remote tag 1 op (pa / 64 * 64 + r.1) r.2 (part r) pm with
      | some d => Except.ok d
      | none => .error (.ended .rights)) d
  else
    (maskRuns mask 64 0 none).foldlM (fun d r =>
      match d.hostWrite (pa / 64 * 64 + r.1) (part r) pm with
      | (d, .ok) => Except.ok d
      | (_, st) => .error (.ended st)) d

/-! ### The tile L1 (R291) -/

def Dev.l1? (d : Dev) (tile tag vl : Nat) : Option L1Line :=
  d.tiles.l1.find? fun x => x.tile == tile && x.tag == tag && x.vline == vl

/-- A line of a tile L1 as it is from now on. -/
def Dev.putL1 (d : Dev) (x : L1Line) : Dev :=
  d.updTiles fun t => { t with l1 := (t.l1.filter fun y => !(y.tile == x.tile && y.tag == x.tag && y.vline == x.vline)) ++ [x] }
def Dev.dropL1 (d : Dev) (tile tag vl : Nat) : Dev :=
  d.updTiles fun t => { t with l1 := t.l1.filter fun y => !(y.tile == tile && y.tag == tag && y.vline == vl) }

/-- The dirty bytes of a line written back, translated as they leave (R181, R328). -/
def Dev.writeBack (d : Dev) (x : L1Line) : Except Xlate Dev :=
  if x.dirty = 0 then .ok d
  else match d.xlate x.tag (x.vline * 64) .write with
    | .pa a =>
      let op := (d.thr.launches.find? fun l => l.tag == x.tag && l.tiles.contains x.tile).map (·.op)
      (d.putAnywhere x.tag none a x.data x.dirty x.poisoned).map fun d =>
        match op with
        | some id => if inPool a then d.tellStream id else d
        | none => d
    | e => .error e

/-- Room for a new line in its set: a full set gives up the line that replacement picks, which is written back first (R291, R304, DESIGN CHOICE, assumption 4). -/
def Dev.l1Room (d : Dev) (tile vl : Nat) : Except Xlate Dev :=
  let set := d.tiles.l1.filter fun x => x.tile == tile && x.vline % 2048 == vl % 2048
  if set.length < 16 - d.tiles.split then .ok d
  else
    let (w, d) := d.free
    match set[w.toNat % max 1 set.length]? with
    | none => .ok d
    | some x =>
      match d.writeBack x with
      | .ok d => .ok (d.dropL1 x.tile x.tag x.vline)
      | .error e => .error e

/-- Bytes stored through a tile L1: a miss allocates the line with only these bytes valid and dirty (R291). -/
def Dev.l1Store (d : Dev) (tile tag va : Nat) (bs : List Byte) : Except Xlate Dev :=
  let vl := va / 64
  let put := fun (d : Dev) (x : L1Line) =>
    let n := bs.length
    let m : BitVec 64 := BitVec.ofNat 64 ((2 ^ n - 1) * 2 ^ (va % 64))
    let new := BitVec.ofNat 512 (leNat bs * 2 ^ (8 * (va % 64)))
    d.putL1 { x with valid := x.valid ||| m, dirty := x.dirty ||| m, data := mergeLine x.data new m }
  match d.l1? tile tag vl with
  | some x => .ok (put d x)
  | none =>
    match d.l1Room tile vl with
    | .ok d => .ok (put d ⟨tile, tag, vl, 0, 0, 0, false⟩)
    | .error e => .error e

/-- A line filled with what its home holds, its dirty bytes kept (R291). -/
def Dev.l1Fill (d : Dev) (tile tag vl : Nat) (data : BitVec 512) (bad : Bool) : Except Xlate Dev :=
  match d.l1? tile tag vl with
  | some x => .ok (d.putL1 { x with valid := BitVec.allOnes 64, data := mergeLine data x.data x.dirty, poisoned := x.poisoned || bad })
  | none =>
    match d.l1Room tile vl with
    | .ok d => .ok (d.putL1 ⟨tile, tag, vl, BitVec.allOnes 64, 0, data, bad⟩)
    | .error e => .error e

/-- A line as a coherent read gives it (RD_ONCE of Table 10.2). -/
def Dev.readLine (d : Dev) (l : Nat) : BitVec 512 := lineOf (d.bytesAt (l * 64) 64)

/-- A request to the host, outstanding under a new tag; a mute module sends none (R411, R463, R473). -/
def StrReq.msg (r : StrReq) : Msg :=
  match r.atom with
  | none => .straitRd r.tag r.addr r.len
  | some (aop, a, b) => .straitAtom r.tag r.addr aop a b
def Dev.askHost (d : Dev) (p n : Nat) (op : Option Nat) (core : Option Nat := none) (atom : Option (BitVec 8 × Word × Word) := none) : Dev :=
  if !d.straitUp then d
  else
    let t := d.str.nextTag
    let r : StrReq := ⟨t, p, n, op, core, atom⟩
    let d := { d with str := { d.str with nextTag := (t + 1) % 65536, reqs := d.str.reqs ++ [r] } }
    if d.mute then d else d.send r.msg

/-- A request for `n` bytes at an address outside the pool: a host read or a remote read (R343, R411). -/
def Dev.askOutside (d : Dev) (tag : Nat) (op : Option Nat) (pa n : Nat) : Dev :=
  if 2 ^ 63 ≤ pa then (d.remote tag 2 op pa n [] 0).getD d
  else match d.hostAddr pa with
    | none => d
    | some p => d.askHost p n op

/-- Why a read outside the pool has no answer to wait for: no segment of the host window, Strait not UP, or no job entry of the context (R389, R411, R419). -/
def Dev.outsideStop (d : Dev) (tag a : Nat) : Option Status :=
  if 2 ^ 63 ≤ a then (if (d.tagJob tag).isNone then some .rights else none)
  else if (d.hostAddr a).isNone then some .rights
  else if d.straitUp then none else some .resourceLost

/-- AOP of an atomic to the host, by the FUNC of Table 6.4: only ADD, EXCH and CAS have one (Tables 14.2, 14.4). -/
def strAop (func : Nat) (wide : Bool) : Option (BitVec 8) :=
  let code := fun (n : Nat) => some (BitVec.ofNat 8 (n + if wide then 128 else 0))
  match func with
  | 0 => code 0
  | 9 => code 1
  | 10 => code 2
  | _ => none

/-- Why an atomic outside the pool is not sent: none of Table 14.4's, or no path of COMPUTE ports (R387, R421). -/
def Dev.atomStop (d : Dev) (tag a func : Nat) (wide : Bool) : Option Status :=
  match d.outsideStop tag a with
  | some st => some st
  | none =>
    if 2 ^ 63 ≤ a then (if d.atomPath (a / 2 ^ 48 % 2 ^ 15) then none else some .rights)
    else if (strAop func wide).isSome then none else some .rights

/-- An atomic sent to the host or to another module. -/
def Dev.askAtom (d : Dev) (tag pa func : Nat) (wide : Bool) (core : Option Nat) (x y : Nat) : Dev :=
  let n := if wide then 8 else 4
  if 2 ^ 63 ≤ pa then
    (d.remote tag 3 none pa (8 + 2 * n) (leBytes 8 (func + if wide then 128 else 0) ++ leBytes n x ++ leBytes n y) 0).getD d
  else match d.hostAddr pa, strAop func wide with
    | some h, some aop => d.askHost h n none core (some (aop, BitVec.ofNat 64 x, BitVec.ofNat 64 y))
    | _, _ => d

/-! ### Invalidate-all (R293) -/

/-- A tile's invalidate-all begins. -/
def Dev.l1Walk (d : Dev) (tile : Nat) : Dev :=
  if d.tiles.l1Busy.contains tile then d else d.updTiles fun t => { t with l1Busy := t.l1Busy ++ [tile] }

/-- The lines of a tile's L1. -/
def Dev.l1Lines (d : Dev) (tile : Nat) : List L1Line := d.tiles.l1.filter (·.tile == tile)

/-- Every dirty line of a list written back: the device and the first error; a write-back that waits stops the walk. -/
def Dev.writeBackAll (d : Dev) : List L1Line → Option (Dev × Option Status)
  | [] => some (d, none)
  | x :: r =>
    match d.writeBack x with
    | .ok d => d.writeBackAll r
    | .error (.ended st) => (d.writeBackAll r).map fun p => (p.1, some (p.2.getD st))
    | .error _ => none

end Sys2Proof.Machine
end

