-- ==== Sys2Proof/Machine/ThrOps.lean ====
section
/-! DEFINITION. The shared operations on thread groups: launches and blocks (R156–R172), paths (R173–R177), barriers (R178–R180), reductions (R190, R191), errors and ends (R192, R193), and the issue of one lane instruction (R163–R168). -/

namespace Sys2Proof.Machine

/-- The device with its thread state changed. -/
def Dev.updThr (d : Dev) (f : Threads → Threads) : Dev := { d with thr := f d.thr }

def Dev.thrL? (d : Dev) (op : Nat) : Option ThrLaunch := d.thr.launches.find? (·.op == op)
def Dev.updThrL (d : Dev) (op : Nat) (f : ThrLaunch → ThrLaunch) : Dev :=
  d.updThr fun t => { t with launches := updWhere (·.op == op) f t.launches }

/-- The group in a slot of a logical tile. -/
def Dev.group? (d : Dev) (tile slot : Nat) : Option Group := d.thr.groups.find? fun g => g.tile == tile && g.slot == slot
def Dev.updGroup (d : Dev) (tile slot : Nat) (f : Group → Group) : Dev :=
  d.updThr fun t => { t with groups := updWhere (fun g => g.tile == tile && g.slot == slot) f t.groups }

/-- REEF_TD_STATUS of the four dies (Table 6.7). -/
def Dev.tdSync (d : Dev) : Dev :=
  (List.range 4).foldl (fun d die =>
    let gs := d.thr.groups.filter fun g => g.tile / 160 == die
    let bs := d.thr.blocks.filter fun b => b.tile / 160 == die
    let ls := d.thr.launches.filter fun l => bs.any (·.launch == l.op)
    ((d.wr (REEF_TD_STATUS_GROUPS die) gs.length).wr (REEF_TD_STATUS_BLOCKS die) bs.length).wr (REEF_TD_STATUS_LAUNCHES die) ls.length) d

/-! ### Errors and the end of a launch (R182, R191–R193) -/

/-- Whether some tile of a launch still walks its L1. -/
def Dev.walking (d : Dev) (l : ThrLaunch) : Bool := l.tiles.any d.tiles.l1Busy.contains

/-- The final write-back of a launch begins on every tile it used (R182, R192 step 3). -/
def Dev.finalWalk (d : Dev) (op : Nat) : Dev :=
  match d.thrL? op with
  | none => d
  | some l =>
    let d := d.updThrL op fun l => { l with ended := true }
    l.tiles.foldl (fun d t => d.l1Walk t) d

/-- The groups and blocks of a launch leave their tiles. -/
def Dev.clearLaunch (d : Dev) (op : Nat) : Dev :=
  (d.updThr fun t => { t with groups := t.groups.filter (·.launch != op), blocks := t.blocks.filter (·.launch != op)
                              accs := t.accs.filter (·.launch != op) }).tdSync

/-- REEF_THR_FAULT takes a record (Table 6.8). -/
def Dev.thrFault (d : Dev) (pc tile slot lane cause st : Nat) : Dev :=
  ((((((d.wr REEF_THR_FAULT_PC pc).wr REEF_THR_FAULT_LTILE tile).wr REEF_THR_FAULT_SLOT slot).wr REEF_THR_FAULT_LANE lane).wr
    REEF_THR_FAULT_CAUSE cause).wr REEF_THR_FAULT_STATUS st).wr REEF_THR_FAULT_VALID 1

/-- The record's place where the manual names none: free values of PC, tile, slot and lane (DESIGN CHOICE, assumption 4). -/
def Dev.thrFaultOpen (d : Dev) (tile : Option Nat) (cause st : Nat) : Dev :=
  let (w, d) := d.free
  d.thrFault (fieldOf w 23 0) (tile.getD (fieldOf w 33 24 % 640)) (fieldOf w 38 34) (fieldOf w 43 39) cause st

/-- The first error of a launch ends it: recorded, no further block, its groups stop, its tiles write back (R192). (DEDUCED, assumption 13) -/
def Dev.thrError (d : Dev) (op : Nat) (st : Status) (cause pc tile slot lane : Nat) : Dev :=
  match d.thrL? op with
  | none => d
  | some l =>
    if l.err.isSome then d
    else
      let d := d.updThrL op fun l => { l with err := some (st, cause), nextBlk := l.nblocks }
      let d := (d.thrFault pc tile slot lane cause (statusCode st)).event 2 2 1 tile pc (statusCode st) cause
      (d.clearLaunch op).finalWalk op

/-- An error that the manual places at no instruction: the record's place is free (DESIGN CHOICE, assumption 4). -/
def Dev.thrErrorOpen (d : Dev) (op : Nat) (st : Status) (cause : Nat) (tile : Option Nat) : Dev :=
  let (w, d) := d.free
  d.thrError op st cause (fieldOf w 23 0) (tile.getD (fieldOf w 33 24 % 640)) (fieldOf w 38 34) (fieldOf w 43 39)

/-- The launch with no block left to run starts its final write-back (R182). -/
def Dev.launchDrained (d : Dev) (op : Nat) : Dev :=
  match d.thrL? op with
  | none => d
  | some l => if l.nextBlk = l.nblocks ∧ !d.thr.blocks.any (·.launch == op) ∧ !l.ended then d.finalWalk op else d

/-- The value that an ordered target takes from its block values; what the manual gives no value for is free (R191, R153). -/
def Dev.redValue (d : Dev) (op k : Nat) (t : RedTarget) : Nat × Dev :=
  let vals := d.thr.blkRed.filter fun b => b.1 == op && b.2.1 == k
  let top := vals.foldl (fun m b => max m (b.2.2.1 + 1)) 0
  let at_ := fun i => (vals.find? fun b => b.2.2.1 == i).map fun b => b.2.2.2.toNat
  match pairTree (redOp t.ty t.op) 33 ((List.range top).map at_) with
  | some v => (v, d)
  | none =>
    match redEmpty t.ty t.op with
    | some v => (v, d)
    | none => let (w, d) := d.free; (w.toNat % 2 ^ (if redWide t.ty then 64 else 32), d)

/-- The ordered targets written under INIT (R191 step 5); an access that fails gives its status, one that waits none. -/
def Dev.writeTargets (d : Dev) (l : ThrLaunch) : Nat → List RedTarget → Except (Option Status) Dev
  | _, [] => .ok d
  | k, t :: r =>
    let n := if redWide t.ty then 8 else 4
    let (v, d) := d.redValue l.op k t
    let old := if t.init = 0 then Except.ok v else match d.vread l.tag .read t.target.toNat n with
      | .ok bs => if bs.any (·.2) then .error (some Status.poisonConsumed) else .ok (redOp t.ty t.op (leNat (bs.map (·.1))) v)
      | .error (.ended st) => .error (some st)
      | .error _ => .error none
    match old with
    | .error e => .error e
    | .ok v =>
      match d.vwrite l.tag t.target.toNat ((leBytes n v).map fun b => (b, false)) with
      | .ok d => d.writeTargets l (k + 1) r
      | .error (.ended st) => .error (some st)
      | .error _ => .error none

/-- A launch whose walks have all ended completes (R182, R191 step 5, R192). -/
def Dev.thrSettle (d : Dev) : Dev :=
  d.thr.launches.foldl (fun d l0 =>
    match d.thrL? l0.op with
    | none => d
    | some l =>
      if !l.ended ∨ d.walking l then d
      else
        let drop := fun (d : Dev) => d.updThr fun t => { t with launches := t.launches.filter (·.op != l.op)
                                                                blkRed := t.blkRed.filter (·.1 != l.op) }
        match l.err with
        | some (st, c) => drop (d.finish l.op st c)
        | none =>
          match d.writeTargets l 0 l.targets with
          | .ok d => drop (d.finish l.op .ok)
          | .error (some st) => drop ((d.thrFaultOpen none 0xFF (statusCode st)).finish l.op st 0xFF)
          | .error none => d) d

/-- A tile's invalidate-all completes once every write-back is performed; while one waits on a fault it goes on (R293, R182). -/
def Dev.walkDone (d : Dev) (tile : Nat) : Option Dev :=
  match d.writeBackAll (d.l1Lines tile) with
  | none => none
  | some (d, err) =>
    let d := d.updTiles fun t => { t with l1 := t.l1.filter (·.tile != tile), l1Busy := t.l1Busy.filter (· != tile) }
    match err with
    | none => some d
    | some st => some ((d.thr.launches.filter fun l => l.tiles.contains tile).foldl (fun d l =>
        if l.ended ∧ l.err.isNone then
          ((d.updThrL l.op fun l => { l with err := some (st, 0xFF) }).thrFaultOpen (some tile) 0xFF (statusCode st)).event 2 2 1 tile 0 (statusCode st) 0xFF
        else d) d)

/-! ### Blocks, groups and barriers (R160, R172, R177–R180) -/

/-- The free slots of a tile, lowest first. -/
def Dev.freeSlots (d : Dev) (tile : Nat) : List Nat := (List.range 32).filter fun s => (d.group? tile s).isNone

/-- The register bytes that the groups on a tile hold (R169). -/
def Dev.regBytes (d : Dev) (tile : Nat) : Nat :=
  ((d.thr.groups.filter (·.tile == tile)).map fun g => ((d.thrL? g.launch).map (·.regs)).getD 0 * 128).sum

/-- The pool ranges that blocks hold on a tile: base and bytes. -/
def Dev.poolHeld (d : Dev) (tile : Nat) : List (Nat × Nat) :=
  (d.thr.blocks.filter (·.tile == tile)).map fun b => (b.base, ((d.thrL? b.launch).map (·.bls)).getD 0)

/-- The lowest address of a tile's pool at which a range fits (R159, R169). -/
def Dev.poolFit (d : Dev) (tile n : Nat) : Option Nat :=
  let lo := (d.tiles.split - d.tiles.pool) * segBytes
  let hi := d.tiles.split * segBytes
  let held := d.poolHeld tile
  let cands := lo :: held.map fun r => r.1 + r.2
  let ok := cands.filter fun a => decide (lo ≤ a) && decide (a + n ≤ hi) && held.all fun r => decide (a + n ≤ r.1) || decide (r.1 + r.2 ≤ a) || n == 0 || r.2 == 0
  ok.foldl (fun m a => some (match m with | some b => min a b | none => a)) none

/-- Whether a tile has room for a block of a launch (R172). -/
def Dev.blockRoom (d : Dev) (l : ThrLaunch) (tile : Nat) : Bool :=
  decide (l.groups ≤ (d.freeSlots tile).length) && decide (d.regBytes tile + l.groups * l.regs * 128 ≤ 262144) && (d.poolFit tile l.bls).isSome

/-- A block placed on a tile with its groups, one ready path at ENTRY each, registers 0 and predicates false (R156, R160, R162, R173). -/
def Dev.placeBlock (d : Dev) (l : ThrLaunch) (tile : Nat) : Dev :=
  let base := (d.poolFit tile l.bls).getD 0
  let blk := l.nextBlk
  let slots := (d.freeSlots tile).take l.groups
  let gs := (slots.zip (List.range l.groups)).map fun s =>
    (⟨l.op, blk, tile, s.1, s.2, [⟨l.entry, BitVec.allOnes 32, .ready⟩], 0⟩ : Group)
  let clear := fun (t : Threads) (s : Nat) =>
    let k := laneKey tile s 0
    { t with v := sclear t.v (k * 256) ((k + 32) * 256), p := sclear t.p (k * 8) ((k + 32) * 8)
             latch := sclear t.latch k (k + 32), red := sclear t.red (k * 16) ((k + 32) * 16) }
  let d := d.updThr fun t => slots.foldl clear { t with groups := t.groups ++ gs, blocks := t.blocks ++ [⟨l.op, blk, tile, base, none⟩] }
  let d := if l.tiles.contains tile then d else d.l1Walk tile
  (d.updThrL l.op fun l => { l with nextBlk := l.nextBlk + 1, tiles := if l.tiles.contains tile then l.tiles else l.tiles ++ [tile] }).tdSync

/-- The lanes of a mask, in ascending order. -/
def maskLanes (m : BitVec 32) : List Nat := (List.range 32).filter fun i => m.getLsbD i

/-- The mask of some lanes. -/
def lanesMask (l : List Nat) : BitVec 32 := l.foldl (fun m i => m ||| (1 <<< i)) 0

/-- Whether a path is ready. -/
def Path.ready (p : Path) : Bool := p.st == .ready

/-- Waiting JOINs that may go on do so (R176). -/
def joinStep (spin : Nat) (ps : List Path) : List Path :=
  ps.map fun p => match p.st with
    | .join n =>
      let lower := ps.any fun q => decide (q.pc < p.pc) && (match q.st with | .bar _ => false | _ => true)
      if !lower ∨ spin ≤ n then { p with pc := p.pc + 1, st := .ready } else p
    | _ => p

/-- JOINs looked at until none moves. -/
def joinSettle (spin : Nat) : Nat → List Path → List Path
  | 0, ps => ps
  | n + 1, ps => let qs := joinStep spin ps; if qs = ps then ps else joinSettle spin n qs

/-- A path merged into a list, with a ready path of the same PC (R175). -/
def mergeIn (p : Path) : List Path → List Path
  | [] => [p]
  | q :: r => if p.ready && q.ready && p.pc == q.pc then { q with mask := q.mask ||| p.mask } :: r else q :: mergeIn p r

/-- The next current path comes first (R175): after a backward branch to `back`, the lowest ready PC above it, else the lowest ready PC, the path that branched counting last. -/
def choosePath (spin : Nat) (back : Option Nat) (ps : List Path) : List Path :=
  let ps := (joinSettle spin 40 ps).foldl (fun l p => mergeIn p l) []
  let lowest := fun (l : List Path) => l.foldl (fun m p => match m with
    | some q => if p.pc < q.pc then some p else m
    | none => some p) (none : Option Path)
  let rdy := ps.filter Path.ready
  let pick := match back with
    | none => lowest rdy
    | some b =>
      let others := rdy.filter fun p => p.pc != b
      ((lowest (others.filter fun p => decide (b < p.pc))) <|> lowest others) <|> lowest rdy
  match pick with
  | none => ps
  | some p => p :: ps.filter (· != p)

/-- The lanes of a group that have arrived at the barrier. -/
def Group.arrived (g : Group) : BitVec 32 := g.paths.foldl (fun m p => match p.st with | .bar a => m ||| a | _ => m) 0

/-- A barrier whose every thread has arrived or exited completes (R178, R180). -/
def Dev.barStep (d : Dev) (op blk tile : Nat) (spin : Nat) : Dev :=
  let gs := d.thr.groups.filter fun g => g.launch == op && g.blk == blk
  let some_ := gs.any fun g => g.arrived != 0
  if some_ ∧ gs.all (fun g => (g.arrived ||| g.exited) == BitVec.allOnes 32) then
    let free := fun (g : Group) =>
      let ps := g.paths.map fun p => match p.st with | .bar _ => { p with pc := p.pc + 1, st := .ready } | _ => p
      { g with paths := if (g.paths.head?.any Path.ready) then ps else choosePath spin none ps }
    d.updThr fun t => { t with
      groups := updWhere (fun g => g.launch == op && g.blk == blk) free t.groups
      blocks := updWhere (fun b => b.launch == op && b.blk == blk && b.tile == tile) (fun b => { b with barAt := none }) t.blocks }
  else d

/-- The block value of an ordered target from its threads' contributions (R191 steps 2 and 3). -/
def Dev.blockValue (d : Dev) (gs : List Group) (k : Nat) (t : RedTarget) : Option Nat :=
  let groupVal := fun (g : Group) =>
    pairTree (redOp t.ty t.op) 5 ((List.range 32).map fun i =>
      (sget (fun _ => none) d.thr.red (laneKey g.tile g.slot i * 16 + k)).map (·.toNat))
  let ordered := (List.range 32).map fun n => (gs.find? (·.gnum == n)).bind groupVal
  foldSome (redOp t.ty t.op) ordered

/-- A block's partials are formed and written when its last group ends (R191 step 3); a write that fails ends the launch. -/
def Dev.blockPartials (d : Dev) (l : ThrLaunch) (blk tile : Nat) (gs : List Group) : Nat → List RedTarget → Dev
  | _, [] => d
  | k, t :: r =>
    match d.blockValue gs k t with
    | none => d.blockPartials l blk tile gs (k + 1) r
    | some v =>
      let d := d.updThr fun x => { x with blkRed := x.blkRed ++ [(l.op, k, blk, BitVec.ofNat 64 v)] }
      match d.vwrite l.tag (t.partials.toNat + 8 * blk) ((leBytes 8 v).map fun b => (b, false)) with
      | .ok d => d.blockPartials l blk tile gs (k + 1) r
      | .error (.ended st) => d.thrErrorOpen l.op st 0xFF (some tile)
      | .error _ => d.blockPartials l blk tile gs (k + 1) r

/-- A block whose groups have all ended leaves its tile with its partials (R170, R177, R191). -/
def Dev.blockEnd (d : Dev) (op blk tile : Nat) : Dev :=
  match d.thrL? op with
  | none => d
  | some l =>
    let gs := d.thr.groups.filter fun g => g.launch == op && g.blk == blk
    if gs.all (fun g => g.exited == BitVec.allOnes 32) then
      let d := d.blockPartials l blk tile gs 0 l.targets
      let d := d.updThr fun t => { t with groups := t.groups.filter fun g => !(g.launch == op && g.blk == blk)
                                          blocks := t.blocks.filter fun b => !(b.launch == op && b.blk == blk) }
      (d.tdSync).launchDrained op
    else d

/-! ### Issue of a lane instruction (R163–R168, R175) -/

/-- What the current path of a group slot may issue from: the group, its launch and its current path. -/
structure Issue where
  g : Group
  l : ThrLaunch
  p : Path
  deriving DecidableEq, Repr

/-- The registers that a waiting access of a group still writes or reads: no instruction that names one issues yet (R168). -/
def Dev.regsWait (d : Dev) (tile slot : Nat) (a : LaneArgs) : Bool :=
  d.thr.accs.any fun x => x.tile == tile && x.slot == slot &&
    [a.rd.toNat, a.ra.toNat, a.rb, a.rc].any fun r =>
      (decide (r ≤ x.rd + 1) && decide (x.rd ≤ r + 3)) || (decide (r ≤ x.rb + 3) && decide (x.rb ≤ r + 3))

/-- The issue state of a slot: none while nothing may issue there (R97, R168, R182, R192). -/
def Dev.issue? (d : Dev) (a : LaneArgs) : Option Issue :=
  match d.group? a.tile a.slot with
  | none => none
  | some g =>
    match d.thrL? g.launch, g.paths.head? with
    | some l, some p =>
      if p.ready && l.err.isNone && !d.tiles.l1Busy.contains a.tile && !d.regsWait a.tile a.slot a &&
          !d.thr.accs.any (fun x => x.tile == a.tile && x.slot == a.slot && x.kind == 3) &&
          (match d.tiles.handover with | .saving _ => false | .restoring _ => false | _ => true)
      then some ⟨g, l, p⟩ else none
    | _, _ => none

/-- The error of an illegal instruction at a path (R192, R193). -/
def Dev.laneError (d : Dev) (i : Issue) (st : Status) (cause lane : Nat) : Dev :=
  d.thrError i.l.op st cause i.p.pc i.g.tile i.g.slot lane

/-- The lanes of the current path on which an instruction executes (R163). -/
def Dev.runLanes (d : Dev) (i : Issue) (a : LaneArgs) : List Nat :=
  (maskLanes i.p.mask).filter fun k => d.thr.guard (laneKey i.g.tile i.g.slot k) a

/-- The current path goes on to the next instruction. -/
def Dev.advance (d : Dev) (i : Issue) : Dev :=
  d.updGroup i.g.tile i.g.slot fun g => { g with paths := match g.paths with
    | [] => []
    | p :: r => { p with pc := p.pc + 1 } :: r }

/-- Whether a named register is not one of the thread's, or is odd where a pair is named (R164): the register and whether it names a pair. -/
def regsBad (regs : Nat) (named : List (Nat × Bool)) : Bool :=
  named.any fun r => decide (regs ≤ r.1) || (r.2 && (r.1 % 2 == 1 || decide (regs ≤ r.1 + 1)))

/-- What an instruction gives a lane: nothing, a register, a pair, a predicate, or a value that the manual does not give. -/
inductive LRes where
  | nothing
  | r32 (v : Nat)
  | r64 (v : Nat)
  | p (b : Bool)
  | open32
  | open64
  deriving DecidableEq, Repr

/-- A result written to a lane's RD. -/
def Dev.putRes (d : Dev) (lk rd : Nat) : LRes → Dev
  | .nothing => d
  | .r32 v => d.updThr fun t => t.setReg lk rd v
  | .r64 v => d.updThr fun t => t.setPair lk rd v
  | .p b => d.updThr fun t => t.setPred lk rd b
  | .open32 => let (w, d) := d.free; d.updThr fun t => t.setReg lk rd (w.toNat % 2 ^ 32)
  | .open64 => let (w, d) := d.free; d.updThr fun t => t.setPair lk rd w.toNat

/-- A computing instruction: refused as illegal with its cause, else every executing lane takes its result, computed from the state before (R163, R164, R167). -/
def Dev.compute (d : Dev) (a : LaneArgs) (ill : Issue → Option Nat) (f : Threads → Issue → List Nat → Nat → LRes) : Dev :=
  match d.issue? a with
  | none => d
  | some i =>
    let first := (maskLanes i.p.mask).headD 0
    if i.l.ninstr ≤ i.p.pc then d.laneError i .aborted 0x06 first
    else match ill i with
      | some c => d.laneError i .aborted c first
      | none =>
        let lanes := d.runLanes i a
        let t := d.thr
        (lanes.foldl (fun d k => d.putRes (laneKey i.g.tile i.g.slot k) a.rd.toNat (f t i lanes k)) d).advance i

/-- The checks that most instructions share: reserved bits, then register numbers (R164). -/
def illRegs (rsvd : Bool) (named : List (Nat × Bool)) (i : Issue) : Option Nat :=
  if rsvd then some 0x01 else if regsBad i.l.regs named then some 0x02 else none

end Sys2Proof.Machine
end

