-- ==== Sys2Proof/Machine/Tensor.lean ====
section
/-! DEFINITION. Tensor descriptors and the regions they name in local store and memory (R110–R113, R45), and what the matrix unit and data movement do with them (R56–R61, R70, R127). -/

namespace Sys2Proof.Machine

/-! ### Descriptors (Table 4.5) -/

/-- Bits of a descriptor. -/
def descF (d : BitVec 256) (lo n : Nat) : Nat := d.toNat / 2 ^ lo % 2 ^ n

def descBase (d : BitVec 256) : Nat := descF d 0 57
def descTrans (d : BitVec 256) : Bool := descF d 57 1 == 1
def descSpace (d : BitVec 256) : Nat := descF d 58 1
def descTsEn (d : BitVec 256) : Bool := descF d 59 1 == 1
def descType (d : BitVec 256) : Nat := descF d 60 4
def descCols (d : BitVec 256) : Nat := descF d 64 16
def descRows (d : BitVec 256) : Nat := descF d 80 16
def descStride (d : BitVec 256) : Nat := descF d 96 32
def descLo (d : BitVec 256) : Int := signedOf 32 (descF d 128 32)
def descHi (d : BitVec 256) : Int := signedOf 32 (descF d 160 32)
def descScaleOff (d : BitVec 256) : Nat := descF d 192 22
def descSplit (d : BitVec 256) : Nat := descF d 214 10

/-- The tensor scale: 1 where the descriptor carries none (R44). -/
def descScale (d : BitVec 256) : Num := if descTsEn d then Fmt.b32.decode (descF d 224 32) else .fin false 1 0

/-- The outer and inner extents of a region: rows and columns, or columns and rows under TRANS (R112). -/
def descOuter (d : BitVec 256) : Nat := if descTrans d then descCols d else descRows d
def descInner (d : BitVec 256) : Nat := if descTrans d then descRows d else descCols d

/-- The bytes of one run of inner elements (Table 2.4). -/
def descRun (d : BitVec 256) : Nat := (descInner d * elemBits (descType d) + 7) / 8

/-- The bytes of the scale array (R45). -/
def descScaleLen (d : BitVec 256) : Nat :=
  if blockSize (descType d) = 0 then 0 else descRows d * descCols d / blockSize (descType d)

/-- Byte address of a region at a step of L / TSPLIT and L mod TSPLIT (R112). -/
def descAt (d : BitVec 256) (q r : Nat) : Int := descBase d + q * descHi d + r * descLo d

/-- Byte address of element (0, 0) for a logical tile (R112). -/
def tileAddr (d : BitVec 256) (l : Nat) : Int := descAt d (l / descSplit d) (l % descSplit d)

/-- The two byte ranges of a region from its address on: elements and scales. -/
def descRanges (d : BitVec 256) (a : Int) : List (Int × Int) :=
  let s := a + 64 * descScaleOff d
  [(a, a + (descOuter d - 1) * descStride d + descRun d), (s, s + descScaleLen d)]

/-- A descriptor passes R111 and R113 under a local store of `ls` bytes. -/
def descOk (d : BitVec 256) (ls : Nat) : Bool :=
  let ty := descType d
  let sp := descSplit d
  !(ty == 8 && !descTsEn d) && !(descTsEn d && !(decide (1 ≤ ty) && decide (ty ≤ 8))) &&
  decide (1 ≤ sp) && decide (sp ≤ 640) && descRows d != 0 && descCols d != 0 &&
  (descSpace d == 1 ||
    [(0, 0), (0, sp - 1), (639 / sp, 0), (639 / sp, sp - 1)].all fun c =>
      (descRanges d (descAt d c.1 c.2)).all fun r => decide (r.1 = r.2) || (decide (0 ≤ r.1) && decide (r.2 ≤ (ls : Int))))

/-- Whether the local-store ranges of two descriptors overlap on a tile (R124). -/
def descMeet (x y : BitVec 256) : Bool :=
  (List.range 640).any fun l => (descRanges x (tileAddr x l)).any fun r => (descRanges y (tileAddr y l)).any fun s =>
    decide (r.1 < s.2) && decide (s.1 < r.2)

/-! ### Elements in local store -/

/-- The byte address, and the bit in it, of element (i, j) (R112, Table 2.4). -/
def elemAt (d : BitVec 256) (l i j : Nat) : Nat × Nat :=
  let (o, k) := if descTrans d then (j, i) else (i, j)
  let bit := k * elemBits (descType d)
  ((tileAddr d l).toNat + o * descStride d + bit / 8, bit % 8)

/-- An element's code. -/
def Tiles.code (t : Tiles) (l : Nat) (d : BitVec 256) (i j : Nat) : Nat :=
  let (a, b) := elemAt d l i j
  let n := elemBits (descType d)
  t.lsNat l a ((b + n + 7) / 8) / 2 ^ b % 2 ^ n

/-- The place of an element's block scale in the scale array (R45). -/
def scaleIndex (d : BitVec 256) (i j : Nat) : Nat :=
  let b := max 1 (blockSize (descType d))
  if descTrans d then j * (descRows d / b) + i / b else i * (descCols d / b) + j / b

/-- An element's exact value with its block scale and without the tensor scale (R41, R42). -/
def Tiles.elem (t : Tiles) (l : Nat) (d : BitVec 256) (i j : Nat) : Num :=
  let ty := descType d
  let v := elemValue ty (t.code l d i j)
  if blockSize ty = 0 then v
  else Num.mul (scaleValue ty (t.lsByte l ((tileAddr d l).toNat + 64 * descScaleOff d + scaleIndex d i j)).toNat) v

/-- An element's code written. -/
def Tiles.putCode (t : Tiles) (l : Nat) (d : BitVec 256) (i j v : Nat) (bad : Bool) : Tiles :=
  let (a, b) := elemAt d l i j
  let n := elemBits (descType d)
  let k := (b + n + 7) / 8
  let old := t.lsNat l a k
  t.lsPut l a (leBytes k (old - old / 2 ^ b % 2 ^ n * 2 ^ b + v % 2 ^ n * 2 ^ b)) bad

/-- Whether a region holds poison on a tile. -/
def Tiles.regionBad (t : Tiles) (l : Nat) (d : BitVec 256) : Bool :=
  let a := (tileAddr d l).toNat
  (List.range (descOuter d)).any (fun o => t.lsBad l (a + o * descStride d) (descRun d)) ||
    (descScaleLen d != 0 && t.lsBad l (a + 64 * descScaleOff d) (descScaleLen d))

/-- The poison marks of the lines that a write of a region covers whole go (R244). -/
def Tiles.clearRegion (t : Tiles) (l : Nat) (d : BitVec 256) : Tiles :=
  let a := (tileAddr d l).toNat
  let clear := fun (m : Sparse Bool) (lo hi : Nat) => sclear m (l * 2 ^ 15 + (lo + 63) / 64) (l * 2 ^ 15 + hi / 64)
  let s := a + 64 * descScaleOff d
  let m := if descStride d = descRun d then clear t.lsPoison a (a + descOuter d * descRun d)
    else (List.range (descOuter d)).foldl (fun m o => clear m (a + o * descStride d) (a + o * descStride d + descRun d)) t.lsPoison
  { t with lsPoison := clear m s (s + descScaleLen d) }

/-! ### The matrix unit (R56–R61, R70, R578) -/

/-- The operand class of an element type in Table 2.6; none has no encoding there. -/
def operandClass (ty : Nat) : Option Nat :=
  if 1 ≤ ty ∧ ty ≤ 6 then some 1 else if ty = 7 ∨ ty = 8 then some 2 else if ty = 0 then some 3 else if ty = 0xC then some 4
  else if ty = 9 then some 5 else if ty = 0xA then some 6 else if ty = 0xB then some 7 else none

/-- Whether a type pair and ACCT form a row of Table 2.6 (R120). -/
def pairOk (a b acct : Nat) : Bool :=
  match operandClass a, operandClass b with
  | some x, some y => (x == y || (decide (x ≤ 2) && decide (y ≤ 2))) && acct == (if x = 3 ∨ x = 4 then 1 else 0)
  | _, _ => false

/-- The value of accumulation block `b` of an integer product: the exact sum (R61). -/
def blockInt (prods : List (Num × Num)) : Int :=
  let v := fun (x : Num) => match x with
    | .fin s m _ => if s then -(m : Int) else m
    | _ => 0
  prods.foldl (fun s p => s + v p.1 * v p.2) 0

/-- The positions of accumulation block `b` (R57, R121). -/
def blockKs (o : ArrayOp) (b : Nat) : List Nat :=
  (List.range (min 64 (o.klen - 64 * b))).map (o.kstart + 64 * b + ·)

/-- One output: the accumulator's value after the blocks in order, and whether an addition saturated (R59, R61). -/
def outputAt (t : Tiles) (l : Nat) (o : ArrayOp) (i j : Nat) : Nat × Bool :=
  let scale := Num.mul (descScale o.da) (descScale o.db)
  o.order.foldl (fun (p : Nat × Bool) b =>
    let prods := (blockKs o b).map fun k => (t.elem l o.da i k, t.elem l o.db k j)
    if o.acct = 1 then
      let (v, s) := accAddInt p.1 (blockInt prods)
      (v, p.2 || s)
    else (accAdd p.1 (blockValue scale prods), p.2))
    (if o.accInit then t.accAt l o.mbank i j else 0, false)

/-- Whether a matrix part reads poison on a tile: its operands, or the bank it adds to (R578, R244). -/
def matrixBad (t : Tiles) (l : Nat) (o : ArrayOp) : Bool :=
  t.regionBad l o.da || t.regionBad l o.db ||
    (o.accInit && (List.range 8192).any fun n => t.accBad l o.mbank (n / 128) (n % 128))

/-- The matrix part on one tile: the bank, its marks and its saturation flag (R59, R61, R70, R578). -/
def matrixTile (o : ArrayOp) (t : Tiles) (l : Nat) : Tiles :=
  let bad := matrixBad t l o
  let lo := accKey l o.mbank 0 0
  let start := if o.accInit then t else { t with acc := sclear t.acc lo (lo + 8192), sat := sput (fun _ => false) t.sat (l * 2 + o.mbank) false }
  let start := { start with accPoison := sclear start.accPoison lo (lo + 8192) }
  let cells := (List.range (descRows o.da)).flatMap fun i => (List.range (descCols o.db)).map fun j => (i, j, outputAt t l o i j)
  let out := cells.foldl (fun (u : Tiles) c => u.accPut l o.mbank c.1 c.2.1 c.2.2.1 false) start
  let out := if cells.any (·.2.2.2) then { out with sat := sput (fun _ => false) out.sat (l * 2 + o.mbank) true } else out
  if bad then
    { out with accPoison := (List.range 8192).foldl (fun m n => sput (fun _ => false) m (lo + n) true) out.accPoison }
  else out

/-- The matrix part on the whole Reef, and whether some tile read poison. -/
def Dev.matrixPart (d : Dev) (o : ArrayOp) : Dev × Bool :=
  let bad := (List.range 640).any fun l => matrixBad d.tiles l o
  ({ d with tiles := (List.range 640).foldl (matrixTile o) d.tiles }, bad)

/-! ### Data movement (R127–R129) -/

/-- A byte at a physical address with its mark: from the pool, or as the world answers, which may mark it poisoned; a leeward takes it from its ANSWER records and waits for them (R343, R394, R411, R418, R463, DESIGN CHOICE, assumption 4). -/
def Dev.gatherByte (d : Dev) (tag a : Nat) : Except Xlate ((Byte × Bool) × Dev) :=
  if inPool a then .ok ((d.byteAt a, d.poisonAt a), d)
  else if d.isLeeward then
    match d.twn.answers.find? fun x => !x.1 && decide (x.2.1.toNat ≤ a) && decide (a < x.2.1.toNat + x.2.2.1) with
    | none => .error .waits
    | some x =>
      let b := x.2.2.2.getD (a - x.2.1.toNat) 0
      .ok ((b, false), if a + 1 = x.2.1.toNat + x.2.2.1 then { d with twn := { d.twn with answers := d.twn.answers.erase x } } else d)
  else match d.outsideStop tag a with
    | some st => .error (.ended st)
    | none =>
      let (w, d') := d.free
      .ok ((BitVec.ofNat 8 w.toNat, w.getLsbD 8), d')

/-- The bytes of a virtual range with their marks; bytes outside the pool are what the outside answers, free values here (R343, R411, DESIGN CHOICE, assumption 4). -/
def Dev.vgather (d : Dev) (tag va : Nat) (n : Nat) (acc : Access := .read) : Except Xlate (Dev × List (Byte × Bool)) :=
  match n with
  | 0 => .ok (d, [])
  | n + 1 =>
    match d.xlate tag va acc with
    | .pa a =>
      match d.gatherByte tag a with
      | .error e => .error e
      | .ok (b, d') =>
        match d'.vgather tag (va + 1) n acc with
        | .ok (d, r) => .ok (d, b :: r)
        | .error e => .error e
    | x => .error x

/-- The pieces of a byte run by line: address and bytes. -/
def linePieces : Nat → Nat → List (Byte × Bool) → List (Nat × List (Byte × Bool))
  | 0, _, _ => []
  | _, _, [] => []
  | f + 1, a, bs => let n := 64 - a % 64; (a, bs.take n) :: linePieces f (a + n) (bs.drop n)

/-- Bytes written to a virtual range line by line at their homes, the host or another module; a line takes the marks of its bytes (R244, R289, R343). -/
def Dev.vput (d : Dev) (tag : Nat) (op : Option Nat) (va : Nat) (bs : List (Byte × Bool)) (hint : Nat := 0) : Except Xlate Dev :=
  let put := fun (d : Dev) (p : Nat × List (Byte × Bool)) =>
    match d.xlate tag p.1 .write with
    | .pa a =>
      let n := p.2.length
      let data : BitVec 512 := BitVec.ofNat 512 (leNat (p.2.map (·.1)) * 2 ^ (8 * (a % 64)))
      let mask : BitVec 64 := BitVec.ofNat 64 ((2 ^ n - 1) * 2 ^ (a % 64))
      d.putAnywhere tag op a data mask (p.2.any (·.2)) hint
    | x => Except.error x
  (linePieces (bs.length + 1) va bs).foldlM put d

/-- What the pieces of a copy have come to: the device, the first error, and whether a piece waits. -/
structure Copied where
  dev : Dev
  err : Option Status
  waits : Bool
  deriving DecidableEq, Repr

/-- A piece of a copy is done, ends or waits; the others go on (R129). -/
def Copied.piece (c : Copied) (f : Dev → Except Xlate Dev) : Copied :=
  match f c.dev with
  | .ok d => { c with dev := d }
  | .error (.ended st) => { c with err := some (c.err.getD st) }
  | .error _ => { c with waits := true }

/-- The bytes of a local-store range with their marks. -/
def Tiles.lsRun (t : Tiles) (l a n : Nat) : List (Byte × Bool) :=
  (List.range n).map fun i => (t.lsByte l (a + i), t.lsBad l (a + i) 1)

/-- Bytes with marks written to local store. -/
def Tiles.lsPutRun (t : Tiles) (l a : Nat) (bs : List (Byte × Bool)) : Tiles :=
  (linePieces (bs.length + 1) a bs).foldl (fun (t : Tiles) p => t.lsPut l p.1 (p.2.map (·.1)) (p.2.any (·.2))) t

/-- The byte runs of a copy: offsets in the source and the target region, and lengths; element by element where TRANS differs, then the scales (R127). -/
def copyRuns (s t : BitVec 256) : List (Nat × Nat × Nat) :=
  let n := elemBits (descType s) / 8
  let runs := if descTrans s = descTrans t then
      (List.range (descOuter s)).map fun o => (o * descStride s, o * descStride t, descRun s)
    else (List.range (descRows s)).flatMap fun i => (List.range (descCols s)).map fun j =>
      let at_ := fun (d : BitVec 256) => if descTrans d then j * descStride d + i * n else i * descStride d + j * n
      (at_ s, at_ t, n)
  if descScaleLen s = 0 then runs else runs ++ [(64 * descScaleOff s, 64 * descScaleOff t, descScaleLen s)]

/-- The 57-bit virtual address of a tile's region. -/
def memTileAddr (d : BitVec 256) (l : Nat) : Nat := codeOf 64 (tileAddr d l)

/-- f(L) of an XLT immediate (Table 4.11). -/
def xltTarget (imm : BitVec 32) (l : Nat) : Nat :=
  let shift := (imm.extractLsb' 0 10).toNat
  let g := max 1 (imm.extractLsb' 10 10).toNat
  if imm.getLsbD 31 then l - l % g + (l % g + shift) % g else (l + shift) % 640

/-- One tile's share of a movement, from the local stores as they were (R127). -/
def Dev.moveTile (t0 : Tiles) (m : Move) (tag : Nat) (c : Copied) (l : Nat) : Copied :=
  let runs := copyRuns m.src m.dst
  match m.kind with
  | 0 =>
    let c := { c with dev := c.dev.updTiles fun t => t.clearRegion l m.dst }
    runs.foldl (fun c r => c.piece fun d =>
      match d.vgather tag (memTileAddr m.src l + r.1) r.2.2 with
      | .ok (d, bs) => .ok (d.updTiles fun t => t.lsPutRun l ((tileAddr m.dst l).toNat + r.2.1) bs)
      | .error e => .error e) c
  | 1 =>
    runs.foldl (fun c r => c.piece fun d =>
      d.vput tag none (memTileAddr m.dst l + r.2.1) (t0.lsRun l ((tileAddr m.src l).toNat + r.1) r.2.2)) c
  | _ =>
    let l' := xltTarget m.imm l
    let put := fun (t : Tiles) (r : Nat × Nat × Nat) =>
      t.lsPutRun l' ((tileAddr m.dst l').toNat + r.2.1) (t0.lsRun l ((tileAddr m.src l).toNat + r.1) r.2.2)
    { c with dev := c.dev.updTiles fun t => runs.foldl put (t.clearRegion l' m.dst) }

/-- Every tile's share of a movement. -/
def Dev.moveAll (d : Dev) (m : Move) (tag : Nat) : Copied :=
  (List.range 640).foldl (Dev.moveTile d.tiles m tag) ⟨d, none, false⟩

end Sys2Proof.Machine
end

