-- ==== Sys2Proof/Machine/FlowOps.lean ====
section
/-! DEFINITION. The flow chain: the configuration word and its legality (R141, R155), decoding, stages, reductions, output conversion and summaries (R135–R154). (DEDUCED, assumption 52) -/

namespace Sys2Proof.Machine

/-! ### The configuration word (Tables 5.2 to 5.4) -/

/-- Bits of word `k` of a configuration word. -/
def cfgF (c : List Word) (k lo n : Nat) : Nat := (c.getD k 0).toNat / 2 ^ lo % 2 ^ n

def cfgLane64 (c : List Word) : Bool := cfgF c 0 63 1 == 1
def cfgMsrc (c : List Word) : Nat := cfgF c 0 61 2
def cfgVsrc (c : List Word) : Nat := cfgF c 0 59 2
def cfgVshape (c : List Word) : Nat := cfgF c 0 57 2
def cfgBtype (c : List Word) : Nat := cfgF c 0 55 2
def cfgOmode (c : List Word) : Nat := cfgF c 0 53 2
def cfgRop (c : List Word) : Nat := cfgF c 0 51 2
def cfgRm (c : List Word) : Nat := cfgF c 0 49 2
def cfgSat (c : List Word) : Bool := cfgF c 0 48 1 == 1
def cfgSop (c : List Word) : Nat := cfgF c 0 44 4
def cfgRows (c : List Word) : Nat := cfgF c 0 33 7
def cfgCols (c : List Word) : Nat := cfgF c 0 25 8
def cfgVtype (c : List Word) : Nat := cfgF c 1 60 4
def cfgVaddr (c : List Word) : Nat := cfgF c 1 0 21

/-- The lane format of a mode and the elements of its beats (R135, R136). -/
def laneFmt (c : List Word) : Fmt := if cfgLane64 c then .b64 else .b32
def beatWidth (c : List Word) : Nat := if cfgLane64 c then 32 else 128

/-- Whether a part reads a bank (R137, Table 5.1). -/
def readsBank (c : List Word) : Bool := cfgMsrc c == 0 || cfgVsrc c == 3

/-- Whether a part captures DF (R119). -/
def usesDf (c : List Word) : Bool := cfgMsrc c == 1 || cfgVsrc c == 1

/-- The rows and columns of the main region (R137). -/
def mainDims (c : List Word) (df : BitVec 256) : Nat × Nat :=
  if cfgMsrc c = 0 then (cfgRows c, cfgCols c) else (descRows df, descCols df)

/-- The entries of a side operand of a shape (R139). -/
def sideCount (shape rows cols : Nat) : Nat :=
  match shape with | 1 => rows | 2 => cols | 3 => 1 | _ => rows * cols

/-- The shape that a region of a side operand or an output must have (Table 5.1, R146). -/
def shapeOf (shape rows cols : Nat) : Nat × Nat :=
  match shape with | 0 => (rows, cols) | 1 => (rows, 1) | 2 => (1, cols) | _ => (1, 1)

/-- Whether a stage word is legal (R143, R155). -/
def stageOk (c : List Word) (k : Nat) : Bool :=
  let fn := cfgF c k 58 6
  let param := cfgF c k 46 4
  cfgF c k 32 14 == 0 && decide (fn ≤ 0x1A) && !(fn == 0x1A && (!cfgLane64 c || decide (6 < param))) && !(fn == 9 && decide (5 < param))

/-- Whether a side operand is legal (Table 5.1, R140). -/
def sideOk (c : List Word) (df : BitVec 256) (rows cols ls : Nat) : Bool :=
  let shape := cfgVshape c
  let fits := shape == 0 || decide (sideCount shape rows cols ≤ if cfgLane64 c then 1024 else 2048)
  match cfgVsrc c with
  | 0 => true
  | 1 => cfgMsrc c == 0 && (descRows df, descCols df) == shapeOf shape rows cols && fits
  | 2 => shape != 0 && [0x9, 0xA, 0xB, 0xD, 0xE, 0xF].contains (cfgVtype c) && cfgVaddr c % 16 == 0 && cfgF c 1 21 39 == 0 && fits &&
      decide (cfgVaddr c + sideCount shape rows cols * (elemBits (cfgVtype c) / 8) ≤ ls)
  | _ => cfgMsrc c == 1 && shape == 0 && decide (rows ≤ 64) && decide (cols ≤ 128)

/-- Whether the output is legal (R146). -/
def outOk (c : List Word) (dc : BitVec 256) (rows cols : Nat) : Bool :=
  cfgOmode c == 3 ||
    ((descRows dc, descCols dc) == shapeOf (cfgOmode c) rows cols &&
      !(cfgOmode c == 2 && decide ((if cfgLane64 c then 1024 else 2048) < cols)) &&
      (blockSize (descType dc) == 0 || descInner dc % blockSize (descType dc) == 0))

/-- The checks of R155 on the word, the descriptors and the side vector. -/
def cfgOk (c : List Word) (dc df : BitVec 256) (hen : Bool) (ls : Nat) : Bool :=
  let (rows, cols) := mainDims c df
  cfgF c 0 40 4 == 0 && cfgF c 0 0 25 == 0 && decide (cfgMsrc c ≤ 1) && decide (cfgBtype c ≤ 1) && decide (cfgSop c ≤ 9) &&
  (!readsBank c || (decide (1 ≤ cfgRows c) && decide (cfgRows c ≤ 64) && decide (1 ≤ cfgCols c) && decide (cfgCols c ≤ 128))) &&
  !(hen && cfgSop c == 0) && !(cfgSop c == 9 && (!readsBank c || cfgBtype c == 0)) &&
  ([2, 3, 4, 5, 6, 7, 8, 9].all (stageOk c)) && sideOk c df rows cols ls && outOk c dc rows cols

/-! ### Decoding (R138) -/

/-- An exact element value with its tensor scale as a lane code (R138). -/
def toLane (c : List Word) (ty : Nat) (t : Num) (v : Num) : Nat :=
  if 1 ≤ ty ∧ ty ≤ 8 then (laneFmt c).round 0 false (Num.mul t v)
  else (laneFmt c).round (cfgRm c) (cfgSat c && ty == 0xE) v

/-- Element (i, j) of a bank, typed by BTYPE, as a lane code (R74, R137). -/
def bankLane (c : List Word) (t : Tiles) (l bank i j : Nat) : Nat :=
  let ty := if cfgBtype c = 0 then 0xB else 0xD
  toLane c ty (.fin false 1 0) (elemValue ty (t.accAt l bank i j))

/-- Element (i, j) of a local-store region as a lane code. -/
def regionLane (c : List Word) (t : Tiles) (l : Nat) (d : BitVec 256) (i j : Nat) : Nat :=
  toLane c (descType d) (descScale d) (t.elem l d i j)

/-- The main element (R137). -/
def mainLane (c : List Word) (t : Tiles) (l : Nat) (o : ArrayOp) (i j : Nat) : Nat :=
  if cfgMsrc c = 0 then bankLane c t l o.fbank i j else regionLane c t l o.df i j

/-- The side value of an element (R139, R140). -/
def sideLane (c : List Word) (t : Tiles) (l : Nat) (o : ArrayOp) (i j : Nat) : Nat :=
  let (si, sj) := match cfgVshape c with | 0 => (i, j) | 1 => (i, 0) | 2 => (0, j) | _ => (0, 0)
  match cfgVsrc c with
  | 0 => 0
  | 1 => regionLane c t l o.df si sj
  | 2 =>
    let n := elemBits (cfgVtype c) / 8
    let k := match cfgVshape c with | 1 => i | 2 => j | _ => 0
    toLane c (cfgVtype c) (.fin false 1 0) (elemValue (cfgVtype c) (t.lsNat l (cfgVaddr c + k * n) n))
  | _ => bankLane c t l o.fbank i j

/-! ### Stages (R142–R145) -/

/-- One stage: its function on the sources it names (R142). -/
def stageStep (c : List Word) (m v p k : Nat) : Nat :=
  let f := laneFmt c
  let kc := f.round 0 false (Fmt.b32.decode (cfgF c k 0 32))
  let src := fun s => match s with | 0 => p | 1 => m | 2 => v | _ => kc
  (stageFn f (cfgF c k 58 6) (cfgF c k 46 4) (cfgF c k 50 2) (src (cfgF c k 56 2)) (src (cfgF c k 54 2)) (src (cfgF c k 52 2))).getD 0

/-- The chain's result for an element: eight stages from the main element on. -/
def chainResult (c : List Word) (m v : Nat) : Nat := [2, 3, 4, 5, 6, 7, 8, 9].foldl (stageStep c m v) m

/-! ### Reductions and outputs (R146, R147) -/

/-- Two lane codes combined: 0 SUM by RNE, 1 MAX, 2 MIN, 3 MAXABS on magnitudes (R147). -/
def laneRed (f : Fmt) (op a b : Nat) : Nat :=
  let x := f.decode a
  let y := f.decode b
  match op with
  | 0 => f.round 0 false (Num.add 0 x y)
  | 2 => f.round 0 false (Num.minMax false x y)
  | _ => f.round 0 false (Num.minMax true x y)

/-- The magnitude of a lane code. -/
def laneAbs (f : Fmt) (a : Nat) : Nat := f.round 0 false (f.decode a).abs

/-- Lists of at most `w` elements in order. -/
def beatsOf (w : Nat) : Nat → List Nat → List (List Nat)
  | 0, _ => []
  | _, [] => []
  | n + 1, l => l.take w :: beatsOf w n (l.drop w)

/-- Beats combined: a pairwise tree within each, then a fold in order (R147, R153). -/
def foldBeats (f : Fmt) (op : Nat) (bs : List (List Nat)) : Option Nat :=
  foldSome (laneRed f op) (bs.map fun b => pairTree (laneRed f op) 8 (b.map some))

/-- The code written for a lane value and the value converted back to the lane (R146, R152). -/
def convOut (c : List Word) (ty v : Nat) : Nat × Nat :=
  let f := laneFmt c
  match elemFmt ty with
  | some g => let y := g.round (cfgRm c) (cfgSat c) (f.decode v); (y, f.round 0 false (g.decode y))
  | none => let k := Num.toInt (cfgRm c) (elemBits ty) (f.decode v); (codeOf (elemBits ty) k, f.round 0 false (.ofInt k))

/-- What a part writes to a tile: element (i, j) with its code, scales by index, and the values converted back. -/
structure FlowOut where
  elems : List (Nat × Nat × Nat)
  scales : List (Nat × Nat)
  back : List (Nat × Nat × Nat)
  deriving DecidableEq, Repr

/-- The blocks of an output region: the places of each block's elements in storage order (R45). -/
def blockPlaces (d : BitVec 256) : List (List (Nat × Nat)) :=
  let b := max 1 (blockSize (descType d))
  (List.range (descOuter d)).flatMap fun o => (List.range (descInner d / b)).map fun k =>
    (List.range b).map fun e => if descTrans d then (k * b + e, o) else (o, k * b + e)

/-- The output grid converted to DC's type (R146, R50–R54). -/
def emit (c : List Word) (dc : BitVec 256) (rows cols : Nat) (grid : Nat → Nat → Nat) : FlowOut :=
  let f := laneFmt c
  let ty := descType dc
  if blockSize ty = 0 then
    let cells := (List.range rows).flatMap fun i => (List.range cols).map fun j => (i, j, convOut c ty (grid i j))
    ⟨cells.map fun x => (x.1, x.2.1, x.2.2.1), [], cells.map fun x => (x.1, x.2.1, x.2.2.2)⟩
  else
    let t := descScale dc
    let blocks := (blockPlaces dc).map fun ps => (ps, toBlock ty t (ps.map fun p => f.decode (grid p.1 p.2)))
    let cells := blocks.flatMap fun b => (b.1.zip b.2.2).map fun x => (x.1.1, x.1.2, x.2, b.2.1)
    ⟨cells.map fun x => (x.1, x.2.1, x.2.2.1),
     (List.range blocks.length).zip (blocks.map (·.2.1)),
     cells.map fun x => (x.1, x.2.1, f.round 0 false (Num.mul t (Num.mul (scaleValue ty x.2.2.2) (elemValue ty x.2.2.1))))⟩

/-! ### Summaries (R152–R154) -/

/-- What a tile gives the summary of an SOP from its inputs by beat; none when it has none (R152, R153). -/
def tileSummary (f : Fmt) (sop : Nat) (beats : List (List Nat)) (sat : Bool) : Option Nat :=
  let count := fun (p : Num → Bool) => some ((beats.flatMap id).filter fun v => p (f.decode v)).length
  match sop with
  | 1 => foldBeats f 0 beats
  | 2 => foldBeats f 0 (beats.map fun b => b.map fun v => f.round 0 false (Num.mul (f.decode v) (f.decode v)))
  | 3 => foldBeats f 1 beats
  | 4 => foldBeats f 2 beats
  | 5 => foldBeats f 1 (beats.map fun b => b.map (laneAbs f))
  | 6 => count fun x => !x.isFinite
  | 7 => count fun x => x == .nan
  | 8 => count fun x => !x.isZero
  | 9 => some (if sat then 1 else 0)
  | _ => none

/-- The Reef's combination of the tiles' values over the tree on logical tile numbers (R153). -/
def reefSummary (f : Fmt) (sop : Nat) (vals : List (Option Nat)) : Nat :=
  if 6 ≤ sop then (vals.map (·.getD 0)).sum % 2 ^ 64
  else
    let op := match sop with | 3 | 5 => 1 | 4 => 2 | _ => 0
    match pairTree (laneRed f op) 10 vals with
    | some v => v
    | none => match sop with
      | 3 => f.round 0 false (.inf true)
      | 4 => f.round 0 false (.inf false)
      | _ => 0

/-! ### The flow part -/

/-- Whether a flow part reads poison on a tile (R578, R244). -/
def flowBad (t : Tiles) (l : Nat) (o : ArrayOp) : Bool :=
  let c := o.cfg
  let (rows, cols) := mainDims c o.df
  (usesDf c && t.regionBad l o.df) ||
  (cfgVsrc c == 2 && t.lsBad l (cfgVaddr c) (sideCount (cfgVshape c) rows cols * (elemBits (cfgVtype c) / 8))) ||
  (readsBank c && (List.range rows).any fun i => (List.range cols).any fun j => t.accBad l o.fbank i j)

/-- The grid that a part writes, and its extents: the results, or their reductions along rows or columns (R146, R147). -/
def flowGrid (t : Tiles) (l : Nat) (o : ArrayOp) : Nat × Nat × (Nat → Nat → Nat) :=
  let c := o.cfg
  let f := laneFmt c
  let (rows, cols) := mainDims c o.df
  let res := fun i j => chainResult c (mainLane c t l o i j) (sideLane c t l o i j)
  let x := fun i j => if cfgRop c = 3 then laneAbs f (res i j) else res i j
  match cfgOmode c with
  | 1 => (rows, 1, fun i _ => (foldBeats f (cfgRop c) (beatsOf (beatWidth c) (cols + 1) ((List.range cols).map (x i)))).getD 0)
  | 2 => (1, cols, fun _ j => (foldSome (laneRed f (cfgRop c)) ((List.range rows).map fun i => some (x i j))).getD 0)
  | _ => (rows, cols, res)

/-- One tile's share of a flow part: the local store after it and its summary value (R146, R152, R153, R578). -/
def flowTile (o : ArrayOp) (t : Tiles) (l : Nat) : Tiles × Option Nat :=
  let c := o.cfg
  let f := laneFmt c
  let bad := flowBad t l o
  let (rows, cols, grid) := flowGrid t l o
  let w := beatWidth c
  let beat := fun (vs : List Nat) => beatsOf w (vs.length + 1) vs
  let sat := sget (fun _ => false) t.sat (l * 2 + o.fbank)
  let sum := fun beats => if bad then none else tileSummary f (cfgSop c) beats sat
  if cfgOmode c = 3 then
    (t, sum ((List.range rows).flatMap fun i => beat ((List.range cols).map (grid i))))
  else
    let out := emit c o.dc rows cols grid
    let u := t.clearRegion l o.dc
    let u := out.elems.foldl (fun (u : Tiles) x => u.putCode l o.dc x.1 x.2.1 x.2.2 bad) u
    let s := (tileAddr o.dc l).toNat + 64 * descScaleOff o.dc
    let u := out.scales.foldl (fun (u : Tiles) x => u.lsPut l (s + x.1) [BitVec.ofNat 8 x.2] bad) u
    let back := fun i j => ((out.back.find? fun x => x.1 == i && x.2.1 == j).map (·.2.2)).getD 0
    let beats := match cfgOmode c with
      | 0 => (List.range rows).flatMap fun i => beat ((List.range cols).map (back i))
      | 1 => beat ((List.range rows).map fun i => back i 0)
      | _ => beat ((List.range cols).map (back 0))
    (u, sum beats)

/-- The flow part on the whole Reef and the Reef's summary (R146, R153). -/
def Dev.flowPart (d : Dev) (o : ArrayOp) : Dev × Nat :=
  let r := (List.range 640).foldl (fun (p : Tiles × List (Option Nat)) l =>
    let (t, v) := flowTile o p.1 l
    (t, p.2 ++ [v])) (d.tiles, [])
  ({ d with tiles := r.1 }, reefSummary (laneFmt o.cfg) (cfgSop o.cfg) r.2)

end Sys2Proof.Machine
end

