-- ==== Sys2Proof/Machine/FeSteps.lean ====
section
/-! DEFINITION. The steps of the front end: reading, checking and admitting an entry (R351–R359), dispatching it, and what follows a completion (R363, R366, R371–R374). (DESIGN CHOICE, assumption 49) -/

namespace Sys2Proof.Machine

/-! ### Reads on behalf of an entry -/

/-- The bytes of a virtual range with their poison marks; bytes outside the pool come in order from what has arrived. -/
def Dev.vfetch (d : Dev) (tag va : Nat) : Nat → List Byte → Except Xlate (List (Byte × Bool) × List Byte)
  | 0, sup => .ok ([], sup)
  | n + 1, sup =>
    match d.xlate tag va .read with
    | .pa a =>
      if inPool a then
        match d.vfetch tag (va + 1) n sup with
        | .ok (r, sup) => .ok ((d.byteAt a, d.poisonAt a) :: r, sup)
        | .error e => .error e
      else match sup with
        | [] => .error .waits
        | b :: sup =>
          match d.vfetch tag (va + 1) n sup with
          | .ok (r, sup) => .ok ((b, false) :: r, sup)
          | .error e => .error e
    | x => .error x

/-- The bytes of a virtual range, ended POISON_CONSUMED when one is poisoned (R244). -/
def Dev.vtake (d : Dev) (tag va n : Nat) (sup : List Byte) : Except Xlate (List Byte × List Byte) :=
  match d.vfetch tag va n sup with
  | .ok (r, sup) => if r.any (·.2) then .error (.ended .poisonConsumed) else .ok (r.map (·.1), sup)
  | .error e => .error e

/-! ### Form (R351, R357 step 2) -/

/-- The body bytes that each opcode's body lists (Tables 12.4–12.6, 12.8): offset and size. -/
def bodyFields : Nat → List (Nat × Nat)
  | 0x01 => [(32, 8), (40, 8), (48, 4), (52, 2), (54, 1), (56, 8), (64, 8)]
  | 0x02 => [(32, 8), (40, 8), (48, 4), (52, 2), (54, 1), (56, 8), (64, 6), (72, 8)]
  | 0x03 => [(32, 8), (40, 8), (48, 8), (56, 2)]
  | 0x04 => [(32, 1), (36, 4), (40, 8), (48, 8), (56, 8), (64, 8), (72, 2), (76, 4), (80, 8)]
  | 0x05 => [(32, 8)]
  | 0x06 => [(32, 8), (40, 8), (48, 8), (56, 1), (60, 4)]
  | 0x09 => [(32, 8), (40, 8), (48, 8), (56, 8), (64, 3), (72, 8)]
  | 0x0A => [(32, 4)]
  | 0x0B => [(32, 4), (40, 8)]
  | 0x0C => [(32, 4)]
  | 0x40 => [(32, 1), (40, 8), (48, 8), (56, 8)]
  | 0x41 => [(32, 2)]
  | 0x42 => [(32, 7), (40, 8), (48, 8), (56, 6)]
  | 0x43 => [(32, 3)]
  | 0x44 => [(32, 2)]
  | 0x45 => [(32, 4), (40, 8), (48, 8)]
  | 0x46 => [(32, 2), (36, 4)]
  | 0x47 => [(32, 8), (40, 8), (48, 8)]
  | 0x48 => [(32, 8), (40, 8)]
  | 0x49 => [(32, 2), (36, 4)]
  | 0x4A => [(40, 8), (56, 8)]
  | 0x4B => [(40, 8)]
  | _ => []

/-- The reserved bits inside the fields of a body (Tables 9.2, 12.4, 12.8). -/
def bodyBitsOk (e : BitVec 1024) : Bool :=
  match entF e 0 1 with
  | 0x01 => decide (entF e 54 1 < 16)
  | 0x09 => Nat.land (entF e 32 4) 0xFFFFF0E0 == 0
  | 0x42 => decide (entF e 36 1 < 16)
  | _ => true

/-- Whether an entry's opcode is known and allowed on the queue and its reserved fields are 0 (R351, Table 12.3). -/
def formOk (qid : Nat) (e : BitVec 1024) : Bool :=
  let op := entF e 0 1
  (decide (op ≤ 0x0C) || (decide (0x40 ≤ op) && decide (op ≤ 0x4B) && qid == 0)) &&
  decide (entF e 1 1 < 16) && entF e 2 2 == 0 && decide (entF e 16 8 < 2 ^ 63) && decide (entF e 24 8 < 2 ^ 63) &&
  (List.range 96).all (fun i => (bodyFields op).any (fun f => decide (f.1 ≤ 32 + i) && decide (32 + i < f.1 + f.2))
    || entF e (32 + i) 1 == 0) && bodyBitsOk e

/-! ### Admission (R357 steps 4–7) -/

/-- What steps 4 to 7 decide: hold the entry, refuse it, or let it go as an operation with the event of a clamped split. -/
inductive Admit where
  | hold
  | refuse (st : Status) (cause : Nat)
  | go (o : FeOp) (asked used pool : Nat) (reef : Bool)

/-- An access that did not give data holds the entry or ends it with its status. -/
def Admit.ofXlate : Xlate → Admit
  | .ended st => .refuse st 0
  | _ => .hold

/-- Whether an array or thread operation is resident on the Reef: dispatched and not ended. -/
def FeOp.onReef (o : FeOp) : Bool := (o.opcode == 1 || o.opcode == 2) && !o.ended

/-- The split that the last launch dispatched set or will set, with its thread pool (R76, R159). -/
def Dev.splitNow (d : Dev) : Nat × Nat :=
  match d.tiles.splitNext with
  | some (_, ls, ps) => (ls, ps)
  | none => (d.tiles.split, d.tiles.pool)

/-- Whether work of the owner is resident on the Reef (R96); a context's saved work is not. -/
def Dev.resident (d : Dev) : Bool :=
  d.rd REEF_STATUS_OWNER_VALID == 1 && d.fe.ops.any fun o => o.onReef && o.tag == d.rd REEF_STATUS_OWNER_TAG

/-- Whether the Reef takes a launch of a context with a split: the owner's, and no other split while work is resident (R76, R96). -/
def Dev.reefTakes (d : Dev) (tag ls ps : Nat) (threads : Bool) : Bool :=
  (d.rd REEF_STATUS_OWNER_VALID == 0 || d.rd REEF_STATUS_OWNER_TAG == tag) &&
  (d.tiles.handover == .idle || d.tiles.handover == .due || d.tiles.handover == .dueBoundary) &&
  (!d.resident || (d.splitNow.1 == ls && (!threads || d.splitNow.2 == ps)))

/-- The split a launch asks for and the one it gets (R76): none when it is refused. -/
def Dev.splitFor (d : Dev) (threads : Bool) (field hdrLs : Nat) : Nat × Option Nat :=
  let asked := if field = 0 then
      (if threads then (if d.splitNow.1 = 0 then d.rd REEF_SRAM_LIMIT_LS_MIN else d.splitNow.1) else hdrLs)
    else field
  if asked < 2 ∨ 14 < asked then (asked, none)
  else (asked, some (max (d.rd REEF_SRAM_LIMIT_LS_MIN) (min (d.rd REEF_SRAM_LIMIT_LS_MAX) asked)))

/-- The slots of a relocation list applied to a constant buffer (R359): the buffer, or the refusal. -/
def Dev.relocSlots (d : Dev) (tag : Nat) : List Nat → List Byte → Except (Status × Nat) (List Byte)
  | [], cb => .ok cb
  | off :: r, cb =>
    if off % 8 ≠ 0 ∨ cb.length < off + 8 then .error (.aborted, 0x81)
    else
      let slot := leNat ((cb.drop off).take 8)
      let h := slot % 2 ^ 32
      let v := if h = 0 then some 0 else if h / 2 ^ 30 = 3 then none else d.reloc tag (h / 2 ^ 30) h (slot / 2 ^ 32)
      match v with
      | none => .error (.handleInvalid, 0)
      | some v => d.relocSlots tag r (cb.take off ++ leBytes 8 v ++ cb.drop (off + 8))

/-- The handle-table entries of the objects that a list of handles references. -/
def Dev.objectRefs (d : Dev) (tag : Nat) (hs : List Nat) : List Nat :=
  hs.filterMap fun h => (d.handleObject tag h).map (·.id)

/-- A list of `n`-byte numbers from bytes. -/
def chunks (n : Nat) : Nat → List Byte → List Nat
  | 0, _ => []
  | k + 1, bs => leNat (bs.take n) :: chunks n k (bs.drop n)

/-- Steps 4 to 7 for a launch (opcodes 1 and 2): split, room, relocation, checks and the buffer's copy. -/
def Dev.admitLaunch (d : Dev) (tag : Nat) (e : BitVec 1024) (o : FeOp) (sup : List Byte) : Admit :=
  let threads := entF e 0 1 == 2
  match d.vtake tag (entF e 32 8) 64 sup with
  | .error x => Admit.ofXlate x
  | .ok (hb, sup) =>
    let h := leNat hb
    let (asked, used) := d.splitFor threads (entF e 54 1 % 16) (hdrF h 3 1)
    let ps := if threads then entF e 54 1 / 16 else d.splitNow.2
    if threads ∧ 16 ≤ (d.fe.ops.filter fun o => o.opcode == 2 && !o.ended).length then .hold
    else if !d.reefTakes tag (used.getD d.splitNow.1) ps threads then .hold
    else
      let cbLen := entF e 48 4
      let nr := entF e 52 2
      if 65536 < cbLen ∨ 4096 < nr then .refuse .aborted 0x81
      else match d.vtake tag (entF e 40 8) cbLen sup with
        | .error x => Admit.ofXlate x
        | .ok (cb, sup) =>
          match d.vtake tag (entF e 56 8) (4 * nr) sup with
          | .error x => Admit.ofXlate x
          | .ok (rl, _) =>
            let offs := chunks 4 nr rl
            match d.relocSlots tag offs cb with
            | .error (st, c) => .refuse st c
            | .ok cb' =>
              if !threads ∧ cbLen < hdrF h 12 4 then .refuse .aborted 0x81
              else match used with
                | none => .refuse .aborted 0x82
                | some ls =>
                  if (d.context? tag).all (·.saveLen == 0) then .refuse .aborted 0x82
                  else if threads ∧ (ls < ps ∨ entF e 64 4 = 0) then .refuse .aborted 0x82
                  else
                    let refs := d.objectRefs tag (offs.map fun off => leNat ((cb.drop off).take 4))
                    let ord := if threads then hdrF h 5 1 % 2 = 1 else hdrF h 16 8 / 4 % 2 = 1
                    .go { o with cb := cb', split := ls, refs := refs, ordered := ord } asked ls ps true

/-- Whether an agent is in service: neither DEAD nor ABSENT. -/
def Dev.inService (d : Dev) (a : Nat) : Bool := d.agentState a != 3 && d.agentState a != 4

/-- Whether a copy engine lies on C1 while that die is in an in-service reset or stays REFUSED (R451, R452). -/
def Dev.engineAway (d : Dev) (g : Nat) : Bool :=
  (g == 18 || g == 19) && [3, 4, 5, 7].contains (d.rd (NRW_DIE_STATE 5))

/-- Whether a function has no engine left in service (R492). -/
def Dev.functionLost (d : Dev) (f : Nat) : Bool :=
  let all := fun (l : List Nat) => l.all fun a => !d.inService a
  match f with
  | 2 => all ((List.range 20).map (0x20 + ·))
  | 3 => all [0x34, 0x35]
  | 4 => all [0x36, 0x37]
  | 5 => all (List.range 9 ++ (List.range 9).map (16 + ·))
  | _ => false

/-- The copy engine with the fewest operations queued, ties to the lowest number (Table 12.5). -/
def Dev.leastEngine (d : Dev) : Nat :=
  let load := fun g => (d.fe.ops.filter fun o => o.opcode == 3 && o.unit == g && !o.ended).length
  let up := (List.range 20).filter fun g => d.inService (0x20 + g) && !d.engineAway g
  up.foldl (fun m g => if load g < load m then g else m) (up.headD 0)

/-- Steps 5 and 6 for the opcodes that are no launch. -/
def Dev.admitOther (d : Dev) (tag : Nat) (e : BitVec 1024) (o : FeOp) (sup : List Byte) : Admit :=
  let ok := Admit.go o 0 0 0 false
  match entF e 0 1 with
  | 0x03 =>
    let s := entF e 32 8; let t := entF e 40 8; let n := entF e 48 8; let g := entF e 56 1
    if n = 0 ∨ 2 ^ 40 < n ∨ (19 < g ∧ g ≠ 0xFF) ∨ (s < t + n ∧ t < s + n) then .refuse .aborted 0x82
    else .go { o with unit := if g = 0xFF then d.leastEngine else g } 0 0 0 false
  | 0x04 =>
    let task := entF e 32 1
    if (task = 5 ∨ task = 6 ∨ task = 7) ∧ (d.handleObject tag (entF e 36 4)).isNone then .refuse .handleInvalid 0
    else if task = 7 ∧ entF e 76 4 ≠ 0 ∧ (d.reloc tag 1 (entF e 76 4) 0).isNone then .refuse .handleInvalid 0
    else if task = 0 ∨ 8 < task then .refuse .aborted 0x82
    else if 2048 ≤ (d.fe.ops.filter fun o => o.opcode == 4 && !o.ended).length then .hold
    else .go { o with refs := if task = 7 then d.objectRefs tag [entF e 36 4] else [] } 0 0 0 false
  | 0x05 =>
    if 64 ≤ (d.fe.ops.filter fun o => o.opcode == 5 && !o.ended).length then .hold
    else match d.vtake tag (entF e 32 8) 64 sup with
      | .error x => Admit.ofXlate x
      | .ok (bs, _) =>
        let j := leNat bs / 2 ^ 40 % 2 ^ 8
        if 15 < j ∨ d.rd (NFP_JOB_W0_VALID j) = 0 ∨ d.rd (NFP_JOB_W0_TAG j) ≠ tag then .refuse .aborted 0x82
        else .go { o with cb := bs, ordered := leNat bs / 2 ^ 8 % 2 ^ 8 = 0 } 0 0 0 false
  | 0x06 =>
    let c := entF e 56 1
    if 63 < c ∧ c ≠ 0xFF then .refuse .aborted 0x82
    else
      let go := Admit.go { o with ordered := false } 0 0 0 false
      if c = 0xFF then go
      else match d.physCore (c / 32) (c % 32) with
        | none => .refuse .resourceLost 0
        | some p => if d.agentState (16 * (c / 32) + p / 4) = 0 then go else .hold
  | 0x0A => if (d.handleObject tag (entF e 32 4)).isNone then .refuse .handleInvalid 0 else ok
  | 0x0C =>
    match d.reloc tag 3 (entF e 32 4) 0 with
    | none => .refuse .handleInvalid 0
    | some _ => ok
  | _ => ok

/-- Steps 4 to 7 of R357 for an entry of a queue, or for a node of a graph that a queue launched (R371). -/
def Dev.intake (d : Dev) (qid tag : Nat) (e : BitVec 1024) (sup : List Byte) (parent : Option Nat)
    (graph : Option (Nat × Nat)) : Admit :=
  match functionOf (entF e 0 1) with
  | some f => if d.funcState f ≠ 0 then .refuse .aborted 0x85 else if d.functionLost f then .refuse .resourceLost 0 else rest
  | none => rest
where
  /-- The steps after the check of the function. -/
  rest : Admit :=
    if 4096 ≤ d.fe.ops.length then .hold
    else
      let sigH := entF e 12 4
      let sig := if sigH = 0 then some none else (d.reloc tag 1 sigH 0).map some
      match sig with
      | none => .refuse .handleInvalid 0
      | some sig =>
        if sig.any (fun i => (d.fence? i).all (·.signaller != some qid)) then .refuse .handleInvalid 0
        else
          let o : FeOp := ⟨d.fe.nextOp, qid, e, tag, .dispatched, d.tick, sig, [], parent, [], 0, 0xFFFF, graph, false, true,
            d.fe.gdn + 1, !d.isWindward⟩
          if entF e 0 1 = 1 ∨ entF e 0 1 = 2 then d.admitLaunch tag e o sup else d.admitOther tag e o sup

/-- A GRAPH_LAUNCH binds to the current version of its graph (R370). -/
def Dev.bindGraph (d : Dev) (o : FeOp) : Dev :=
  match d.reloc o.tag 3 (entF o.entry 32 4) 0 with
  | none => d
  | some g =>
    match d.fe.graphs.find? (·.id == g) with
    | none => d
    | some gr =>
      let n := ((gr.versions.find? (·.num == gr.current)).map (·.nodes.length)).getD 0
      { d with fe := { d.fe with runs := d.fe.runs ++ [⟨o.id, g, gr.current, List.replicate n 0, [], none⟩] } }

/-- Step 8: the operation takes a tracker and is in flight; the Reef's owner and split follow a launch (R76, R96, R357). -/
def Dev.dispatch (d : Dev) (o : FeOp) (asked used pool : Nat) (reef : Bool) : Dev :=
  let d := if reef ∧ asked ≠ used then d.event 7 0 6 o.qid (entF o.entry 4 4) asked used else d
  let d := if reef ∧ d.splitNow ≠ (used, pool) then
      { d with tiles := { d.tiles with splitNext := some (o.id, used, pool) } } else d
  let d := if reef ∧ d.rd REEF_STATUS_OWNER_VALID = 0 then
      ((d.wr REEF_STATUS_OWNER_VALID 1).wr REEF_STATUS_OWNER_TAG o.tag).wr REEF_STATUS_STATE 1 |> fun d =>
        { d with tiles := { d.tiles with ownerSince := d.now } } else d
  let d := { d with fe := { d.fe with ops := d.fe.ops ++ [o], nextOp := d.fe.nextOp + 1, gdn := d.fe.gdn + 1 } }
  let d := if d.isWindward then (d.send (.twin o.gdn 0 0)).inc TWN_STATUS_LAG else d
  let d := if o.opcode = 0x0C then d.bindGraph o else d
  d.feSync o.qid

/-! ### The head of a queue (R357) -/

/-- The head waits on a fence from now on, and its wait may close a cycle (R362, R363). -/
def Dev.beginWait (d : Dev) (qid : Nat) (h : Head) (onDev : Bool) : Dev :=
  if h.waitAt.isSome then d
  else
    let d := d.updQueue qid fun q => { q with head := some { h with waitAt := some d.now } }
    let d := d.setQState qid 2
    if onDev then d.cycleCheck qid else d

/-- Whether an entry's parent lets it go: none when it must wait (R367). -/
def Dev.parentState (d : Dev) (h : Head) : Option Bool :=
  match h.parent with
  | none => some true
  | some p =>
    if entF h.entry 1 1 / 2 % 2 = 1 then some true
    else match getKey d.fe.ended p with
      | some ok => some ok
      | none => if (d.op? p).isSome then none else some true

/-- A context whose launch waits for the Reef joins those that wait for a hand-over (R96, R97). -/
def Dev.noteReef (d : Dev) (tag : Nat) (e : BitVec 1024) : Dev :=
  if (entF e 0 1 = 1 ∨ entF e 0 1 = 2) ∧ d.rd REEF_STATUS_OWNER_VALID = 1 ∧ d.rd REEF_STATUS_OWNER_TAG ≠ tag ∧ !d.tiles.waiting.contains tag then
    { d with tiles := { d.tiles with waiting := d.tiles.waiting ++ [tag] } }
  else d

/-- The entry at a queue's head passes steps 2 to 8 of R357; after the loss of a die it completes RESOURCE_LOST (R454), after entry to RMA or END NOT_PERMITTED (R516). -/
def Dev.runHead (d : Dev) (qid : Nat) (h : Head) (sup : List Byte) : Dev :=
  let tag := d.rd (FE_Q_STATE_TAG qid)
  let e := h.entry
  if d.sec.locked then d.refuse qid .notPermitted 0
  else if !d.ras.lostDies.isEmpty then d.refuse qid .resourceLost 0
  else if !formOk qid e then d.refuse qid .aborted 0x80
  else if entF e 1 1 / 4 % 2 = 1 ∧ d.inFlight qid ≠ 0 then d.setQState qid 3
  else match d.parentState h with
    | none => d.setQState qid 3
    | some false => d.refuse qid .aborted 0x83
    | some true =>
      match d.waitState tag e with
      | .bad => d.refuse qid .handleInvalid 0
      | .error => d.refuse qid .aborted 0x84
      | .onDevice _ => d.beginWait qid h true
      | .offDevice => d.beginWait qid h false
      | .satisfied =>
        if (d.queue? qid).any Queue.full then d.setQState qid 3
        else match d.intake qid tag e sup h.parent none with
        | .hold => (d.noteReef tag e).setQState qid 3
        | .refuse st c => d.refuse qid st c
        | .go o asked used pool reef =>
          ((d.updQueue qid fun q => { q with head := none }).setQState qid 1).dispatch o asked used pool reef

/-! ### Graphs (R369–R371) -/

/-- The version that a launch is bound to. -/
def Dev.runVersion (d : Dev) (r : GraphRun) : Option GraphVersion :=
  (d.fe.graphs.find? (·.id == r.graph)).bind fun g => g.versions.find? (·.num == r.version)

/-- What a node that waits comes to: true ready, false skipped, none still waiting (R371). -/
def nodeReady (v : GraphVersion) (st : List Nat) (i : Nat) : Option Bool :=
  let preds := v.edges.filterMap fun e => if e.2 = i then some (st.getD e.1 0) else none
  if preds.any (fun s => s == 3 || s == 4) then some false
  else if preds.all (· == 2) then some true else none

/-- The device with a run changed. -/
def Dev.updRun (d : Dev) (op : Nat) (f : GraphRun → GraphRun) : Dev :=
  { d with fe := { d.fe with runs := updWhere (·.op == op) f d.fe.runs } }

/-- A node's outcome noted in its run. -/
def Dev.nodeEnd (d : Dev) (op i : Nat) (st : Status) (cause start : Nat) : Dev :=
  d.updRun op fun r => { r with
    nodes := r.nodes.set i (if st = .ok then 2 else 3)
    fails := if st = .ok then r.fails else r.fails ++ [(i, st, cause)]
    start := some (match r.start with | some a => min a start | none => start) }

/-- One node of a run is looked at: skipped, dispatched, failed at its dispatch, or left waiting; a leeward dispatches it by its record (R371, R462). -/
def Dev.nodeStep (d : Dev) (op qid tag i : Nat) : Dev :=
  match d.fe.runs.find? (·.op == op) with
  | none => d
  | some r =>
    if r.nodes.getD i 4 ≠ 0 then d
    else match d.runVersion r with
      | none => d
      | some v =>
        match nodeReady v r.nodes i with
        | none => d
        | some false => d.updRun op fun r => { r with nodes := r.nodes.set i 4 }
        | some true =>
          let e := v.nodes.getD i 0
          if !formOk qid e then d.nodeEnd op i .aborted 0x80 d.tick
          else match d.intake qid tag e [] none (some (op, i)) with
            | .hold => d
            | .refuse st c => d.nodeEnd op i st c d.tick
            | .go o asked used pool reef =>
              if d.isLeeward then d
              else (d.updRun op fun r => { r with nodes := r.nodes.set i 1 }).dispatch o asked used pool reef

/-- Ready nodes are dispatched in ascending index, again while nodes are skipped or fail; the launch ends when none is left (R371). -/
def Dev.graphStep (d : Dev) (op qid tag : Nat) : Nat → Dev
  | 0 => d
  | n + 1 =>
    match d.fe.runs.find? (·.op == op) with
    | none => d
    | some r =>
      if r.nodes.all (fun s => decide (2 ≤ s)) then
        let low := r.fails.foldl (fun m f => match m with
          | none => some f
          | some g => if f.1 < g.1 then some f else m) (none : Option (Nat × Status × Nat))
        match low with
        | none => d.finish op .ok 0 0xFFFFFFFF
        | some (i, st, c) => d.finish op st c (BitVec.ofNat 32 i)
      else
        let d' := (List.range r.nodes.length).foldl (fun d i => d.nodeStep op qid tag i) d
        if (d'.fe.runs.find? (·.op == op)).map (·.nodes) = some r.nodes then d' else d'.graphStep op qid tag n

/-- Versions that are neither current nor bound to a launch are freed, and a destroyed graph without them (R370). -/
def Dev.pruneGraphs (d : Dev) : Dev :=
  let used := fun (g : Graph) (v : GraphVersion) =>
    (v.num == g.current && !g.dead) || d.fe.runs.any fun r => r.graph == g.id && r.version == v.num
  let gs := d.fe.graphs.map fun g => { g with versions := g.versions.filter (used g) }
  { d with fe := { d.fe with graphs := gs.filter fun g => !(g.dead && g.versions.isEmpty) } }

/-! ### Draining and destruction (R366, R372–R374) -/

/-- Zeros written over a range in HBM or, in packets of 4,096 bytes, in the host window. -/
def Dev.zeroRecord (d : Dev) (a n : Nat) : Dev :=
  if inPool a then d.putBytes a (List.replicate n 0)
  else (List.range ((n + 4095) / 4096)).foldl (fun d i => d.putRecord (a + 4096 * i) (List.replicate (min 4096 (n - 4096 * i)) 0)) d

/-- A queue's entries not dispatched are discarded and it drains; `op` waits for its end, 0 for none (R366 step 1). -/
def Dev.drainQueue (d : Dev) (qid op : Nat) (destroy : Bool) : Dev :=
  (d.updQueue qid fun q => { q with head := none, devRing := [], draining := some op, destroy := destroy }).setQState qid 6

/-- A drained queue is reset or destroyed once nothing of it is in flight (R366). -/
def Dev.drainStep (d : Dev) (qid : Nat) : Dev :=
  match d.queue? qid with
  | none => d
  | some q =>
    match q.draining with
    | none => d
    | some op =>
      if d.inFlight qid ≠ 0 then d
      else if q.destroy then
        let sigs := d.fe.fences.filter (·.signaller == some qid)
        let d := sigs.foldl (fun d f => d.errFence f.index) d
        let fs := updWhere (·.signaller == some qid) (fun f => { f with signaller := none, orphan := true }) d.fe.fences
        let d := { d with fe := { d.fe with queues := d.fe.queues.filter (·.qid != qid), fences := fs } }
        let d := (d.setWord (FE_Q_STATE_STATE qid).reg 0).setWord (FE_Q_COUNT_HEAD qid).reg 0
        let d := d.freeHandle fun h => h.kind == 2 && h.target == qid && h.live
        (d.finish op .ok).feSync qid
      else
        let d := d.zeroRecord q.cqPa (2 ^ q.cqLog2 * 32)
        let d := (d.updQueue qid fun q => { q with draining := none, posted := 0, cqHead := 0 }).setWord (FE_Q_COUNT_HEAD qid).reg 0
        if qid = 0 ∧ (d.rd FE_ADMIN_SQ_EN = 0 ∨ d.rd FE_ADMIN_CQ_EN = 0) then
          ({ d with fe := { d.fe with queues := d.fe.queues.filter (·.qid != 0) } }.setQState 0 0).feSync 0
        else (d.setQState qid 1).finish op .ok

/-- The handle table's object of a FREE is removed from the tables and its range invalidated once nothing references it (R373). -/
def Dev.freeStep (d : Dev) (op : Nat) : Dev :=
  match d.fe.objects.find? (·.freeing == some op) with
  | none => d
  | some o =>
    if d.fe.ops.any (fun p => p.id != op && p.refs.contains o.id) ∨ !d.invalRoom
        ∨ d.ctu.invals.any (·.src == some op) then d
    else match d.context? o.tag with
      | none => d
      | some c =>
        let level := o.flags.toNat / 2 ^ 10 % 4
        let d := if o.tier = 0 then d else d.dropObject o.tag o.ident
        let d := (List.range ((o.size + levelSpan level - 1) / levelSpan level)).foldl
          (fun d i => d.setLeaf (o.base + i * levelSpan level) level 0 4 c.root) d
        d.startInval (some op) o.tag (some (o.base, o.base + o.size))

/-- Steps 3 and 4 of a destruction: fault records freed, windows closed, streamed references dropped, saved Reef state given up (R374). -/
def Dev.destroyTail (d : Dev) (tag : Nat) : Dev :=
  let d := d.freeFaults tag .aborted
  let d := (d.tier.bindings.filter fun b => b.fill.isNone && b.tag == tag).foldl (fun d b => d.closeWin b.win) d
  let idents := (d.fe.objects.filter fun o => o.tag == tag && o.tier != 0).map (·.ident)
  let d := idents.foldl (fun d i => d.dropObject tag i) d
  { d with tiles := { d.tiles with saved := d.tiles.saved.filter (·.tag != tag), waiting := d.tiles.waiting.filter (· != tag) } }

/-- A context's destruction goes on from step 3 once no operation of it is in flight (R374). -/
def Dev.destroyStep (d : Dev) (tag : Nat) : Dev :=
  match d.context? tag with
  | none => d
  | some c =>
    match c.dying with
    | none => d
    | some op =>
      if d.fe.ops.any (fun o => o.tag == tag) ∨ d.ctu.invals.any (·.src == some op) ∨ !d.invalRoom then d
      else
        let d := d.destroyTail tag
        let idents := (d.fe.objects.filter fun o => o.tag == tag && o.tier == 1).map (·.ident)
        let qs := d.fe.queues.filter fun q => d.rd (FE_Q_STATE_TAG q.qid) == tag
        let d := qs.foldl (fun d q => (d.setWord (FE_Q_STATE_STATE q.qid).reg 0).setWord (FE_Q_COUNT_HEAD q.qid).reg 0) d
        let d := (d.fe.fences.filter (·.tag == tag)).foldl (fun d f => d.setWord (FE_FENCE_VALUE f.index).reg 0) d
        let held := (d.fe.objects.filter (·.tag == tag)).flatMap (·.frames)
        let d := { d with fe := { d.fe with
          queues := d.fe.queues.filter fun q => !qs.any (·.qid == q.qid)
          fences := d.fe.fences.filter (·.tag != tag)
          objects := d.fe.objects.filter (·.tag != tag)
          graphs := d.fe.graphs.filter (·.tag != tag)
          handles := d.fe.handles.filter (·.tag != tag)
          ranges := d.fe.ranges.filter fun r => !held.contains r.1 } }
        let d := (idents.foldl (fun d i => d.closeDirent i) d).tierSettle
        d.startInval (some op) tag none

/-- The table pages of a tree, level by level from a table, that the front end allocated (R348). -/
def Dev.tablePages (d : Dev) : Nat → Nat → List Nat
  | 0, table => [table]
  | l + 1, table => table :: (List.range 512).flatMap fun i =>
      match walkEntry (l + 1) (BitVec.ofNat 64 (d.natAt (table + 8 * i) 8)) with
      | .next t => if d.fe.ranges.any (·.1 == t) then d.tablePages l t else []
      | _ => []

/-- An invalidation that a front-end operation started has completed: INVALIDATE and EVICT end, FREE frees the memory, DESTROY_CONTEXT ends (R331, R373, R374). -/
def Dev.invalDone (d : Dev) (op : Nat) : Dev :=
  match d.op? op with
  | none => d
  | some o =>
    match o.opcode with
    | 0x0A =>
      match d.fe.objects.find? (·.freeing == some op) with
      | none => d.finish op .ok
      | some ob =>
        let d := { d with fe := { d.fe with objects := d.fe.objects.filter (·.id != ob.id),
                                            ranges := d.fe.ranges.filter fun r => !ob.frames.contains r.1 } }
        let d := if ob.tier = 1 then d.closeDirent ob.ident else d
        (d.finish op .ok).tierSettle
    | 0x41 =>
      match d.fe.contexts.find? (·.dying == some op) with
      | none => d.finish op .ok
      | some c =>
        let pages := d.tablePages 4 c.root
        let d := d.setWord (CTU_CTX_VALID c.slot).reg 0
        let d := { d with fe := { d.fe with contexts := d.fe.contexts.filter (·.tag != c.tag),
                                            ranges := d.fe.ranges.filter fun r => !pages.contains r.1 } }
        (d.finish op .ok).feSync 0
    | _ => d.finish op .ok

/-- A function that drains is DISABLED once none of its operations is left (R372 step 4). -/
def Dev.funcStep (d : Dev) (f : Nat) : Dev :=
  if d.funcState f = 1 ∧ !d.fe.ops.any (fun o => functionOf o.opcode == some f) then d.setFuncState f 2 else d

/-- What may go on after an operation has left: cycle checks, drains, frees, destructions, functions, graphs (R363, R366, R370–R374). -/
def Dev.afterLeave (d : Dev) (o : FeOp) : Dev :=
  let d := if d.inFlight o.qid = 0 ∧ (d.waitsOn o.qid).isSome then d.cycleCheck o.qid else d
  let d := d.drainStep o.qid
  let d := (d.fe.objects.filterMap (·.freeing)).foldl (fun d op => d.freeStep op) d
  let d := d.destroyStep o.tag
  let d := (List.range 6).foldl (fun d f => d.funcStep f) d
  d.pruneGraphs

/-- The Reef without resident work has no owner any more; it goes to the context that has waited longest, whose saved state is restored first (R96–R98). -/
def Dev.ownerStep (d : Dev) : Dev :=
  let free : Bool := match d.tiles.handover with | .idle | .due | .dueBoundary => true | _ => false
  if d.rd REEF_STATUS_OWNER_VALID = 1 ∧ !d.resident ∧ free then
    let d := (d.wr REEF_STATUS_OWNER_VALID 0).wr REEF_STATUS_STATE 0
    match d.tiles.waiting with
    | [] => { d with tiles := { d.tiles with handover := .idle } }
    | t :: r =>
      let saved := d.tiles.saved.any (·.tag == t)
      let d := if saved then d.wr REEF_STATUS_STATE 4 else d
      { d with tiles := { d.tiles with waiting := r, handover := if saved then .restoring t else .idle } }
  else d

/-- An operation whose work has ended leaves its tracker: a queue's entry is completed, a node's outcome goes to its run (R358, R371, R376). -/
def Dev.leave (d : Dev) (o : FeOp) (st : Status) (cause : Nat) (exit : BitVec 32) : Dev :=
  let child := d.fe.queues.any fun q => q.devRing.any (fun e => e.2 == o.id) || q.head.any (fun h => h.parent == some o.id)
  let d := { d with fe := { d.fe with ops := d.fe.ops.filter (·.id != o.id),
                                      ended := if child then d.fe.ended ++ [(o.id, decide (st = Status.ok))] else d.fe.ended,
                                      runs := d.fe.runs.filter (·.op != o.id) } }
  let d := if d.isWindward then d.send (.twin o.gdn 1 (BitVec.ofNat 256 (statusCode st))) else d
  let d := match o.graph with
    | some (g, i) =>
      let d := d.fenceEnd o.sigFence st (entF o.entry 24 8)
      (d.nodeEnd g i st cause o.start).graphStep g o.qid o.tag 5000
    | none => d.complete o.qid o.entry o.sigFence st cause exit.toNat o.start o.gdn o.tdLost
  ((d.feSync o.qid).afterLeave o).ownerStep

/-! ### Device-owned queues (R367) -/

/-- An entry appended to a device-owned queue of a context by a launch or core task: OK, BUSY or HANDLE_INVALID. -/
def Dev.enqueue (d : Dev) (tag qid parent : Nat) (bs : List Byte) : Dev × Status :=
  match d.queue? qid with
  | none => (d, .handleInvalid)
  | some q =>
    if d.rd (FE_Q_STATE_DEVICE_OWNED qid) = 0 ∨ d.rd (FE_Q_STATE_TAG qid) ≠ tag ∨ d.qState qid = 6 then (d, .handleInvalid)
    else
      let tail := d.rd (FE_Q_COUNT_TAIL qid)
      if 2 ^ q.sqLog2 ≤ q.devRing.length then (d, .busy)
      else
        let e := BitVec.ofNat 1024 (leNat (bs.take 4 ++ leBytes 4 (tail + 1) ++ (bs.drop 8).take 120))
        ((d.updQueue qid fun q => { q with devRing := q.devRing ++ [(e, parent)] }).wr (FE_Q_COUNT_TAIL qid) (tail + 1), .ok)

end Sys2Proof.Machine
end

