-- ==== Sys2Proof/Machine/LossOps.lean ====
section
/-! DEFINITION. The shared operations on what is lost: the timing of a domain (R223), every operation in flight (R454, R478), a whole die (R95, R105, R454). -/

namespace Sys2Proof.Machine

/-- TD_OK is cleared, and TD_CAUSE holds the most recent cause (R223). -/
def Dev.tdLose (d : Dev) (cause : Nat) : Dev := (d.wr NFP_DOM_STATUS_TD_OK 0).wr NFP_DOM_STATUS_TD_CAUSE cause

/-- REEF_SEQ_FAULT takes a record (Table 4.14). -/
def Dev.seqFault (d : Dev) (pc cause st : Nat) : Dev :=
  (((d.wr REEF_SEQ_FAULT_PC pc).wr REEF_SEQ_FAULT_CAUSE cause).wr REEF_SEQ_FAULT_STATUS st).wr REEF_SEQ_FAULT_VALID 1

/-- The Reef gives up every launch it holds; a launch that was running leaves its record (Tables 4.14 and 6.8). -/
def Dev.dropReef (d : Dev) (st : Status) (regCause : Nat) : Dev :=
  let d := if d.seq.launch.isSome then
      ((d.seqFault d.seq.pc regCause (statusCode st)).wr REEF_SEQ_STATUS_STATE 3).wr REEF_SEQ_STATUS_WAIT 0 else d
  let d := d.thr.launches.foldl (fun d _ => d.thrFaultOpen none regCause (statusCode st)) d
  let d := { d with seq := { d.seq with launch := none, ops := [], moves := [], inIssue := none, stall := none }
                    thr := { d.thr with launches := [], waiting := [], blocks := [], groups := [], accs := [], blkRed := [] } }
  (d.updTiles fun t => { t with saved := [], waiting := [], splitNext := none, handover := .idle }).tdSync

/-- The engines outside the Reef give up the work of every operation. -/
def Dev.dropEngines (d : Dev) : Dev :=
  let d := (d.tier.bindings.filter (·.op.isSome)).foldl (fun d b => d.closeWin b.win) d
  { d with tier := { d.tier with waiters := d.tier.waiters.filter (·.op.isNone), publishes := [] }
           nfp := { d.nfp with colls := [], reqs := d.nfp.reqs.filter (·.op.isNone) }
           str := { d.str with reqs := d.str.reqs.filter (·.op.isNone) }
           cores := { d.cores with cores := d.cores.cores.map fun k => { k with task := none, held := none, resv := none } }
           fe := { d.fe with runs := [] } }

/-- Every operation in flight ends with a status, and no engine works on any of them further (R454, R478). -/
def Dev.endAll (d : Dev) (st : Status) (cause regCause : Nat) : Dev :=
  let d := d.nfp.colls.foldl (fun d c => d.collEnd c.op st cause) d
  let d := (d.dropReef st regCause).dropEngines
  d.fe.ops.foldl (fun d o => d.finish o.id st cause) d

/-- A die is lost: RESOURCE_LOST for the whole device, a FATAL event, the dump, and FAILING to the partner unless the die is C1; with C0 no completion is posted any more (R454, R473, R509). -/
def Dev.dieLost (d : Dev) (die : Nat) : Dev :=
  if d.ras.lostDies.contains die then d
  else
    let d := (d.wr (NRW_DIE_STATE die) 6).event 10 3 7 (16 + die) 0 0 0
    let d := { d with ras := { d.ras with lostDies := d.ras.lostDies ++ [die], fatal := d.ras.fatal || die == 4 } }
    let d := if die = 5 then d.wr TDM_STATUS_SHADOW_OK 0 else d.sendFailing
    let d := if die = 4 then d.wr TDM_STATUS_SHADOW_OK 0 else d
    (d.beginDump (d.rd TDM_SEQ_SEQ + d.tdm.reports.length) 0xFF 0xFF die).endAll .resourceLost 0 0xFF

end Sys2Proof.Machine
end

