-- ==== Sys2Proof/Machine/TwinOps.lean ====
section
/-! DEFINITION. The shared operations of the twin pair: changes of state (R456), mismatch (R472), tally digests (R469–R471). (DEDUCED, assumption 27) -/

namespace Sys2Proof.Machine

/-- The device with its twin state changed. -/
def Dev.updTwn (d : Dev) (f : Twin → Twin) : Dev := { d with twn := f d.twn }

/-- A change of twin state: recorded, with vector 0 raised even on a leeward, and the cause shown (R456, Table 16.8). -/
def Dev.setTwin (d : Dev) (st cause : Nat) : Dev :=
  let sev := if st = 4 ∨ st = 5 ∨ st = 6 ∨ st = 8 then 2 else 0
  let d := ((d.wr TWN_STATUS_STATE st).wr TWN_STATUS_CAUSE cause).event 11 sev 1 0 d.twn.tseq st cause
  if d.twn.sendStopped then d else d.putInt 0

/-- A 256-bit digest in four registers (Table 16.12). -/
def Dev.putDigest (d : Dev) (f : Nat → Fld) (x : BitVec 256) : Dev :=
  (List.range 4).foldl (fun d i => d.wr (f i) (x.toNat / 2 ^ (64 * i))) d

/-- A tally mismatch or a divergence: this module is HELD until a verdict (R472). -/
def Dev.twinHold (d : Dev) (cause : Nat) : Dev :=
  if d.twState ≠ 3 then d
  else
    let d := (d.setTwin 4 cause).event 11 2 2 0 d.twn.tseq cause 0
    d.wr GLB_STATUS_TALLY_MISMATCH 1

/-- The leeward compares its digest with the windward's of the same TSEQ and answers (R471, R472). -/
def Dev.twinCompare (d : Dev) : Dev :=
  match d.twn.ownDig, d.twn.theirDig with
  | some (n, a), some (m, b) =>
    if n ≠ m ∨ !d.isLeeward ∨ d.twState ≠ 3 then d
    else if a = b then
      ((d.send (.twin n 6 0)).wr TWN_TALLY_LAST_AGREED n).updTwn fun t => { t with theirDig := none }
    else ((d.send (.twin n 7 a)).putDigest TWN_PDIGEST_BYTES b).twinHold 4
  | _, _ => d

/-- The input of a tally's digest, from its sets in order (R469). -/
def Dev.tallySets (d : Dev) (tag : Nat) : Nat → Nat → Except Xlate (Dev × List Byte)
  | 0, _ => .ok (d, [])
  | n + 1, i =>
    let va := d.rd (TWN_SET_W0_VA i)
    let len := d.rd (TWN_SET_W1_LENGTH i)
    match d.vgather tag va len with
    | .error x => .error x
    | .ok (d, bs) =>
      if bs.any (·.2) then .error (.ended .poisonConsumed)
      else match d.tallySets tag n (i + 1) with
        | .ok (d, r) => .ok (d, leBytes 8 va ++ leBytes 8 len ++ bs.map (·.1) ++ r)
        | .error x => .error x

/-- A tally in MIRRORING: TSEQ advances, the digest is formed and compared across the pair, and the windward's launch is held until the answer (R469, R471). -/
def Dev.tallyTake (d : Dev) (op imm : Nat) (sets : List Byte) : Dev :=
  let n := d.twn.tseq + 1
  let g := digest256 (leBytes 8 n ++ leBytes 4 imm ++ sets)
  let d := ((d.updTwn fun t => { t with tseq := n, ownDig := some (n, g) }).wr TWN_TALLY_LAST_TAKEN n).putDigest TWN_DIGEST_BYTES g
  if d.isWindward then (d.send (.twin n 5 g)).updTwn fun t => { t with heldTally := some op } else d.twinCompare

/-! ### The link and the partner (R476, R477) -/

/-- A PAIR command ends with a status, and the module is in a state of Table 16.1 for a cause (R477, R479). -/
def Dev.pairEnd (d : Dev) (st : Status) (state cause : Nat) : Dev :=
  let d := (d.wr TWN_CMD_STATUS (statusCode st)).wr TWN_CMD_GO 0
  (d.setTwin state cause).updTwn fun t => { t with seedStop := false, partnerId := none }

/-- MIRRORING begins on a module whose PAIR completes OK: TSEQ is 0 and nothing of an earlier pairing is left (R469, R479, R480). -/
def Dev.mirror (d : Dev) : Dev :=
  let d := d.updTwn fun t => { sendStopped := t.sendStopped, partnerLive := t.partnerLive }
  (d.wr TWN_STATUS_LAG 0).pairEnd .ok 3 0

/-- A windward whose seeding copy has ended enters MIRRORING once no operation is in flight (R480). -/
def Dev.seedStep (d : Dev) : Dev :=
  if d.twn.seedStop ∧ d.twState = 2 ∧ d.fe.ops.isEmpty then d.mirror else d

/-! ### What a leeward replays (R461–R467) -/

/-- A leeward has dispatched a record (R462). -/
def Dev.nodeTaken (d : Dev) (gdn id : Nat) : Dev :=
  let d := d.updTwn fun t => { t with dispatched := t.dispatched ++ [(gdn, id)] }
  d.wr TWN_STATUS_LAG (d.twn.records.length)

/-- A leeward has dispatched a queue's entry: the queue has advanced past it (R459, R462). -/
def Dev.recordTaken (d : Dev) (qid gdn id : Nat) : Dev :=
  (d.wr (FE_Q_COUNT_HEAD qid) (d.rd (FE_Q_COUNT_HEAD qid) + 1)).nodeTaken gdn id

/-- The operation takes its tracker: a leeward runs it, unless it is streamed (R461, R465). -/
def Dev.twinPlace (d : Dev) (o : FeOp) (asked used pool : Nat) (reef : Bool) : Dev :=
  if o.streamed && d.isLeeward then
    ({ d with fe := { d.fe with ops := d.fe.ops ++ [{ o with phase := .running }], nextOp := d.fe.nextOp + 1, gdn := o.gdn } }).feSync o.qid
  else d.dispatch o asked used pool reef

/-- Admission on a leeward, with the world's data from ANSWER records where it needs any. -/
def Dev.twinAdmit (d : Dev) (qid tag : Nat) (e : BitVec 1024) (parent : Option Nat) (graph : Option (Nat × Nat)) : Admit × Dev :=
  let world := (d.twn.answers.filter (!·.1)).flatMap (·.2.2.2)
  match d.intake qid tag e [] parent graph with
  | .hold => (d.intake qid tag e world parent graph, d.updTwn fun t => { t with answers := t.answers.filter (·.1) })
  | a => (a, d)

/-- A streamed task dispatched again after a takeover, its tracker and fence unchanged: false when it must wait (R474). -/
def Dev.takeAgain (d : Dev) (id : Nat) : Dev × Bool :=
  match d.op? id with
  | none => (d, true)
  | some o =>
    let d0 := { d with fe := { d.fe with ops := d.fe.ops.filter (·.id != id) } }
    match d0.twinAdmit o.qid o.tag o.entry o.parent o.graph with
    | (.hold, _) => (d, false)
    | (.refuse st c, _) => (d.finish id st c, true)
    | (.go o' asked used pool reef, d1) =>
      let n := { o' with id := id, gdn := o.gdn, sigFence := o.sigFence, start := o.start, acked := true }
      let d2 := d1.dispatch n asked used pool reef
      ({ d2 with fe := { d2.fe with nextOp := d.fe.nextOp, gdn := d.fe.gdn } }, true)

/-- The node that waits in a running graph of a queue with the entry of a record, if any: its launch and its index. -/
def Dev.nodeOf (d : Dev) (qid : Nat) (e : BitVec 1024) : Option (Nat × Nat) :=
  (d.fe.runs.filter fun r => (d.op? r.op).any (·.qid == qid)).findSome? fun r =>
    match d.runVersion r with
    | none => none
    | some v => ((List.range v.nodes.length).find? fun i => r.nodes.getD i 4 == 0 && v.nodes.getD i 0 == e).map fun i => (r.op, i)

/-- A graph node's DISPATCH record taken up: false when it must wait (R459, R462). -/
def Dev.takeNode (d : Dev) (gdn qid op i : Nat) (e : BitVec 1024) : Dev × Bool :=
  let tag := d.rd (FE_Q_STATE_TAG qid)
  let ready := (d.fe.runs.find? (·.op == op)).any fun r => (d.runVersion r).any fun v => nodeReady v r.nodes i == some true
  if !ready then (d, false)
  else
    match ({ d with fe := { d.fe with gdn := gdn - 1 } }).twinAdmit qid tag e none (some (op, i)) with
    | (.hold, _) => (d, false)
    | (.refuse st c, d0) => ((d0.nodeEnd op i st c d.tick).graphStep op qid tag 5000, true)
    | (.go o asked used pool reef, d0) =>
      let d0 := d0.updRun op fun r => { r with nodes := r.nodes.set i 1 }
      ((d0.twinPlace o asked used pool reef).nodeTaken gdn o.id, true)

/-- A DISPATCH record taken up with what the partner chose: false when it must wait (R462). -/
def Dev.takeDispatch (d : Dev) (gdn qid : Nat) (e : BitVec 1024) : Dev × Bool :=
  let tag := d.rd (FE_Q_STATE_TAG qid)
  let d0 := { d with fe := { d.fe with gdn := gdn - 1 } }
  match d.waitState tag e with
  | .satisfied =>
    let id := d.fe.nextOp
    let (a, d0) := d0.twinAdmit qid tag e none none
    match a with
    | .hold => (d, false)
    | .go o asked used pool reef =>
      ((d0.twinPlace o asked used pool reef).recordTaken qid gdn id, true)
    | .refuse st c =>
      let o : FeOp := ⟨id, qid, e, tag, .done st c 0, d.tick, none, [], none, [], 0, 0xFFFF, none, false, true, gdn, true⟩
      let d := { d0 with fe := { d0.fe with ops := d0.fe.ops ++ [o], nextOp := id + 1, gdn := gdn } }.feSync qid
      (d.recordTaken qid gdn id, true)
  | _ => (d, false)

/-- A REFUSAL record: the same outcome, and the queue advances (R459). -/
def Dev.takeRefusal (d : Dev) (qid : Nat) (e : BitVec 1024) (st : Status) (cause : Nat) : Dev :=
  let d := d.wr (FE_Q_COUNT_HEAD qid) (d.rd (FE_Q_COUNT_HEAD qid) + 1)
  let sig := d.reloc (d.rd (FE_Q_STATE_TAG qid)) 1 (entF e 12 4) 0
  d.complete qid e sig st cause 0 d.tick 0 false

/-- The records that a leeward holds, taken up in order as far as they can be (R459, R462, R474, R476). -/
def Dev.twinPump (d : Dev) : Nat → Dev
  | 0 => d
  | n + 1 =>
    match d.twn.records with
    | [] => d
    | r :: rest =>
      let d' := d.updTwn fun t => { t with records := rest }
      match r with
      | .refusal qid e st c => (d'.takeRefusal qid e st c).twinPump n
      | .dispatch gdn qid e =>
        if (d.queue? qid).isNone then d'.twinPump n
        else match (match d'.nodeOf qid e with
          | some (op, i) => d'.takeNode gdn qid op i e
          | none => d'.takeDispatch gdn qid e) with
          | (d'', true) => d''.twinPump n
          | (_, false) => d
      | .again op => match d'.takeAgain op with
          | (d'', true) => d''.twinPump n
          | (_, false) => d

/-- Every record that can go goes, on a leeward that mirrors or is an ORPHAN, and after a takeover; kept signals reach fences made since (R459, R462, R474, R476). -/
def Dev.twinRun (d : Dev) : Dev :=
  let d := d.twn.signals.foldl (fun d x => if (d.fence? x.1).isNone then d else
    (d.signalFence x.1 x.2).updTwn fun t => { t with signals := t.signals.erase x }) d
  match d.twState with
  | 3 | 6 | 7 =>
    if d.twn.records.isEmpty then d
    else
      let d := d.twinPump d.twn.records.length
      if d.rd TWN_STATUS_ROLE = 1 then d.wr TWN_STATUS_LAG d.twn.records.length else d
  | _ => d

/-- The partner is lost without FAILING, by silence (cause 2) or a link that is DOWN (cause 3) (R476, R477): an ORPHAN dispatches what it holds. -/
def Dev.partnerLost (d : Dev) (cause : Nat) : Dev :=
  let lee := d.rd TWN_STATUS_ROLE == 1
  match d.twState with
  | 1 => d.pairEnd .aborted 0 cause
  | 2 => d.pairEnd .aborted (if lee then 8 else 0) cause
  | 3 | 4 => if lee then (d.setTwin 6 cause).twinRun else d.setTwin 5 cause
  | _ => d

/-- A divergence: both modules are HELD, and the partner is told (R464, R472). -/
def Dev.diverge (d : Dev) (cause : Nat) : Dev := (d.send (.twin d.twn.tseq 7 0)).twinHold cause

/-- A replayed operation's outcome against the windward's COMPLETE record, or kept until that arrives (R464). -/
def Dev.twinMatch (d : Dev) (gdn : Nat) (st : Status) (cause exit : Nat) : Dev :=
  match d.twn.completes.find? (·.1 == gdn) with
  | none => d.updTwn fun t => { t with outcomes := t.outcomes ++ [(gdn, st, cause, BitVec.ofNat 32 exit)] }
  | some (_, st', cause', exit') =>
    let d := d.updTwn fun t => { t with completes := t.completes.filter (·.1 != gdn) }
    if st = st' ∧ cause = cause' ∧ exit = exit'.toNat then d else d.diverge 5

/-- One staged write applied at its home (R466, R467). -/
def Dev.applyWrite (d : Dev) (w : Nat × BitVec 64 × BitVec 512 × Bool) : Dev :=
  if inPool w.1 then
    let l := w.1 / 64
    let d := d.recall l
    let old := d.homeLine l
    let whole := w.2.1 == BitVec.allOnes 64
    d.homeWrite l (mergeLine old w.2.2.1 w.2.1) (w.2.2.2 || (!whole && d.homePoison l))
  else d

/-- A streamed task on a leeward ends with the status that its windward gave, once its stream is applied (R465, R467). -/
def Dev.streamEnd (d : Dev) (gdn : Nat) : Dev :=
  match d.twn.completes.find? (·.1 == gdn), getKey d.twn.dispatched gdn with
  | some (_, st, cause, exit), some id =>
    if (d.op? id).any FeOp.streamed ∧ !d.twn.stage.any (·.gdn == gdn) then
      (d.finish id st cause exit).updTwn fun t => { t with completes := t.completes.filter (·.1 != gdn) }
    else d
  | _, _ => d

/-- A staged stream with its end marker is applied at once, and COMMIT sent (R467). -/
def Dev.commitStream (d : Dev) (gdn : Nat) : Dev :=
  match d.twn.stage.find? (·.gdn == gdn) with
  | none => d
  | some s =>
    if !s.ended then d
    else
      let d := s.writes.foldl (fun d w => d.applyWrite w) d
      let d := d.updTwn fun t => { t with stage := t.stage.filter (·.gdn != gdn), applied := t.applied ++ [gdn] }
      ((if d.twState = 3 ∨ d.twState = 4 then d.send (.twin gdn 4 0) else d)).streamEnd gdn

end Sys2Proof.Machine
end

