-- ==== Sys2Proof/Machine/SeqOps.lean ====
section
/-! DEFINITION. The shared operations of the sequencers: issue, stalls and the end of a launch (R115–R118, R123, R125, R128, R133, R134), rotation (R89–R95), hand-over (R97–R100), and the instructions that may stall. (DEDUCED, assumption 52) -/

namespace Sys2Proof.Machine

/-- The device with its sequencer state changed. -/
def Dev.updSeq (d : Dev) (f : Seq → Seq) : Dev := { d with seq := f d.seq }

/-! ### Hand-over (R97–R100) -/

/-- Whether a hand-over stops the Reef's work: a save or a restore is in progress. -/
def Dev.handing (d : Dev) : Bool :=
  match d.tiles.handover with
  | .saving _ | .restoring _ => true
  | _ => false

/-- Whether a hand-over is due. -/
def Dev.handDue (d : Dev) : Bool := d.tiles.handover == .due || d.tiles.handover == .dueBoundary

/-- The save of the owner's state begins for the context that has waited longest (R97, R98): the range of local store and the banks it takes. -/
def Dev.beginSave (d : Dev) (lo len : Nat) (banks : BitVec 2) : Dev :=
  match d.tiles.waiting with
  | [] => d.updTiles fun t => { t with handover := .idle }
  | w :: r =>
    let d := d.updTiles fun t => { t with handover := .saving w, waiting := r }
    (d.updSeq fun s => { s with yldRange := (lo, len), yldBanks := banks }).wr REEF_STATUS_STATE 3

/-- The save of everything: local store and both banks (R98). -/
def Dev.beginSaveAll (d : Dev) : Dev := d.beginSave 0 (d.tiles.split * segBytes) 3

/-- A hand-over that waits for an array-operation boundary, or for no array program to run, begins (R97). -/
def Dev.handStep (d : Dev) : Dev :=
  if !d.handDue ∨ d.rd REEF_STATUS_OWNER_VALID = 0 then d
  else match d.seq.launch with
    | none => d.beginSaveAll
    | some l =>
      if !l.loaded then d.beginSaveAll
      else if d.tiles.handover = .dueBoundary ∧ d.seq.ops.isEmpty ∧ d.seq.moves.isEmpty ∧ l.err.isNone then d.beginSaveAll else d

/-! ### The end of a launch (R129, R133, R134) -/

/-- The launch ends: its record, its event where an instruction was illegal, its completion (R133, R134, Table 4.14). -/
def Dev.seqEnd (d : Dev) (st : Status) (cause pc : Nat) (exit : BitVec 32) : Dev :=
  match d.seq.launch with
  | none => d
  | some l =>
    let ill := decide (st = Status.aborted) && decide (0 < cause) && decide (cause < 0x80)
    let reg := if 0x80 ≤ cause ∧ cause ≠ 0xFF then 0 else cause
    let d := if st = .ok then d else d.seqFault pc reg (statusCode st)
    let d := if ill then d.event 1 2 2 (d.rd REEF_STATUS_LEADER) pc cause 0 else d
    let d := (d.wr REEF_SEQ_STATUS_STATE (if ill then 4 else 3)).wr REEF_SEQ_STATUS_WAIT 0
    let d := if l.startTick.isSome ∧ d.rd NFP_DOM_STATUS_TD_OK = 0 then d.updOp l.op fun o => { o with tdLost := true } else d
    let d := d.updSeq fun s => { s with launch := none, stall := none, inIssue := none }
    (d.finish l.op st cause exit).handStep

/-- A launch that ends in an error does so once every issued operation is done and every token idle (R129, R134). -/
def Dev.seqSettle (d : Dev) : Dev :=
  match d.seq.launch with
  | some l =>
    match l.err with
    | some (st, cause, pc) => if d.seq.ops.isEmpty ∧ d.seq.moves.isEmpty then d.seqEnd st cause pc 0 else d
    | none => d
  | none => d

/-- The first error of a launch: issue stops (R129, R134). -/
def Dev.seqErr (d : Dev) (st : Status) (cause pc : Nat) : Dev :=
  match d.seq.launch with
  | none => d
  | some l =>
    if l.err.isSome then d
    else ((d.updSeq fun s => { s with launch := some { l with err := some (st, cause, pc) }, stall := none }).wr REEF_SEQ_STATUS_WAIT 0).seqSettle

/-- An illegal instruction: the launch ends ABORTED with a cause of Table 4.12 (R134). -/
def Dev.illegal (d : Dev) (cause : Nat) : Dev := d.seqErr .aborted cause d.seq.pc

/-! ### Issue (R115, R116, R118, R217, R218) -/

/-- Whether the sequencers run their launch: started, without an error, and no hand-over stops them. -/
def Dev.seqRuns (d : Dev) : Bool :=
  (d.seq.launch.any fun l => l.started && l.err.isNone) && !d.handing && d.tiles.handover != .dueBoundary

/-- Whether an instruction executes: G[GI] XOR GN (R115). -/
def Dev.guarded (d : Dev) (gi : BitVec 3) (gn : Bool) : Bool := d.seq.g.getLsbD gi.toNat != gn

/-- A guard written; G0 ignores writes (Table 4.4). -/
def Seq.setG (s : Seq) (i : Nat) (b : Bool) : Seq :=
  if i % 8 = 0 then s else { s with g := s.g &&& ~~~((1 : BitVec 8) <<< (i % 8)) ||| (if b then (1 : BitVec 8) <<< (i % 8) else 0) }

/-- An instruction waits, for a reason of REEF_SEQ_STATUS.WAIT: 1 AOP issue, 2 summary, 3 token, 4 all done, 6 hand-over, 7 resynchronisation. -/
def Dev.stallOn (d : Dev) (st : Stall) (why : Nat) : Dev :=
  let d := if d.rd REEF_SEQ_STATUS_WAIT = why ∧ d.seq.stall.isSome then d else d.updSeq fun s => { s with stallAt := d.tick }
  (d.updSeq fun s => { s with stall := some st }).wr REEF_SEQ_STATUS_WAIT why

/-- The schedule stall that a domain launch has made, counted; the first clears TD_OK (R218). -/
def Dev.countStall (d : Dev) : Dev :=
  let why := d.rd REEF_SEQ_STATUS_WAIT
  let tok : Bool := match d.seq.stall with
    | some (.instr op _) => op == 0x73 || op == 0x92 || op == 0x5F || op == 0x91
    | _ => false
  let n := d.tick - d.seq.stallAt
  if (d.seq.launch.any (·.startTick.isSome)) ∧ ((why = 3 ∧ tok) ∨ why = 6) ∧ 0 < n then
    let d := if d.rd REEF_DET_STATUS_STALLS = 0 then d.tdLose 2 else d
    d.incBy REEF_DET_STATUS_STALLS n
  else d

/-- A stall ends. -/
def Dev.unstall (d : Dev) : Dev :=
  if d.seq.stall.isNone then d
  else (d.countStall.updSeq fun s => { s with stall := none }).wr REEF_SEQ_STATUS_WAIT 0

/-- The program goes on at a slot; running past the last slot is illegal at the instruction that does (R118). -/
def Dev.goTo (d : Dev) (pc : Nat) : Dev :=
  let d := d.unstall
  if d.seq.imem.length ≤ pc then d.illegal 0x08
  else (d.updSeq fun s => { s with pc := pc }).wr REEF_SEQ_STATUS_PC pc

/-- The next instruction. -/
def Dev.proceed (d : Dev) : Dev := d.goTo (d.seq.pc + 1)

/-- An instruction that needs no wait: illegal with its cause, or its effect, and the next slot (R115, R116). -/
def Dev.seqDo (d : Dev) (a : SeqArgs) (f : Dev → Except Nat Dev) : Dev :=
  if d.seqRuns && d.seq.stall.isNone then
    if d.guarded a.gi a.gn then
      match f d with
      | .ok d => d.proceed
      | .error c => d.illegal c
    else d.proceed
  else d

/-- An instruction that writes X[RD] from X[RA] and X[RB]. -/
def Dev.seqAlu (d : Dev) (a : SeqArgs) (f : Word → Word → Word) : Dev :=
  d.seqDo a fun d => .ok (d.updSeq fun s => s.setX a.rd.toNat (f (s.xr a.ra.toNat) (s.xr a.rb.toNat)))

/-- The sign-extended immediate. -/
def immWord (a : SeqArgs) : Word := a.imm.signExtend 64

/-- An instruction that writes X[RD] from X[RA] and the sign-extended IMM. -/
def Dev.seqAluImm (d : Dev) (a : SeqArgs) (f : Word → Word → Word) : Dev :=
  d.seqDo a fun d => .ok (d.updSeq fun s => s.setX a.rd.toNat (f (s.xr a.ra.toNat) (immWord a)))

/-- X[RA] + IMM. -/
def Seq.addr (s : Seq) (a : SeqArgs) : Nat := (s.xr a.ra.toNat + immWord a).toNat

/-- Bytes of constant memory; illegal beyond the buffer or off an alignment (R118). -/
def Seq.cbytes (s : Seq) (at_ n align : Nat) : Except Nat (List Byte) :=
  if at_ % align ≠ 0 ∨ s.cmem.length < at_ + n then .error 0x06 else .ok ((s.cmem.drop at_).take n)

/-- A descriptor register. -/
def Seq.dr (s : Seq) (r : Nat) : BitVec 256 := sget (fun _ => 0) s.d r
def Seq.setD (s : Seq) (r : Nat) (v : BitVec 256) : Seq := { s with d := sput (fun _ => 0) s.d r v }

/-- The bytes of local store under the split in force. -/
def Dev.lsBytes (d : Dev) : Nat := d.tiles.split * segBytes

/-- Whether a slot of an image lies inside an array operation, after its first slot (R118). -/
def innerSlot : List Word → Nat → Nat → Bool
  | [], _, _ => false
  | w :: r, k, t =>
    if t = 0 then k != 0
    else innerSlot r (if k = 0 then (if w.toNat / 2 ^ 56 = 0x60 then 3 else 0) else k - 1) (t - 1)

/-- A branch target S + IMM: illegal outside the image or inside an array operation (R118). -/
def Dev.target (d : Dev) (a : SeqArgs) : Except Nat Nat :=
  let t := (d.seq.pc : Int) + a.imm.toInt
  if t < 0 ∨ (d.seq.imem.length : Int) ≤ t ∨ innerSlot d.seq.imem 0 t.toNat then .error 0x08 else .ok t.toNat

/-! ### Summaries (R125) -/

/-- A summary register. -/
def Seq.hr (s : Seq) (r : Nat) : Word := sget (fun _ => 0) s.h r

/-- Whether an issued operation has still to write a summary register. -/
def Seq.hPending (s : Seq) (r : Nat) : Bool := s.ops.any fun o => o.hen && o.hsel == r && !o.fEnded

/-- HCMP's comparison of a summary with X[RB] (R117, Table 4.9). -/
def hcmp (mode cond : Nat) (h x : Word) : Option Bool :=
  match mode with
  | 0 => ordCond cond (compare (sgn 64 h.toNat) (sgn 64 x.toNat))
  | 1 => ordCond cond (compare h.toNat x.toNat)
  | 2 => numCond cond (Fmt.b32.decode (h.toNat % 2 ^ 32)) (Fmt.b32.decode (x.toNat % 2 ^ 32))
  | _ => numCond cond (Fmt.b64.decode h.toNat) (Fmt.b64.decode x.toNat)

/-- MOVH, HCMP or HCLR, once the register they name is written by every operation that names it (R125). -/
def Dev.doSummary (d : Dev) (op : Nat) (a : SeqArgs) : Dev :=
  let r := a.ra.toNat % 16
  if d.seq.hPending r then d.stallOn (.instr op a) 2
  else if !d.guarded a.gi a.gn then d.proceed
  else if op = 0x42 then (d.updSeq fun s => { s with hValid := s.hValid &&& ~~~((1 : BitVec 16) <<< r) }).proceed
  else if !d.seq.hValid.getLsbD r then d.illegal 0x07
  else if op = 0x40 then (d.updSeq fun s => s.setX a.rd.toNat (s.hr r)).proceed
  else match hcmp a.mode.toNat (a.rd.toNat / 8) (d.seq.hr r) (d.seq.xr a.rb.toNat) with
    | some b => (d.updSeq fun s => s.setG (a.rd.toNat % 8) b).proceed
    | none => d.illegal 0x0A

/-! ### Movement (R127–R129) -/

/-- Whether a token of a mask is busy. -/
def Seq.tokBusy (s : Seq) (mask : BitVec 16) : Bool := s.moves.any fun m => mask.getLsbD m.tok

/-- The checks of LDT, STT and XLT (R127, Tables 4.11, 4.12): the cause of an illegal one. -/
def moveCheck (kind ls : Nat) (imm : BitVec 32) (s t : BitVec 256) : Option Nat :=
  let spaces := match kind with | 0 => (1, 0) | 1 => (0, 1) | _ => (0, 0)
  if !descOk s ls ∨ !descOk t ls ∨ descType s ≠ descType t ∨ descRows s ≠ descRows t ∨ descCols s ≠ descCols t ∨
      (descSpace s, descSpace t) ≠ spaces ∨ (blockSize (descType s) ≠ 0 ∧ descTrans s ≠ descTrans t) then some 0x04
  else if kind = 2 ∧ imm.getLsbD 31 ∧ (let g := (imm.extractLsb' 10 10).toNat; g = 0 ∨ 640 % g ≠ 0) then some 0x0A
  else none

/-- LDT (0x70), STT (0x71) or XLT (0x72): the copy starts under its token once that is idle (R127, R128). -/
def Dev.doMove (d : Dev) (op : Nat) (a : SeqArgs) : Dev :=
  let tok := a.rd.toNat % 16
  if op = 0x72 ∧ a.imm.extractLsb' 20 11 ≠ 0 then d.illegal 0x01
  else if d.seq.tokBusy ((1 : BitVec 16) <<< tok) then d.stallOn (.instr op a) 3
  else if !d.guarded a.gi a.gn then d.proceed
  else
    let src := d.seq.dr a.ra.toNat
    let dst := d.seq.dr a.rb.toNat
    match moveCheck (op - 0x70) d.lsBytes a.imm src dst with
    | some c => d.illegal c
    | none => (d.updSeq fun s => { s with moves := s.moves ++ [⟨tok, op - 0x70, s.pc, src, dst, a.imm⟩] }).proceed

/-! ### Rotation (R89–R95) -/

/-- The state of a physical tile: 0 RETIRED, 1 ACTIVE, 2 SPARE, 3 UNDER_TEST (Table 3.7). -/
def Dev.pts (d : Dev) (die q : Nat) : Nat := d.rd (REEF_PTS_STATE die (q / 32)) / 4 ^ (q % 32) % 4

/-- The physical tiles of a die in a state, by index. -/
def Dev.tilesIn (d : Dev) (die st : Nat) : List Nat := (List.range 168).filter fun q => d.pts die q == st

/-- A physical tile's state changed, and the counts of spares with it (Tables 3.7, 3.12). -/
def Dev.setPts (d : Dev) (die q st : Nat) : Dev :=
  let f := REEF_PTS_STATE die (q / 32)
  let w := d.rd f
  let d := d.wr f (w - w / 4 ^ (q % 32) % 4 * 4 ^ (q % 32) + st * 4 ^ (q % 32))
  let n := (d.tilesIn die 2).length
  match die with
  | 0 => d.wr REEF_STATUS_SPARES_A0 n
  | 1 => d.wr REEF_STATUS_SPARES_A1 n
  | 2 => d.wr REEF_STATUS_SPARES_A2 n
  | _ => d.wr REEF_STATUS_SPARES_A3 n

/-- The coordinate of a physical tile (Table 3.5). -/
def tileCoord (die q : Nat) : Nat := die * 2 ^ 8 + q / 14 * 2 ^ 4 + q % 14

/-- The map field of a logical tile (Table 3.6). -/
def tmapFld (l : Nat) : Fld :=
  match l % 4 with
  | 0 => REEF_TMAP_LT0 (l / 4)
  | 1 => REEF_TMAP_LT1 (l / 4)
  | 2 => REEF_TMAP_LT2 (l / 4)
  | _ => REEF_TMAP_LT3 (l / 4)

/-- The logical tile that a physical tile bears. -/
def Dev.logicalOf (d : Dev) (die q : Nat) : Option Nat :=
  ((List.range 160).map (die * 160 + ·)).find? fun l => d.rd (tmapFld l) == tileCoord die q

/-- The tile that leaves a die next: a marked one, else the ACTIVE tile whose last test lies furthest back (R90, R496). -/
def Dev.nextOut (d : Dev) (die : Nat) : Option Nat :=
  let act := d.tilesIn die 1
  let last := fun q => sget (fun _ => 0) d.tiles.lastTest (die * 192 + q)
  match act.find? fun q => d.tiles.mark.contains (die * 192 + q) with
  | some q => some q
  | none => act.foldl (fun m q => match m with
    | some p => if last q < last p then some q else m
    | none => some q) none

/-- Whether a die may swap at a rotation point (R90, R496). -/
def Dev.swapDue (d : Dev) (die : Nat) : Bool :=
  d.rd REEF_ROT_CTRL_ENABLE == 1 &&
    (d.rd REEF_ROT_CTRL_FORCE_NEXT == 1 || (d.tilesIn die 1).any (fun q => d.tiles.mark.contains (die * 192 + q)) ||
      match d.tiles.lastSwap.getD die none with
      | none => true
      | some t => decide (d.rd REEF_ROT_CTRL_MIN_INTERVAL * 100000 ≤ d.now - t))

/-- A tile of a die is swapped for its lowest spare and starts its self-test (R90–R93). -/
def Dev.swapTile (d : Dev) (die out inn : Nat) : Dev :=
  let d := match d.logicalOf die out with
    | some l => d.wr (tmapFld l) (tileCoord die inn)
    | none => d
  let d := ((d.setPts die inn 1).setPts die out 3).updTiles fun t => { t with
    testing := putKey t.testing (die * 192 + out) d.now
    lastSwap := t.lastSwap.set die (some d.now)
    mark := t.mark.filter (· != die * 192 + out) }
  (d.inc REEF_ROT_STATUS_ROTATIONS).wr REEF_ROT_STATUS_LAST_OUT (tileCoord die out)

/-- A die's decision in cycle 0 of a rotation slot and what it leads to (R90, R91). -/
def Dev.rotateDie (d : Dev) (die : Nat) : Dev :=
  match d.swapDue die, d.nextOut die, (d.tilesIn die 2).head? with
  | true, some out, some inn => d.swapTile die out inn
  | _, _, _ => d.inc REEF_ROT_STATUS_SKIPPED

/-- A rotation slot on some dies; FORCE_NEXT is cleared (R89–R92, Table 3.9). -/
def Dev.rotate (d : Dev) (dies : List Nat) : Dev := (dies.foldl (fun d die => d.rotateDie die) d).wr REEF_ROT_CTRL_FORCE_NEXT 0

/-! ### Instructions that wait for operations, tokens and hand-overs -/

/-- END (R133). -/
def Dev.doEnd (d : Dev) (a : SeqArgs) : Dev :=
  if !d.seq.ops.isEmpty then d.stallOn (.instr 0x5F a) 4
  else if !d.seq.moves.isEmpty then d.stallOn (.instr 0x5F a) 3
  else if d.guarded a.gi a.gn then d.unstall.seqEnd .ok 0 0 a.imm else d.proceed

/-- WAITA (R133). -/
def Dev.doWaita (d : Dev) (a : SeqArgs) : Dev :=
  if !d.seq.ops.isEmpty then d.stallOn (.instr 0x61 a) 4 else d.proceed

/-- WAITM (R128). -/
def Dev.doWaitm (d : Dev) (a : SeqArgs) : Dev :=
  if d.seq.tokBusy (a.imm.extractLsb' 0 16) then d.stallOn (.instr 0x73 a) 3 else d.proceed

/-- ROTP: once all operations are done, the slot of R89 on all four dies (R132). -/
def Dev.doRotp (d : Dev) (a : SeqArgs) : Dev :=
  if !d.seq.ops.isEmpty then d.stallOn (.instr 0x90 a) 4
  else if d.guarded a.gi a.gn then (d.rotate [0, 1, 2, 3]).proceed else d.proceed

/-- YLDP: yields when a hand-over is due and the launch is no domain launch, once operations and tokens are done (R97, R132, R217). -/
def Dev.doYldp (d : Dev) (a : SeqArgs) : Dev :=
  let yields := d.guarded a.gi a.gn && d.handDue && !d.tiles.waiting.isEmpty && !(d.seq.launch.any (·.startTick.isSome))
  if !yields then d.proceed
  else if !d.seq.ops.isEmpty then d.stallOn (.instr 0x91 a) 4
  else if !d.seq.moves.isEmpty then d.stallOn (.instr 0x91 a) 3
  else
    let lo := (d.seq.xr a.ra.toNat).toNat
    let len := (d.seq.xr a.rb.toNat).toNat
    d.proceed.beginSave lo len (a.imm.extractLsb' 0 2)

/-- TALLY: once operations and tokens are done, the digest of its sets in MIRRORING (R468, R469). -/
def Dev.doTally (d : Dev) (a : SeqArgs) : Dev :=
  let count := (a.imm.extractLsb' 8 8).toNat
  let first := (a.imm.extractLsb' 0 8).toNat
  let exe := d.guarded a.gi a.gn
  if exe && (a.imm.extractLsb' 16 16 != 0 || count == 0 || decide (64 < first + count)) then d.illegal 0x01
  else if !d.seq.ops.isEmpty then d.stallOn (.instr 0x92 a) 4
  else if !d.seq.moves.isEmpty then d.stallOn (.instr 0x92 a) 3
  else if !exe ∨ d.twState ≠ 3 then d.proceed
  else match d.seq.launch with
    | none => d
    | some l =>
      match d.tallySets l.tag count first with
      | .ok (d, sets) => (d.tallyTake l.op a.imm.toNat sets).proceed
      | .error (.ended st) => d.seqErr st 0xFF d.seq.pc
      | .error _ => d.stallOn (.instr 0x92 a) 3

/-- An instruction that may stall, by its opcode (Table 4.8). -/
def Dev.doInstr (d : Dev) (op : Nat) (a : SeqArgs) : Dev :=
  match op with
  | 0x40 | 0x41 | 0x42 => d.doSummary op a
  | 0x70 | 0x71 | 0x72 => d.doMove op a
  | 0x5F => d.doEnd a
  | 0x61 => d.doWaita a
  | 0x73 => d.doWaitm a
  | 0x90 => d.doRotp a
  | 0x91 => d.doYldp a
  | 0x92 => d.doTally a
  | _ => d

/-- An instruction that may stall is issued. -/
def Dev.seqIssue (d : Dev) (op : Nat) (a : SeqArgs) : Dev :=
  if d.seqRuns && d.seq.stall.isNone then d.doInstr op a else d

/-! ### Array operations (R119–R124) -/

/-- Bits of a slot. -/
def slotF (w : Word) (lo n : Nat) : Nat := w.toNat / 2 ^ lo % 2 ^ n

/-- Whether a reserved field of an array-operation word is not 0 (Table 4.10). -/
def aopReserved (a : AopArgs) : Bool := slotF a.s0 0 18 != 0 || slotF a.s2 32 32 != 0 || slotF a.s3 0 59 != 0

/-- The rules of R120 on the matrix part, by cause. -/
def Seq.matrixCauses (s : Seq) (a : AopArgs) (ls : Nat) : List Nat :=
  let da := s.dr (slotF a.s0 36 6)
  let db := s.dr (slotF a.s0 30 6)
  let order := slotF a.s0 44 3
  let acct := slotF a.s0 42 2
  let kstart := slotF a.s1 40 24
  let klen := slotF a.s1 16 24
  let blocked := fun (x : BitVec 256) (tr : Bool) => blockSize (descType x) != 0 && (klen % blockSize (descType x) != 0 || descTrans x != tr)
  (if 2 < order ∨ 1 < acct ∨ !pairOk (descType da) (descType db) acct ∨ kstart % 64 ≠ 0 ∨ klen = 0 ∨ 4194304 < klen ∨
      64 < descRows da ∨ 128 < descCols db ∨ descCols da ≠ descRows db ∨ descCols da < kstart + klen ∨
      blocked da false ∨ blocked db true then [0x02] else []) ++
  (if !descOk da ls ∨ !descOk db ls ∨ descSpace da ≠ 0 ∨ descSpace db ≠ 0 then [0x04] else []) ++
  (if order = 2 ∧ !s.ordSegs.contains (slotF a.s1 0 16, (klen + 63) / 64) then [0x05] else [])

/-- The configuration word at FCFG, if it lies in the constant buffer (R120, R155). -/
def Seq.cfgWord (s : Seq) (a : AopArgs) : Option (List Word) :=
  match s.cbytes (slotF a.s2 0 32) 80 8 with
  | .ok bs => some ((chunks 8 10 bs).map (BitVec.ofNat 64))
  | .error _ => none

/-- The rules of R119, R120 and R155 on the flow part, by cause. -/
def Seq.flowCauses (s : Seq) (a : AopArgs) (ls : Nat) : List Nat :=
  match s.cfgWord a with
  | none => [0x06]
  | some c =>
    let dc := s.dr (slotF a.s0 24 6)
    let df := s.dr (slotF a.s0 18 6)
    let bad := fun (x : BitVec 256) => !descOk x ls || descSpace x != 0
    (if !cfgOk c dc df (slotF a.s3 59 1 == 1) ls then [0x02] else []) ++
    (if (cfgOmode c ≠ 3 ∧ bad dc) ∨ (usesDf c ∧ bad df) then [0x04] else [])

/-- The lowest cause for which an executing array operation is illegal (R120). -/
def Seq.aopCause (s : Seq) (a : AopArgs) (ls : Nat) : Option Nat :=
  let kind := slotF a.s0 50 2
  let cs := (if kind = 0 then [0x02] else []) ++ (if kind = 3 ∧ slotF a.s0 48 1 = slotF a.s0 47 1 then [0x03] else []) ++
    (if kind % 2 = 1 then s.matrixCauses a ls else []) ++ (if 2 ≤ kind then s.flowCauses a ls else [])
  cs.foldl (fun m c => some (match m with | some x => min x c | none => c)) none

/-- The blocks of an operation in the order in which R59 adds them (R121). -/
def Seq.blockOrder (s : Seq) (a : AopArgs) : List Nat :=
  let nb := (slotF a.s1 16 24 + 63) / 64
  match slotF a.s0 44 3 with
  | 0 => List.range nb
  | 1 => (List.range nb).reverse
  | _ => (List.range nb).map fun i => (sget (fun _ => 0) s.ordMem (slotF a.s1 0 16 + i)).toNat

/-- The operation that a legal word captures (R119, R120). -/
def Seq.captureAop (s : Seq) (a : AopArgs) : ArrayOp :=
  let kind := slotF a.s0 50 2
  let mat := kind % 2 == 1
  let flow := decide (2 ≤ kind)
  { id := s.nextOp, pc := s.pc, kind := kind, accInit := slotF a.s0 49 1 == 1, mbank := slotF a.s0 48 1, fbank := slotF a.s0 47 1
    acct := slotF a.s0 42 2
    da := if mat then s.dr (slotF a.s0 36 6) else 0, db := if mat then s.dr (slotF a.s0 30 6) else 0
    dc := if flow then s.dr (slotF a.s0 24 6) else 0, df := if flow then s.dr (slotF a.s0 18 6) else 0
    kstart := slotF a.s1 40 24, klen := slotF a.s1 16 24, order := if mat then s.blockOrder a else []
    cfg := if flow then (s.cfgWord a).getD [] else [], hen := flow && slotF a.s3 59 1 == 1, hsel := slotF a.s3 60 4
    mStarted := !mat, fStarted := !flow, fEnded := !flow }

/-- AOP past the digests: it stalls behind an operation in issue, is illegal, or is in issue from now on (R115, R120, R123). -/
def Dev.doAop (d : Dev) (a : AopArgs) : Dev :=
  let g := d.guarded (a.s0.extractLsb' 52 3) (a.s0.getLsbD 55)
  if d.seq.imem.length < d.seq.pc + 4 then d.illegal 0x08
  else if aopReserved a then d.illegal 0x01
  else match if g then d.seq.aopCause a d.lsBytes else none with
    | some c => d.illegal c
    | none =>
      if d.seq.inIssue.isSome then d.stallOn (.aop a) 1
      else if !g then d.goTo (d.seq.pc + 4)
      else
        let o := d.seq.captureAop a
        (d.updSeq fun s => { s with ops := s.ops ++ [o], nextOp := s.nextOp + 1, inIssue := some o.id }).goTo (d.seq.pc + 4)

/-- A stalled instruction is tried again, unless a hand-over or a resynchronisation holds it. -/
def Dev.wake (d : Dev) : Dev :=
  if d.handing ∨ !(d.seq.launch.any fun l => l.started && l.err.isNone) then d
  else match d.seq.stall with
    | some (.instr op a) => if d.tiles.handover = .dueBoundary ∧ op ≠ 0x90 then d else d.doInstr op a
    | some (.aop a) => if d.tiles.handover = .dueBoundary then d else d.doAop a
    | _ => d

/-- What an operation or a movement that has ended lets go on: the stalled instruction, a hand-over at the boundary, the end of the launch. -/
def Dev.seqStep (d : Dev) : Dev := (d.wake.handStep).seqSettle

/-- A part has started to execute: an operation is no longer in issue (R123). -/
def Dev.leaveIssue (d : Dev) (id : Nat) : Dev :=
  if d.seq.inIssue = some id then (d.updSeq fun s => { s with inIssue := none }).wake else d

/-! ### Lockstep (R103–R106) -/

/-- The dies whose digests differ from the value that at least three agree on; none when no three agree. -/
def lockstepBad (g : Digests) : Option (List Nat) :=
  let l := [g.a0, g.a1, g.a2, g.a3]
  (l.find? fun v => decide (3 ≤ l.count v)).map fun v => (List.range 4).filter fun i => l.getD i 0 != v

/-- The sequencer of a die differs: resynchronisation, or the loss of the die on a second fault in the window (R104, R105). -/
def Dev.lockstepFault (d : Dev) (die : Nat) (a : AopArgs) : Dev :=
  let first := d.seq.faultAt.getD die none
  let again := first.any fun t => decide (d.now - t ≤ d.rd REEF_LOCKSTEP_WINDOW * 100000)
  if again then
    (d.wr REEF_LOCKSTEP_FAULTED (Nat.lor (d.rd REEF_LOCKSTEP_FAULTED) (2 ^ die))).dieLost die
  else
    let live := d.rd REEF_SEQ_STATUS_LIVE
    let d := (d.wr REEF_LOCKSTEP_FAULTED (Nat.lor (d.rd REEF_LOCKSTEP_FAULTED) (2 ^ die))).wr REEF_SEQ_STATUS_LIVE (live - live / 2 ^ die % 2 * 2 ^ die)
    let d := d.event 1 1 1 die d.seq.pc 0 0
    let d := d.updSeq fun s => { s with faultAt := s.faultAt.set die (some d.now) }
    (d.tdLose 3).stallOn (.resync a die) 7

/-- An array operation with the digests that the four sequencers formed of it (R103–R106). -/
def Dev.issueAop (d : Dev) (a : AopArgs) (g : Digests) : Dev :=
  match lockstepBad g with
  | some [] => d.doAop a
  | some (die :: _) => d.lockstepFault die a
  | none => d.domainDown 0x54 3

end Sys2Proof.Machine
end

