-- ==== Sys2Proof/Machine/AbortOps.lean ====
section
/-! DEFINITION. The front end's abort of one operation, engine by engine (R134, R193, R372, R374). (DEDUCED, assumption 50) -/

namespace Sys2Proof.Machine

/-- A split change that waits for a launch which will not run passes to the oldest launch left that was dispatched under it (R76). -/
def Dev.dropSplit (d : Dev) (op : Nat) : Dev :=
  match d.tiles.splitNext with
  | some (o, ls, ps) =>
    if o ≠ op then d
    else match d.fe.ops.find? fun p => p.id != op && p.onReef && p.split == ls with
      | some p => d.updTiles fun t => { t with splitNext := some (p.id, ls, ps), splitWalk := false }
      | none => d.updTiles fun t => { t with splitNext := none, splitWalk := false }
  | none => d

/-- A save of an owner with no work left stops, and the Reef is handed over without it (R100). -/
def Dev.saveStop (d : Dev) : Dev :=
  match d.tiles.handover with
  | .saving w =>
    if d.resident ∨ !d.thr.launches.isEmpty then d
    else
      let d := d.updTiles fun t => { t with handover := .restoring w }
      let d := { d with seq := { faultAt := d.seq.faultAt, nextOp := d.seq.nextOp } }
      (d.wr REEF_STATUS_OWNER_VALID 0).wr REEF_STATUS_STATE 4
  | _ => d

/-- An array launch is aborted: at once when no operation and no movement of it runs, else when the last is done (R134). -/
def Dev.abortArray (d : Dev) (id : Nat) (st : Status) (cause : Nat) : Dev :=
  if d.seq.launch.any (·.op == id) then d.seqErr st cause d.seq.pc
  else
    let drop := fun (s : Saved) => if s.seq.launch.any (·.op == id) then { s with seq := {} } else s
    (d.updTiles fun t => { t with saved := t.saved.map drop }).finish id st cause

/-- A thread launch is aborted: its groups stop and its tiles write back before it completes (R192, R193). -/
def Dev.abortThreads (d : Dev) (id : Nat) (st : Status) (cause : Nat) : Dev :=
  match d.thrL? id with
  | some l =>
    if l.err.isSome then d
    else
      let d := d.updThrL id fun l => { l with err := some (st, cause), nextBlk := l.nblocks }
      let d := (d.thrFaultOpen none 0 (statusCode st)).event 2 2 1 (l.tiles.headD 0) 0 (statusCode st) 0
      (d.clearLaunch id).finalWalk id
  | none =>
    let drop := fun (s : Saved) => { s with thr := { s.thr with
      launches := s.thr.launches.filter (·.op != id), blocks := s.thr.blocks.filter (·.launch != id)
      groups := s.thr.groups.filter (·.launch != id), accs := s.thr.accs.filter (·.launch != id)
      blkRed := s.thr.blkRed.filter (·.1 != id) } }
    let d := d.updTiles fun t => { t with saved := t.saved.map drop }
    (d.updThr fun t => { t with waiting := t.waiting.filter (· != id) }).finish id st cause

/-- The engines outside the Reef give up one operation. -/
def Dev.abortEngine (d : Dev) (id : Nat) : Dev :=
  let d := (d.tier.bindings.filter (·.op == some id)).foldl (fun d b => d.closeWin b.win) d
  { d with tier := { d.tier with waiters := d.tier.waiters.filter (·.op != some id)
                                 publishes := d.tier.publishes.filter (·.op != id) }
           nfp := { d.nfp with colls := d.nfp.colls.filter (·.op != id), reqs := d.nfp.reqs.filter (·.op != some id) }
           str := { d.str with reqs := d.str.reqs.filter (·.op != some id) }
           cores := { d.cores with cores := updWhere (fun k => k.task.any (·.op == id))
                                     (fun (k : Core) => { k with task := none, held := none, resv := none }) d.cores.cores }
           fe := { d.fe with runs := d.fe.runs.filter (·.op != id) } }

/-- The front end aborts an operation in flight: it completes with the status and cause once its engine has let it go. -/
def Dev.abortOp (d : Dev) (id : Nat) (st : Status) (cause : Nat) : Dev :=
  match d.op? id with
  | none => d
  | some o =>
    if o.ended then d
    else
      let d := d.dropSplit id
      let d := match o.opcode with
        | 1 => d.abortArray id st cause
        | 2 => d.abortThreads id st cause
        | _ => ((d.collEnd id st cause).abortEngine id).finish id st cause
      d.saveStop

end Sys2Proof.Machine
end

