-- ==== Sys2Proof/Machine/RasOps.lean ====
section
/-! DEFINITION. The shared operations of the fail-operational services: the persistent record (R482–R484), warnings (R498), the results of tile tests (R93, R485), test commands (R496). (DEDUCED, assumption 35) -/

namespace Sys2Proof.Machine

/-- WARN is set, and vector 0 raised in service; a WARN of start-up raises it with READY (R498). -/
def Dev.warn (d : Dev) : Dev :=
  let d := d.wr RAS_SUMMARY_WARN 1
  if d.rd GLB_STATUS_READY = 1 then d.raiseInt 0 else d

/-- STANDBY_OK of the CTU and its copy (Tables 11.12 and 17.6). -/
def Dev.setCtuStandby (d : Dev) (ok : Bool) : Dev :=
  (d.wr CTU_STATUS_STANDBY_OK ok.toNat).wr RAS_SUMMARY_CTU_STANDBY ok.toNat

/-- STANDBY_OK of the clock roots and its copy (Tables 15.13 and 17.6). -/
def Dev.setClkStandby (d : Dev) (ok : Bool) : Dev :=
  (d.wr NRW_CLK_STATUS_STANDBY_OK ok.toNat).wr RAS_SUMMARY_CLK_STANDBY ok.toNat

/-- Start-up stops: STEP reads FAILED with its cause and die, and a FATAL event is recorded (R572, R581). -/
def Dev.startFail (d : Dev) (cause die : Nat) : Dev :=
  let d := ((d.wr GLB_STATUS_STEP 9).wr GLB_STATUS_FAIL cause).wr GLB_STATUS_FAIL_DIE die
  let d := if cause ≤ 2 then d.event 10 3 8 0 0 cause die else d.event 12 3 7 0 0 cause die
  d.raiseInt 0

/-- A life-cycle state's refusal of an access (R519, R534). -/
def Dev.accessRefused (d : Dev) (arg0 : Nat) : Dev := d.event 15 0 5 0 arg0 0 0

/-- Whether a control die can take a write of its copy of the record (R484). -/
def Dev.copyUp (d : Dev) (die : Nat) : Bool := let s := d.rd (NRW_DIE_STATE die); decide (s < 4)

/-- The 16 bytes of an entry of the record (Table 17.2). -/
def rasEntry (kind flags id row time : Nat) : BitVec 128 :=
  BitVec.ofNat 128 (kind + flags * 2 ^ 8 + id % 2 ^ 16 * 2 ^ 16 + row % 2 ^ 32 * 2 ^ 32 + time * 2 ^ 64)

/-- RAS_PERSIST shows the record (Table 17.13). -/
def Dev.persistSync (d : Dev) : Dev :=
  let one := d.nv.copies.all id
  ((d.wr RAS_PERSIST_GEN d.nv.recordGen).wr RAS_PERSIST_ENTRIES d.nv.record.length).wr RAS_PERSIST_ONE_COPY (if one then 0 else 1)

/-- An entry appended to the record, in every copy that can take it; a full record takes no more (R482, R484). -/
def Dev.rasAppend (d : Dev) (kind flags id row : Nat) : Dev :=
  if 65536 ≤ d.nv.record.length then
    ({ d.wr RAS_PERSIST_FULL 1 with ras := { d.ras with unrecorded := d.ras.unrecorded ++ [(kind, id)] } } : Dev).event 12 2 5 0 0 0 0
  else
    let ups := [d.copyUp 4, d.copyUp 5]
    let nv := { d.nv with
      record := d.nv.record ++ [rasEntry kind flags id row d.now]
      recordGen := d.nv.recordGen + 1
      copies := (d.nv.copies.zip ups).map fun c => c.1 && c.2 }
    ({ d with nv := nv }).persistSync

/-- The tiles of a die that are not RETIRED. -/
def Dev.tilesLeft (d : Dev) (die : Nat) : Nat := 168 - (d.tilesIn die 0).length

/-- TILE_ROOM (Table 17.6). -/
def Dev.roomSync (d : Dev) : Dev :=
  d.wr RAS_SUMMARY_TILE_ROOM ([0, 1, 2, 3].foldl (fun m die => min m (d.tilesLeft die - 160)) 8)

/-- A tile that failed its test becomes RETIRED, is entered in the record and reported (R88, R93, R485, R498). -/
def Dev.retireTile (d : Dev) (die q unit : Nat) : Dev :=
  let d := ((d.setPts die q 0).inc RAS_TILE_CNT_FAILED).rasAppend 1 0 (tileCoord die q) 0
  let d := (d.event 12 2 1 (tileCoord die q) unit 0 0).roomSync
  if d.tilesLeft die = 160 then d.warn else d

/-- An ACTIVE tile that failed is replaced by the lowest spare of its die and retired; without a spare the die is lost (R95, R496). -/
def Dev.replaceTile (d : Dev) (die q unit : Nat) : Dev :=
  match (d.tilesIn die 2).head? with
  | none => (d.retireTile die q unit).dieLost die
  | some inn =>
    let d := d.swapTile die q inn
    (d.updTiles fun t => { t with testing := t.testing.filter (·.1 != die * 192 + q) }).retireTile die q unit

/-- The repair map of a die at start-up, once each of its tiles has been tested: the first 160 that passed, in order of index, are logical tiles, the rest SPARE; with fewer start-up fails (R86). -/
def Dev.bootTiles (d : Dev) (die : Nat) : Dev :=
  let open_ := (List.range 168).any fun q => d.tiles.testing.any (·.1 == die * 192 + q)
  if d.rd GLB_STATUS_READY = 1 ∨ d.rd GLB_STATUS_KIND = 2 ∨ d.rd GLB_STATUS_STEP = 9 ∨ open_ then d
  else
    let good := d.tilesIn die 2
    if good.length < 160 then d.startFail 4 die
    else (List.range 160).foldl (fun d i =>
      let q := good.getD i 0
      (d.setPts die q 1).wr (tmapFld (die * 160 + i)) (tileCoord die q)) d

/-- A tile's self-test ends: with UNIT 0 it passes (R86, R93, R485). -/
def Dev.tileTested (d : Dev) (die q unit : Nat) : Dev :=
  let k := die * 192 + q
  let d := (d.updTiles fun t => { t with testing := t.testing.filter (·.1 != k) }).inc RAS_TILE_CNT_TESTED
  let d := if unit = 0 then
      let d := d.updTiles fun t => { t with lastTest := sput (fun _ => 0) t.lastTest k d.now }
      if d.pts die q = 3 then d.setPts die q 2 else d
    else if d.pts die q = 1 then d.replaceTile die q unit
    else d.retireTile die q unit
  d.bootTiles die

/-- A tile goes into its self-test in place (R94, R496). -/
def Dev.testInPlace (d : Dev) (die q : Nat) : Dev :=
  let d := if d.pts die q = 2 then d.setPts die q 3 else d
  d.updTiles fun t => { t with testing := putKey t.testing (die * 192 + q) d.now }

/-! ### Cores and firmware cores (R30, R34, R486, R489) -/

/-- The IDs of a kind in the persistent record, oldest first, and those that a full record did not take (R484). -/
def Dev.recorded (d : Dev) (kind : Nat) : List Nat :=
  (d.nv.record.filterMap fun e => if e.toNat % 256 = kind then some (e.toNat / 2 ^ 16 % 2 ^ 16) else none) ++
    (d.ras.unrecorded.filter (·.1 == kind)).map (·.2)

/-- The numbers of a die's cores: number n is physical core n, the first retired one the spare, others ABSENT; `n` numbers, spare `n`, retired cores oldest first (R30, R486, R489). -/
def numbering (n : Nat) (retired : List Nat) (i : Nat) : Option Nat :=
  if !retired.contains i then some i
  else if (retired.filter (· < n)).head? = some i ∧ !retired.contains n then some n
  else none

/-- The retired physical cores of a control die, 0 C0, 1 C1, oldest first; `unit` is 64 for general and 8 for firmware cores (Table 17.2). -/
def Dev.retiredCores (d : Dev) (kind unit die : Nat) : List Nat :=
  ((d.recorded kind).filter fun x => x / unit == die).map (· % unit)

/-- RAS_CORE_MAP, RAS_FW_MAP and the spare bits show the numbering (Tables 17.6, 17.11, 17.12). -/
def Dev.coreSync (d : Dev) : Dev :=
  let d := [0, 1].foldl (fun d die =>
    let r := d.retiredCores 4 64 die
    (List.range 4).foldl (fun d k =>
      d.wr (RAS_CORE_MAP_MAP die k) (leNat ((List.range 8).map fun q => match numbering 32 r (8 * k + q) with
        | some p => BitVec.ofNat 8 (128 + p)
        | none => 0))) d) d
  let fw := (List.range 8).foldl (fun m i =>
    match numbering 4 (d.retiredCores 5 8 (i / 4)) (i % 4) with
    | some p => m + (8 + p) * 2 ^ (16 * (i / 4) + 4 * (i % 4))
    | none => m) 0
  let spare (kind unit n die : Nat) : Nat :=
    let r := d.retiredCores kind unit die
    if r.contains n ∨ r.any (· < n) then 0 else 2 ^ die
  ((d.wr RAS_FW_MAP_MAP fw).wr RAS_SUMMARY_CORE_SPARE (spare 4 64 32 0 + spare 4 64 32 1)).wr RAS_SUMMARY_FW_SPARE (spare 5 8 4 0 + spare 5 8 4 1)

/-- The firmware cores that work, in FCORE's coding; those of a control die that is not ACTIVE do not (Table 12.16, R489). -/
def Dev.fwWorking (d : Dev) : List Nat :=
  [0, 1, 2, 3, 8, 9, 10, 11].filter fun f =>
    d.rd (NRW_DIE_STATE (4 + f / 8)) == 2 && (numbering 4 (d.retiredCores 5 8 (f / 8)) (f % 8)).isSome

/-- The queues of some firmware cores move, one by one, each to the working core that then serves the fewest, ties to the lowest; an entry read and not dispatched is read again (R34, R452, R489). -/
def Dev.moveQueues (d : Dev) (from_ : Nat → Bool) : Dev :=
  let (go, stay) := d.fe.queues.partition fun q => from_ (d.rd (FE_Q_STATE_FCORE q.qid))
  (go.foldl (fun (acc : Dev × List Nat) q =>
    let (d, served) := acc
    let load (f : Nat) : Nat := (served.filter fun i => d.rd (FE_Q_STATE_FCORE i) == f).length
    let best := d.fwWorking.foldl (fun (m : Option Nat) f => match m with
      | some g => if load f < load g then some f else m
      | none => some f) none
    match best with
    | none => acc
    | some f => ((d.wr (FE_Q_STATE_FCORE q.qid) f).updQueue q.qid fun x => { x with head := x.head.map fun h => { h with arrived := false } },
        served ++ [q.qid])) (d, stay.map (·.qid))).1

/-- SVC_STATE: 0 SERVICE, 1 ENTERING, 2 MAINTENANCE, 3 LEAVING (R495). -/
def Dev.svcState (d : Dev) : Nat := d.rd RAS_SUMMARY_SVC_STATE

/-- LEAVING ends once no test command and no sweep runs: the function enables return and the state is SERVICE (R495). -/
def Dev.leaveStep (d : Dev) : Dev :=
  if d.svcState ≠ 3 ∨ d.ras.test.isSome ∨ d.pool.cmd.any (·.1 == 5) then d
  else
    let saved := d.rd RAS_MAINT_CTRL_SAVED
    let d := (List.range 6).foldl (fun d f => if saved / 2 ^ f % 2 = 1 then d.setFuncState f 0 else d) d
    (d.wr FE_FUNC_CTRL_EN saved).wr RAS_SUMMARY_SVC_STATE 0

/-- The result of a test command (Table 17.9). -/
def Dev.testResult (d : Dev) (st : Status) (op target failed unit : Nat) : Dev :=
  let d := ((d.wr RAS_TEST_RESULT_STATUS (statusCode st)).wr RAS_TEST_RESULT_OP op).wr RAS_TEST_RESULT_TARGET target
  ((d.wr RAS_TEST_RESULT_FAILED failed).wr RAS_TEST_RESULT_UNIT unit).wr RAS_TEST_RESULT_DONE 1

/-- A test command completes with a status (R496, Tables 17.8 and 17.9). -/
def Dev.testDone (d : Dev) (st : Status) (op target failed unit : Nat) : Dev :=
  let d := d.testResult st op target failed unit
  ({ d.wr RAS_TEST_CMD_GO 0 with ras := { d.ras with test := none } } : Dev).leaveStep

end Sys2Proof.Machine
end

