-- ==== Sys2Proof/Machine/Fe.lean ====
section
/-! DEFINITION. The command front end: doorbells, entries, allocation, contexts, queues, fences, graphs, completions and functions (R347–R377, R425). -/

namespace Sys2Proof.Machine

/-- An operation's work ends as soon as it has begun. -/
def Dev.conclude (d : Dev) (op : Nat) (st : Status) (cause : Nat := 0) (exit : BitVec 32 := 0) : Dev :=
  (d.begin op).finish op st cause exit

/-! ### Doorbells (R354) -/

/-- SQ_TAIL: accepted when it lies between the last one and a full ring beyond HEAD, else discarded with FRONT_END event 4; none is accepted by a leeward or before READY (R354, R462, R571). -/
def execSqTail (qid : Nat) (v : Word) : State → Out := run fun d =>
  if d.isLeeward ∨ d.rd GLB_STATUS_READY = 0 then d
  else
    let drop := d.event 7 0 4 qid v.toNat 0 0
    match d.queue? qid with
    | none => drop
    | some q =>
      let head : BitVec 32 := BitVec.ofNat 32 (d.rd (FE_Q_COUNT_HEAD qid))
      let last : BitVec 32 := BitVec.ofNat 32 (d.rd (FE_Q_COUNT_TAIL qid))
      let tail : BitVec 32 := v.extractLsb' 0 32
      if d.rd (FE_Q_STATE_DEVICE_OWNED qid) = 1 ∨ 2 ^ q.sqLog2 < (tail - head).toNat ∨ (tail - head).toNat < (last - head).toNat then drop
      else d.wr (FE_Q_COUNT_TAIL qid) tail.toNat

/-- CQ_HEAD: accepted when it names no entry that is not posted, else discarded with FRONT_END event 4 (R354). -/
def execCqHead (qid : Nat) (v : Word) : State → Out := run fun d =>
  let h : BitVec 32 := v.extractLsb' 0 32
  if d.rd GLB_STATUS_READY = 0 then d
  else match d.queue? qid with
  | none => d.event 7 0 4 qid h.toNat 0 0
  | some q =>
    if (q.posted - q.cqHead).toNat < (h - q.cqHead).toNat then d.event 7 0 4 qid h.toNat 0 0
    else d.updQueue qid fun q => { q with cqHead := h }

/-! ### Reading entries (R355, R356) -/

/-- A copy of the entry of a count as it arrives: its bits and whether they are poisoned; none when no answer comes. -/
def Dev.ringCopy (d : Dev) (q : Queue) (c : Nat) (ext : BitVec 1024) : Option (BitVec 1024 × Bool) :=
  let a := q.sqPa + c % 2 ^ q.sqLog2 * 128
  if inPool a then some (BitVec.ofNat 1024 (d.natAt a 128), d.poisonIn a 128)
  else if d.straitUp ∧ (d.hostAddr a).isSome then some (ext, false) else none

/-- A copy is looked at: taken when its stamp is that of its count (R353, R355). -/
def Dev.takeCopy (d : Dev) (q : Queue) (c rereads : Nat) (x : BitVec 1024 × Bool) : Dev :=
  if entF x.1 4 4 = (c + 1) % 2 ^ 32 ∧ !x.2 then
    (d.updQueue q.qid fun q => { q with head := some ⟨x.1, none, rereads, true, none⟩ }).wr (FE_Q_COUNT_HEAD q.qid) (c + 1)
  else d.updQueue q.qid fun q => { q with head := some ⟨x.1, none, rereads, false, none⟩ }

/-- Whether a queue may take its next entry: the front end serves, the queue is READY with nothing at its head, its context lives. -/
def Dev.mayRead (d : Dev) (q : Queue) : Bool :=
  d.rd FE_STATUS_READY == 1 && !d.isLeeward && d.qState q.qid == 1 && q.head.isNone &&
    ((d.context? (d.rd (FE_Q_STATE_TAG q.qid))).all fun c => c.dying.isNone)

/-- ENTRY_READ: the entry at HEAD arrives from its ring, or a device-owned queue takes its next one (R355, R367). -/
def execEntryRead (qid : Nat) (ext : BitVec 1024) : State → Out := run fun d =>
  match d.queue? qid with
  | none => d
  | some q =>
    let c := d.rd (FE_Q_COUNT_HEAD qid)
    if !d.mayRead q then d
    else if d.rd (FE_Q_STATE_DEVICE_OWNED qid) = 1 then
      match q.devRing with
      | [] => d
      | (e, p) :: r =>
        (d.updQueue qid fun q => { q with devRing := r, head := some ⟨e, some p, 0, true, none⟩ }).wr (FE_Q_COUNT_HEAD qid) (c + 1)
    else if c = d.rd (FE_Q_COUNT_TAIL qid) then d
    else match d.ringCopy q c ext with
      | none => d
      | some x => d.takeCopy q c 0 x

/-- No copy of an entry had the right stamp: RING_TORN, and the queue reads no further (R355). -/
def Dev.tearRing (d : Dev) (q : Queue) (c : Nat) : Dev :=
  if q.full then d
  else
    let seq := (c + 1) % 2 ^ 32
    let d := (d.updQueue q.qid fun q => { q with head := none }).complete q.qid (BitVec.ofNat 1024 (seq * 2 ^ 32)) none .ringTorn 0 0 d.tick 0 false
    (d.setQState q.qid 5).event 7 2 1 q.qid seq 0 0

/-- ENTRY_RE_READ: a further copy of the entry arrives; the 64th re-read that does not match tears the ring (R355). -/
def execEntryReRead (qid : Nat) (ext : BitVec 1024) : State → Out := run fun d =>
  match d.queue? qid with
  | none => d
  | some q =>
    match q.head with
    | none => d
    | some h =>
      let c := d.rd (FE_Q_COUNT_HEAD qid)
      if h.arrived then d
      else if 64 ≤ h.rereads then d.tearRing q c
      else match d.ringCopy q c ext with
        | none => d
        | some x =>
          let d := d.takeCopy q c (h.rereads + 1) x
          if h.rereads = 63 ∧ (d.queue? qid).any (fun q => q.head.any fun h => !h.arrived) then d.tearRing q c else d

/-- ENTRY_DISPATCH: the entry at the head passes R357 (R357, R362–R364, R367). -/
def execEntryDispatch (qid : Nat) (cb : List Byte) : State → Out := run fun d =>
  match d.queue? qid with
  | none => d
  | some q =>
    match q.head with
    | none => d
    | some h =>
      let st := d.qState qid
      if !h.arrived ∨ !d.mayDispatch ∨ d.isLeeward ∨ d.twn.seedStop ∨ (st ≠ 1 ∧ st ≠ 2 ∧ st ≠ 3) then d
      else (d.runHead qid h cb).feSync qid

/-! ### Entries without an engine (R357, R361, R362) -/

/-- NOP_ENTRY: completes at once. -/
def execNopEntry (op : Nat) : State → Out := run fun d =>
  if (d.ready? op 0x00).isSome then d.conclude op .ok else d

/-- WAIT: its wait is over when it is dispatched; it does no work (R362). -/
def execFeWait (op : Nat) : State → Out := run fun d =>
  if (d.ready? op 0x07).isSome then d.conclude op .ok else d

/-- SIGNAL: completes at once; its completion signals SIG_H (R361). -/
def execFeSignal (op : Nat) : State → Out := run fun d =>
  if (d.ready? op 0x08).isSome then d.conclude op .ok else d

/-! ### COPY (R244, R289, R343, R491) -/

/-- The lines of a copy in ascending order up to the first that fails or waits. -/
def Dev.copyLines (d : Dev) (tag op dst hint : Nat) : Nat → List Nat → Nat → Except Xlate Dev × Dev
  | _, [], _ => (.ok d, d)
  | s, n :: r, off =>
    match d.vgather tag (s + off) n with
    | .error e => (.error e, d)
    | .ok (d', bs) =>
      match d'.vput tag (some op) (dst + off) bs hint with
      | .error e => (.error e, d)
      | .ok d' => d'.copyLines tag op dst hint s r (off + n)

/-- COPY: the engine moves the bytes with their poison marks; a dead engine completes RESOURCE_LOST (R244, R491, Table 12.5). -/
def execCopy (op : Nat) : State → Out := run fun d =>
  match d.ready? op 0x03 with
  | none => d
  | some o =>
    if d.fe.ops.any (fun p => p.opcode == 3 && p.unit == o.unit && !p.ended && decide (p.id < op)) then d
    else if !d.inService (0x20 + o.unit) then d.conclude op .resourceLost
    else if d.engineAway o.unit then d.conclude op .targetReset
    else
      let n := entF o.entry 48 8
      let pieces := List.replicate (n / 64) 64 ++ (if n % 64 = 0 then [] else [n % 64])
      match d.copyLines o.tag op (entF o.entry 40 8) (entF o.entry 57 1) (entF o.entry 32 8) pieces 0 with
      | (.ok d, _) => if d.nfp.reqs.any (·.op == some op) then d.begin op else d.conclude op .ok
      | (.error (.ended st), d) => d.conclude op st
      | (.error _, d) => d

/-! ### ALLOC, FREE, INVALIDATE (R257–R261, R330, R373) -/

/-- The page bytes of an ALLOC's PAGE field. -/
def allocPage (flags : Nat) : Nat := levelSpan (flags / 2 ^ 10 % 4)

/-- Whether an ALLOC keeps the rules of Tables 9.2 and 9.3 that its entry alone decides (R257). -/
def allocOk (e : BitVec 1024) : Bool :=
  let fl := entF e 32 4
  let tier := fl % 4
  let page := fl / 2 ^ 10 % 4
  let size := entF e 40 8
  let nsrc := entF e 66 1
  let streamed := page == 1 && fl / 2 ^ 9 % 2 == 0 && fl / 2 ^ 3 % 4 == 0 && fl / 4 % 2 == 1 && entF e 36 4 != 0
  match tier with
  | 0 => page != 3 && fl / 2 ^ 8 % 2 == 0 && size != 0 && size % allocPage fl == 0
  | 1 => streamed && decide (nsrc ≤ 1) && decide (entF e 56 8 < 2 ^ 57)
  | 2 => streamed && (nsrc == 1 || nsrc == 2) && entF e 64 2 != 0 && decide (entF e 48 8 < 2 ^ 57) && decide (entF e 56 8 < 2 ^ 57)
  | _ => false

/-- Whether a segment table keeps R259. -/
def segsOk (segs : List Nat) : Bool := segs.all fun l => decide (0 < l) && l % frameBytes == 0 && decide (l ≤ 2 ^ 36)

/-- Whether a virtual range may hold a new object of a context (R348). -/
def Dev.vaFree (d : Dev) (tag base size align : Nat) : Bool :=
  base % align == 0 && decide (2 ^ 56 ≤ base) && decide (base + size ≤ 2 ^ 57) &&
    !d.fe.objects.any fun o => o.tag == tag && decide (base < o.base + o.size) && decide (o.base < base + size)

/-- The free pages of a size. -/
def Dev.freePages (d : Dev) (p : Nat) : Nat := ((List.range (allocTop / p)).filter fun i => d.rangeFree (i * p) p).length

/-- Whether frames are free pages of a size, each named once. -/
def Dev.pagesFree (d : Dev) (p : Nat) (fr : List Nat) : Bool :=
  fr.all (fun f => f % p == 0 && d.rangeFree f p) && fr.eraseDups.length == fr.length

/-- Leaves of an object written page by page, with table pages from a supply (R348). -/
def Dev.mapPages (d : Dev) (root level base : Nat) (leaf : Nat → Word) (n : Nat) (sup : List Nat) : Option Dev :=
  ((List.range n).foldl (fun (r : Option (Dev × List Nat)) i => r.bind fun x =>
    x.1.mapLeaf (base + i * levelSpan level) level (leaf i) 4 root x.2) (some (d, sup))).map (·.1)

/-- The object takes its handle, and the result record its place; none when the handle table is full (R257, Table 12.5). -/
def Dev.giveObject (d0 d : Dev) (op : Nat) (o : FeObject) (res : Nat) : Dev :=
  match d.newHandle o.tag 0 o.id with
  | none => d0.conclude op .busy
  | some (h, d) =>
    let d := { d with fe := { d.fe with objects := d.fe.objects ++ [o], nextObj := d.fe.nextObj + 1 } }
    let bs := (leBytes 4 h.code ++ leBytes 4 0 ++ leBytes 8 o.base).map fun b => (b, false)
    match d.vput o.tag none res bs with
    | .ok d => (d.tierSync).conclude op .ok
    | .error (.ended st) => d0.conclude op st
    | .error _ => d0

/-- A T1 allocation: pages and tables from the allocator's choice, BUSY when it does not fit (R258, R348). -/
def Dev.allocT1 (d : Dev) (op : Nat) (o : FeOp) (c : Context) (base : Nat) (frames : List Nat) : Dev :=
  let fl := entF o.entry 32 4
  let size := entF o.entry 40 8
  let p := allocPage fl
  let n := size / p
  let data := frames.take n
  if d.vaFree o.tag base size p ∧ data.length = n ∧ d.pagesFree p data then
    let d' := data.foldl (fun d f => d.hold f p) d
    match d'.mapPages c.root (fl / 2 ^ 10 % 4) base (fun i => leafWord (data.getD i 0) (fl / 4 % 8)) n (frames.drop n) with
    | some d' => d.giveObject d' op ⟨d.fe.nextObj, o.tag, base, size, BitVec.ofNat 32 fl, data, [], 0, [], 0, none⟩ (entF o.entry 72 8)
    | none => d
  else if d.freePages p < n then d.conclude op .busy
  else d

/-- A streamed allocation: a virtual range of STREAM entries, with the pages of copies the context already references (R258, R259, R271, R273). -/
def Dev.allocStream (d : Dev) (op : Nat) (o : FeOp) (c : Context) (base : Nat) (frames : List Nat) (ident : Nat) (segs : List Nat)
    (src : List (BitVec 256)) : Dev :=
  let size := segs.sum
  if !d.vaFree o.tag base size frameBytes then d
  else match d.mapPages c.root 1 base (fun _ => 0x80) (size / frameBytes) frames with
    | none => d
    | some d' =>
      let ob : FeObject := ⟨d.fe.nextObj, o.tag, base, size, BitVec.ofNat 32 (entF o.entry 32 4), [], segs, ident, src, entF o.entry 36 4, none⟩
      let d'' := d.giveObject d' op ob (entF o.entry 72 8)
      (d''.tier.copies.filter fun k => k.ident == ident && k.state == 2 && k.refs.contains o.tag).foldl (fun d k => d.segPages o.tag k true) d''

/-- What stands between an ALLOC and its streamed object: a status, or a wait. -/
def Dev.allocStop (d : Dev) (op : Nat) : Xlate → Dev
  | .ended st => d.conclude op st
  | _ => d

/-- `n` numbers of `k` bytes from a virtual range; poison ends with POISON_CONSUMED (R244). -/
def Dev.vnums (d : Dev) (tag va k n : Nat) : Except Xlate (Dev × List Nat) :=
  match d.vgather tag va (k * n) with
  | .error e => .error e
  | .ok (d, bs) => if bs.any (·.2) then .error (.ended .poisonConsumed) else .ok (d, chunks k n (bs.map (·.1)))

/-- ALLOC (R257–R260). -/
def execFeAlloc (op : Nat) (base : Nat) (frames : List Nat) : State → Out := run fun d =>
  match d.ready? op 0x09 with
  | none => d
  | some o =>
    match d.context? o.tag with
    | none => d
    | some c =>
      let e := o.entry
      let tier := entF e 32 4 % 4
      if !allocOk e then d.conclude op .aborted 0x82
      else if tier = 0 then d.allocT1 op o c base frames
      else match d.vnums o.tag (entF e 56 8) 32 (if entF e 56 8 = 0 then 0 else entF e 66 1) with
        | .error x => d.allocStop op x
        | .ok (d, recs) =>
          let src := recs.map (BitVec.ofNat 256)
          let bad := src.length ≠ entF e 66 1 ∨ src.any fun s => s.getLsbD 15 || s.toNat / 2 ^ 32 % 2 ^ 32 != 0 || s.toNat / 2 ^ 192 != 0
          if bad then d.conclude op .aborted 0x82
          else if tier = 1 then
            match d.nv.dir.find? fun x => x.state == 2 && x.name == BitVec.ofNat 64 (entF e 40 8) with
            | none => d.conclude op .handleInvalid
            | some x => d.allocStream op o c base frames x.index x.segs src
          else match d.vnums o.tag (entF e 48 8) 8 (entF e 64 2) with
            | .error x => d.allocStop op x
            | .ok (d, segs) =>
              if !segsOk segs then d.conclude op .aborted 0x82
              else d.allocStream op o c base frames (remoteIdent (src.headD 0)) segs src

/-- FREE: the handle goes at once, the object once nothing references it (R373). -/
def execFeFree (op : Nat) : State → Out := run fun d =>
  match d.ready? op 0x0A with
  | none => d
  | some o =>
    let h := entF o.entry 32 4
    match d.handleObject o.tag h with
    | none => d.conclude op .handleInvalid
    | some ob =>
      let d := (d.begin op).freeHandle fun e => e.tag == o.tag && e.index == h % 2 ^ 14
      ({ d with fe := { d.fe with objects := updWhere (·.id == ob.id) (fun x => { x with freeing := some op }) d.fe.objects } }).freeStep op

/-- INVALIDATE: a RANGE or TAG invalidation of the context's own tag (R330, Table 12.5). -/
def execFeInvalidate (op : Nat) : State → Out := run fun d =>
  match d.ready? op 0x0B with
  | none => d
  | some o =>
    let go := fun (r : Option (Nat × Nat)) => if d.invalRoom then (d.begin op).startInval (some op) o.tag r else d
    match entF o.entry 32 1 with
    | 1 => match invalRange (entF o.entry 40 8) (entF o.entry 33 1) (entF o.entry 34 2) with
      | none => d.conclude op .aborted 0x82
      | some r => go (some r)
    | 2 => go none
    | _ => d.conclude op .aborted 0x82

/-- GRAPH_LAUNCH: the version bound at dispatch runs, ready nodes first in ascending index (R370, R371). -/
def execGraphLaunch (op : Nat) : State → Out := run fun d =>
  match d.ready? op 0x0C with
  | none => d
  | some o => (d.begin op).graphStep op o.qid o.tag 5000

/-! ### Admin commands (R375, Table 12.8) -/

/-- The 16-byte result record of an admin command. -/
def Dev.putResult (d : Dev) (pa v : Nat) : Dev := d.putRecord pa (leBytes 8 v ++ leBytes 8 0)

/-- A live context that is not being destroyed. -/
def Dev.liveCtx (d : Dev) (tag : Nat) : Option Context :=
  match d.context? tag with
  | some c => if c.dying.isNone then some c else none
  | none => none

/-- The first tag after `t` that no context holds and no TAG invalidation covers (R347). -/
def Dev.nextTag (d : Dev) : Nat → Nat → Nat
  | 0, t => t
  | n + 1, t =>
    let u := t % 0xFFFF + 1
    if (d.context? u).isSome ∨ d.ctu.invals.any (fun i => i.tag == u && i.range.isNone) then d.nextTag n u else u

/-- The lowest free slot of the context table (R329). -/
def Dev.freeSlot (d : Dev) : Nat :=
  ((List.range 1024).find? fun i => !d.fe.contexts.any (·.slot == i)).getD 0

/-- CREATE_CONTEXT (R329, R340, R347). -/
def execCreateContext (op : Nat) (rootPa : Nat) : State → Out := run fun d =>
  match d.ready? op 0x40 with
  | none => d
  | some o =>
    let e := o.entry
    let mode := entF e 32 1; let pa := entF e 40 8; let len := entF e 48 8; let res := entF e 56 8
    if 2 < mode ∨ (len ≠ 0 ∧ (len < 1385496576 ∨ allocTop < pa + len)) ∨ !inMemory res 16 then d.conclude op .aborted 0x82
    else if 1024 ≤ d.fe.contexts.length then d.conclude op .busy
    else if rootPa % 4096 ≠ 0 ∨ !d.rangeFree rootPa 4096 then d
    else
      let t := d.nextTag 65535 d.fe.lastTag
      let k := d.freeSlot
      let d := (d.hold rootPa 4096).zeroFill rootPa (rootPa + 4096)
      let d := { d with fe := { d.fe with contexts := d.fe.contexts ++ [(⟨t, k, rootPa, pa, len, none⟩ : Context)], lastTag := t } }
      let d := (((d.wr (CTU_CTX_TAG k) t).wr (CTU_CTX_ROOT k) (rootPa / 4096)).wr (CTU_CTX_MODE k) mode).wr (CTU_CTX_VALID k) 1
      ((d.putResult res rootPa).conclude op .ok 0 (BitVec.ofNat 32 t)).feSync o.qid

/-- DESTROY_CONTEXT: its queues stop and its operations are aborted; the rest follows when they have left (R374). -/
def execDestroyContext (op : Nat) : State → Out := run fun d =>
  match d.ready? op 0x41 with
  | none => d
  | some o =>
    match d.liveCtx (entF o.entry 32 2) with
    | none => d.conclude op .aborted 0x82
    | some c =>
      let d := d.begin op
      let d := { d with fe := { d.fe with contexts := updWhere (·.tag == c.tag) (fun c => { c with dying := some op }) d.fe.contexts } }
      let qs := d.fe.queues.filter fun q => d.rd (FE_Q_STATE_TAG q.qid) == c.tag && q.qid != 0
      let d := qs.foldl (fun d q => (d.updQueue q.qid fun q => { q with head := none, devRing := [] }).setQState q.qid 6) d
      let d := (d.fe.ops.filter (·.tag == c.tag)).foldl (fun d p => d.abortOp p.id .aborted 0x86) d
      d.destroyStep c.tag

/-- Whether a ring address may be used: 4 KiB aligned, wholly in allocatable HBM or in the host window (R352). -/
def ringOk (a n : Nat) : Bool := a % 4096 == 0 && inMemory a n

/-- CREATE_QUEUE (R352, R375, R424). -/
def execCreateQueue (op : Nat) (fcore : Nat) : State → Out := run fun d =>
  match d.ready? op 0x42 with
  | none => d
  | some o =>
    let e := o.entry
    let qid := entF e 32 2; let tag := entF e 34 2; let fl := entF e 36 1; let sq := entF e 37 1; let cq := entF e 38 1
    let vec := entF e 60 2
    if qid = 0 ∨ 8191 < qid ∨ (d.liveCtx tag).isNone ∨ sq < 4 ∨ 16 < sq ∨ cq < 4 ∨ 16 < cq ∨ vec < 3 ∨ 2047 < vec ∨
        !ringOk (entF e 48 8) (32 * 2 ^ cq) ∨ (fl % 2 = 0 ∧ !ringOk (entF e 40 8) (128 * 2 ^ sq)) then d.conclude op .aborted 0x82
    else if (d.queue? qid).isSome then d.conclude op .busy
    else if 4 < fcore % 8 ∨ 15 < fcore then d
    else match d.newHandle tag 2 qid with
      | none => d.conclude op .busy
      | some (h, d) =>
        let q : Queue := ⟨qid, entF e 40 8, entF e 48 8, sq, cq, entF e 56 4, vec, 0, 0, none, [], none, false⟩
        let d := { d with fe := { d.fe with queues := d.fe.queues ++ [q] } }
        let d := (d.setWord (FE_Q_STATE_STATE qid).reg 0).setWord (FE_Q_COUNT_HEAD qid).reg 0
        let d := (((d.setQState qid 1).wr (FE_Q_STATE_DEVICE_OWNED qid) (fl % 2)).wr (FE_Q_STATE_ERR_STOP qid) (fl / 2 % 2)).wr (FE_Q_STATE_PRIO qid) (fl / 4)
        let d := (d.wr (FE_Q_STATE_TAG qid) tag).wr (FE_Q_STATE_FCORE qid) fcore
        (d.conclude op .ok 0 (BitVec.ofNat 32 h.code)).feSync qid

/-- RESET_QUEUE with MODE RESET (R366); another MODE than RESUME is out of range. -/
def execResetQueue (op : Nat) : State → Out := run fun d =>
  match d.ready? op 0x43 with
  | none => d
  | some o =>
    let qid := entF o.entry 32 2
    if entF o.entry 34 1 = 1 then d
    else if entF o.entry 34 1 ≠ 0 ∨ qid = 0 then d.conclude op .aborted 0x82
    else match d.queue? qid with
      | none => d.conclude op .aborted 0x82
      | some q => if q.draining.isSome then d else ((d.begin op).drainQueue qid op false).drainStep qid

/-- RESUME: RESET_QUEUE with MODE RESUME makes a HALTED queue go on (R365). -/
def execResumeQueue (op : Nat) : State → Out := run fun d =>
  match d.ready? op 0x43 with
  | none => d
  | some o =>
    let qid := entF o.entry 32 2
    if entF o.entry 34 1 ≠ 1 then d
    else if qid = 0 ∨ (d.queue? qid).isNone then d.conclude op .aborted 0x82
    else (if d.qState qid = 4 then d.setQState qid 1 else d).conclude op .ok

/-- DESTROY_QUEUE (R366). -/
def execDestroyQueue (op : Nat) : State → Out := run fun d =>
  match d.ready? op 0x44 with
  | none => d
  | some o =>
    let qid := entF o.entry 32 2
    if qid = 0 then d.conclude op .aborted 0x82
    else match d.queue? qid with
      | none => d.conclude op .aborted 0x82
      | some q => if q.draining.isSome then d else ((d.begin op).drainQueue qid op true).drainStep qid

/-- The lowest fence index not live (R360). -/
def Dev.freeFence (d : Dev) : Nat := ((List.range 65536).find? fun i => (d.fence? i).isNone).getD 0

/-- CREATE_FENCE (R360, R361). -/
def execCreateFence (op : Nat) : State → Out := run fun d =>
  match d.ready? op 0x45 with
  | none => d
  | some o =>
    let e := o.entry
    let tag := entF e 32 2; let sig := entF e 34 2; let v := entF e 40 8; let res := entF e 48 8
    let own := (d.queue? sig).isSome && d.rd (FE_Q_STATE_TAG sig) == tag
    if (d.liveCtx tag).isNone ∨ (sig ≠ 0xFFFF ∧ !own) ∨ 2 ^ 63 ≤ v ∨ !inMemory res 16 then d.conclude op .aborted 0x82
    else if 65536 ≤ d.fe.fences.length then d.conclude op .busy
    else
      let i := d.freeFence
      match d.newHandle tag 1 i with
      | none => d.conclude op .busy
      | some (h, d) =>
        let f : Fence := ⟨i, tag, if sig = 0xFFFF then none else some sig, false⟩
        let d := { d with fe := { d.fe with fences := d.fe.fences ++ [f] } }
        let d := (d.setWord (FE_FENCE_VALUE i).reg 0).wr (FE_FENCE_VALUE i) v
        ((d.putResult res i).conclude op .ok 0 (BitVec.ofNat 32 h.code)).feSync o.qid

/-- DESTROY_FENCE (R375). -/
def execDestroyFence (op : Nat) : State → Out := run fun d =>
  match d.ready? op 0x46 with
  | none => d
  | some o =>
    let tag := entF o.entry 32 2
    match d.reloc tag 1 (entF o.entry 36 4) 0 with
    | none => d.conclude op .handleInvalid
    | some i =>
      let d := d.freeHandle fun e => e.tag == tag && e.kind == 1 && e.target == i && e.live
      let d := { d with fe := { d.fe with fences := d.fe.fences.filter (·.index != i) } }
      ((d.setWord (FE_FENCE_VALUE i).reg 0).conclude op .ok).feSync o.qid

/-- Whether a node's entry may stand in a graph (R369). -/
def nodeOk (e : BitVec 1024) : Bool := decide (entF e 0 1 ≤ 6) && entF e 8 4 == 0

/-- The nodes left after those without a predecessor left have been taken away, `n` times over. -/
def peelNodes (edges : List (Nat × Nat)) : Nat → List Nat → List Nat
  | 0, l => l
  | n + 1, l =>
    let r := l.filter fun v => edges.any fun e => e.2 == v && l.contains e.1
    if r.length = l.length then l else peelNodes edges n r

/-- Whether nodes and edges make a graph (R369). -/
def graphOk (nodes : List (BitVec 1024)) (edges : List (Nat × Nat)) : Bool :=
  nodes.all nodeOk && edges.all (fun e => decide (e.1 < nodes.length) && decide (e.2 < nodes.length)) &&
    (peelNodes edges nodes.length (List.range nodes.length)).isEmpty

/-- The node copies that a graph holds: unchanged nodes are shared by its versions (R370). -/
def Graph.copies (g : Graph) : Nat := ((g.versions.flatMap fun v => v.nodes.zipIdx).eraseDups).length

/-- The node copies in the graph store (R369). -/
def Dev.storeUsed (d : Dev) : Nat := (d.fe.graphs.map Graph.copies).sum

/-- Bytes that an admin command reads: from HBM, or what arrives from the host window; poison ends with POISON_CONSUMED (R244, R375). -/
def Dev.adminRead (d : Dev) (pa n : Nat) (ext : Nat) : Except Status Nat :=
  if inPool pa then (if d.poisonIn pa n then .error .poisonConsumed else .ok (d.natAt pa n))
  else if (d.hostAddr pa).isNone then .error .rights
  else if d.straitUp then .ok ext else .error .resourceLost

/-- Elements of a number in pieces of `w` bits. -/
def pieces (w n v : Nat) : List Nat := (List.range n).map fun i => v / 2 ^ (w * i) % 2 ^ w

/-- GRAPH_CREATE: nodes and edges become version 1 (R369). -/
def execGraphCreate (op : Nat) (nodes : List (BitVec 1024)) (edges : List (BitVec 32)) : State → Out := run fun d =>
  match d.ready? op 0x47 with
  | none => d
  | some o =>
    let e := o.entry
    let tag := entF e 32 2; let nn := entF e 34 2; let ne := entF e 36 4; let npa := entF e 40 8; let epa := entF e 48 8
    if (d.liveCtx tag).isNone ∨ nn = 0 ∨ 4096 < nn ∨ 16384 < ne ∨ !inMemory npa (128 * nn) ∨ (ne ≠ 0 ∧ !inMemory epa (4 * ne)) then
      d.conclude op .aborted 0x82
    else
      let extN := (nodes.take nn).foldr (fun (x : BitVec 1024) a => x.toNat + 2 ^ 1024 * a) 0
      let extE := (edges.take ne).foldr (fun (x : BitVec 32) a => x.toNat + 2 ^ 32 * a) 0
      match d.adminRead npa (128 * nn) extN, (if ne = 0 then .ok 0 else d.adminRead epa (4 * ne) extE) with
      | .error st, _ => d.conclude op st
      | _, .error st => d.conclude op st
      | .ok nv, .ok ev =>
        let ns := (pieces 1024 nn nv).map (BitVec.ofNat 1024)
        let es := (pieces 32 ne ev).map fun x => (x / 2 ^ 16, x % 2 ^ 16)
        if !graphOk ns es then d.conclude op .aborted 0x87
        else if 262144 < d.storeUsed + nn then d.conclude op .busy
        else match d.newHandle tag 3 d.fe.nextGraph with
          | none => d.conclude op .busy
          | some (h, d) =>
            let g : Graph := ⟨d.fe.nextGraph, tag, 1, false, [⟨1, ns, es⟩]⟩
            let d := { d with fe := { d.fe with graphs := d.fe.graphs ++ [g], nextGraph := d.fe.nextGraph + 1 } }
            d.conclude op .ok 0 (BitVec.ofNat 32 h.code)

/-- GRAPH_PATCH: one node replaced in a new current version (R370). -/
def execGraphPatch (op : Nat) (node : BitVec 1024) : State → Out := run fun d =>
  match d.ready? op 0x48 with
  | none => d
  | some o =>
    let e := o.entry
    let i := entF e 34 2; let pa := entF e 40 8
    match d.reloc (entF e 32 2) 3 (entF e 36 4) 0 with
    | none => d.conclude op .handleInvalid
    | some id =>
      match (d.fe.graphs.find? (·.id == id)).bind fun (g : Graph) => (g.versions.find? (·.num == g.current)).map fun v => ((g, v) : Graph × GraphVersion) with
      | none => d.conclude op .handleInvalid
      | some (g, v) =>
        if v.nodes.length ≤ i ∨ !inMemory pa 128 then d.conclude op .aborted 0x82
        else match d.adminRead pa 128 node.toNat with
          | .error st => d.conclude op st
          | .ok x =>
            let x := BitVec.ofNat 1024 x
            if !nodeOk x then d.conclude op .aborted 0x87
            else if 16 ≤ g.versions.length ∨ 262144 ≤ d.storeUsed then d.conclude op .busy
            else
              let new : GraphVersion := ⟨g.current + 1, v.nodes.set i x, v.edges⟩
              let next := fun (g : Graph) => { g with current := g.current + 1, versions := g.versions ++ [new] }
              let d := { d with fe := { d.fe with graphs := updWhere (·.id == id) next d.fe.graphs } }
              (d.pruneGraphs).conclude op .ok 0 (BitVec.ofNat 32 (g.current + 1))

/-- GRAPH_DESTROY: the handle goes at once, each version with its last launch (R370). -/
def execGraphDestroy (op : Nat) : State → Out := run fun d =>
  match d.ready? op 0x49 with
  | none => d
  | some o =>
    let tag := entF o.entry 32 2
    match d.reloc tag 3 (entF o.entry 36 4) 0 with
    | none => d.conclude op .handleInvalid
    | some id =>
      let d := d.freeHandle fun e => e.tag == tag && e.kind == 3 && e.target == id && e.live
      (({ d with fe := { d.fe with graphs := updWhere (·.id == id) (fun g => { g with dead := true }) d.fe.graphs } }).pruneGraphs).conclude op .ok

/-- ALLOC_PHYS: a run of HBM for the driver; BUSY when HBM lacks room (R375). -/
def execAllocPhys (op : Nat) (frame : Nat) : State → Out := run fun d =>
  match d.ready? op 0x4A with
  | none => d
  | some o =>
    let n := entF o.entry 40 8; let res := entF o.entry 56 8
    if n = 0 ∨ n % frameBytes ≠ 0 ∨ !inMemory res 16 then d.conclude op .aborted 0x82
    else if frame % frameBytes = 0 ∧ d.rangeFree frame n then
      (({ d with fe := { d.fe with phys := d.fe.phys ++ [(frame, n)] } }).putResult res frame).conclude op .ok
    else if d.hasRoom n then d
    else d.conclude op .busy

/-- FREE_PHYS (R375). -/
def execFreePhys (op : Nat) : State → Out := run fun d =>
  match d.ready? op 0x4B with
  | none => d
  | some o =>
    let pa := entF o.entry 40 8
    if d.fe.phys.any (·.1 == pa) then
      ({ d with fe := { d.fe with phys := d.fe.phys.filter (·.1 != pa) } }).conclude op .ok
    else d.conclude op .aborted 0x82

/-! ### Completions and timeouts (R358, R360, R364, R376) -/

/-- Whether an operation's completion may be posted now: its twin has acknowledged it, nothing holds it back, its ring has room (R376, R462, R467, R471–R473, R476). -/
def Dev.mayPost (d : Dev) (o : FeOp) (st : Status) : Bool :=
  (o.acked || d.twState < 3 || 5 < d.twState || d.rd TWN_STATUS_ROLE == 1) && !(d.twState == 4 && d.rd TWN_STATUS_ROLE == 0 && decide (5 ≤ d.rd TWN_STATUS_CAUSE)) && !d.twn.sendStopped && !d.ras.fatal && d.twn.heldTally != some o.id &&
    (o.graph.isSome || (entF o.entry 1 1 / 8 % 2 == 1 && decide (st = Status.ok)) || !(d.queue? o.qid).any Queue.full)

/-- OPERATION_COMPLETE: an operation whose work has ended is posted, its fence signalled, its interrupt raised, and what waits for it goes on (R358, R360, R376). -/
def execOperationComplete (op : Nat) : State → Out := run fun d =>
  let d := d.thrSettle
  match d.op? op with
  | none => d
  | some o =>
    match o.phase with
    | .done st0 cause0 exit =>
      let (st, cause) := if d.twn.failTally = some op then (Status.tallyMismatch, 0) else (st0, cause0)
      if !d.mayPost o st then d
      else
        let d := if st = .epochStale then d.wr GLB_STATUS_EPOCH_STALE 1 else d
        let d := if st = .tallyMismatch then d.wr GLB_STATUS_TALLY_MISMATCH 1 else d
        let d := d.leave o st cause exit
        (if d.isLeeward then (if o.streamed then d else d.twinMatch o.gdn st cause exit.toNat).twinRun else d).seedStep
    | _ => d

/-- FENCE_TIMEOUT: an off-device wait expires (R364). -/
def execFenceTimeout (qid : Nat) : State → Out := run fun d =>
  match d.queue? qid with
  | none => d
  | some q =>
    if q.timeoutMs = 0 ∨ d.waitsOn qid ≠ some .offDevice ∨ d.qState qid ≠ 2 then d
    else (d.refuse qid .fenceTimeout 0).feSync qid

/-- A core without its task. -/
def Core.idle (k : Core) : Core := { k with task := none, held := none, resv := none }

/-- The dirty lines of a core's cluster written to their homes, every copy kept (R466). -/
def Dev.cleanCluster (d : Dev) (core : Nat) : Dev :=
  match cacheAgent core with
  | none => d
  | some a =>
    let cs := clusterCaches a
    (d.coh.lines.filter fun x => cs.contains x.cache && x.st == .m).foldl (fun d x =>
      ((d.homeWrite x.line x.data x.poisoned).putLine { x with st := .e }).streamCache core) d

/-- A core's task ends with a status and an exit value; a windward's writes its cluster's dirty lines back first (R29, R368, R466, R488). -/
def Dev.endTask (d : Dev) (core : Nat) (st : Status) (exit : BitVec 32 := 0) : Dev :=
  match (d.cores.cores.find? (·.id == core)).bind (·.task) with
  | none => d
  | some t =>
    let d := if d.isWindward then d.cleanCluster core else d
    let d := { d with cores := { d.cores with cores := updWhere (·.id == core) Core.idle d.cores.cores } }
    d.finish t.op st 0 exit

/-- CORE_TASK_TIMEOUT: a core task exceeds its TIMEOUT_MS (R368). -/
def execCoreTaskTimeout (core : Nat) : State → Out := run fun d =>
  match (d.cores.cores.find? (·.id == core)).bind (·.task) with
  | none => d
  | some t =>
    match d.op? t.op with
    | none => d
    | some o => if entF o.entry 60 4 = 0 then d else d.endTask core .aborted

/-! ### Functions (R372, R495) -/

/-- A function whose bit is cleared drains (R372). -/
def Dev.funcDisable (d : Dev) (f : Nat) : Dev :=
  let en := d.rd FE_FUNC_CTRL_EN
  let d := d.wr FE_FUNC_CTRL_EN (en - en / 2 ^ f % 2 * 2 ^ f)
  if d.funcState f = 0 then (d.setFuncState f 1).funcStep f else d

/-- A function that is DISABLED is enabled again at once (R372). -/
def Dev.funcEnable (d : Dev) (f : Nat) : Dev :=
  if d.funcState f = 2 then (d.wr FE_FUNC_CTRL_EN (Nat.lor (d.rd FE_FUNC_CTRL_EN) (2 ^ f))).setFuncState f 0 else d

/-- A write of FE_FUNC_CTRL: none while the service state is not SERVICE, or when it sets the bit of a function that drains (R372, R495). -/
def Dev.funcCtrl (d : Dev) (v : Word) : Option Dev :=
  let bit := fun (x f : Nat) => x / 2 ^ f % 2
  let x := fieldOf v 5 0
  let en := d.rd FE_FUNC_CTRL_EN
  let fs := List.range 6
  if d.svcState ≠ 0 ∨ fs.any (fun f => bit x f == 1 && bit en f == 0 && d.funcState f == 1) then none
  else some (fs.foldl (fun d f => if bit x f = bit en f then d else if bit x f = 1 then d.funcEnable f else d.funcDisable f) d)

/-- A write of FE_FUNC_CTRL that changes one bit, as a command of its own: discarded, or done and told to the partner. -/
def Dev.funcCmd (d : Dev) (f : Nat) (on : Bool) : Dev :=
  if 5 < f then d
  else
    let en := d.rd FE_FUNC_CTRL_EN
    let v : Word := BitVec.ofNat 64 (if on then Nat.lor en (2 ^ f) else en - en / 2 ^ f % 2 * 2 ^ f)
    d.orDiscard FE_FUNC_CTRL_EN.reg v ((d.funcCtrl v).map Dev.tellDecision)

/-- FUNCTION_DISABLE. -/
def execFunctionDisable (f : Nat) : State → Out := regCmd FE_FUNC_CTRL_EN.reg 0 fun d => d.funcCmd f false

/-- FUNCTION_ENABLE. -/
def execFunctionEnable (f : Nat) : State → Out := regCmd FE_FUNC_CTRL_EN.reg (BitVec.ofNat 64 (2 ^ f)) fun d => d.funcCmd f true

/-- FUNCTION_DRAIN_TIMEOUT: the operations left are aborted, with one CONTAINED event (R372 step 3, R581). -/
def execFunctionDrainTimeout (f : Nat) : State → Out := run fun d =>
  if 5 < f ∨ d.funcState f ≠ 1 then d
  else
    let left := d.fe.ops.filter fun o => functionOf o.opcode == some f && !o.ended
    if left.isEmpty then d
    else (left.foldl (fun d o => d.abortOp o.id .aborted 0x85) d).event 7 2 3 0 0 f left.length

/-! ### Fences by register (R360, R361, Table 12.19) -/

/-- The word of FE_FENCE_SIGNAL for an index, with GO (bits 1) or CLR_ERROR (bits 2) (Table 12.19). -/
def fenceWord (index bits : Nat) : Word := BitVec.ofNat 64 (index % 2 ^ 16 * 2 ^ 16 + bits)

/-- A write of FE_FENCE_SIGNAL: CLR_ERROR clears the ERROR of a live fence, GO signals a live EXTERNAL fence; none for any other fence. (DEDUCED, assumption 37) -/
def Dev.fenceWrite (d : Dev) (v : Word) : Option Dev :=
  let i := fieldOf v 31 16
  match d.fence? i with
  | none => if fieldOf v 1 0 = 0 then some d else none
  | some f =>
    if v.getLsbD 0 ∧ (f.signaller.isSome ∨ f.orphan) then none
    else
      let d := if v.getLsbD 1 then d.wr (FE_FENCE_ERROR i) 0 else d
      some (if v.getLsbD 0 then d.signalFence i (d.rd FE_FENCE_SIGVAL_VALUE) else d)

/-- A write of FE_FENCE_SIGNAL as a command of its own: discarded, or done and told to the partner. -/
def Dev.fenceCmd (d : Dev) (v : Word) : Dev := d.orDiscard FE_FENCE_SIGNAL_GO.reg v ((d.fenceWrite v).map Dev.tellDecision)

/-- FE_FENCE_SIGNAL: GO. -/
def execFeFenceSignal (index : Nat) : State → Out :=
  regCmd FE_FENCE_SIGNAL_GO.reg (fenceWord index 1) fun d => d.fenceCmd (fenceWord index 1)

/-- CLR_ERROR: the sticky ERROR of a live fence is cleared. -/
def execClrError (index : Nat) : State → Out :=
  regCmd FE_FENCE_SIGNAL_GO.reg (fenceWord index 2) fun d => d.fenceCmd (fenceWord index 2)

/-! ### QID 0 and interrupts (R375, R424, R425) -/

/-- The rings of QID 0 as the two registers name them, with counts 0; QID 0 is READY when both are in use (R375, Table 12.14). -/
def Dev.adminQueue (d : Dev) : Dev :=
  let d := d.setWord (FE_Q_COUNT_HEAD 0).reg 0
  if d.rd FE_ADMIN_SQ_EN = 0 ∨ d.rd FE_ADMIN_CQ_EN = 0 then d
  else
    let q : Queue := ⟨0, d.rd FE_ADMIN_SQ_ADDR * 4096, d.rd FE_ADMIN_CQ_ADDR * 4096, d.rd FE_ADMIN_SQ_LOG2, d.rd FE_ADMIN_CQ_LOG2,
      0, Config.adminVector, 0, 0, none, [], none, false⟩
    let rest := d.fe.queues.filter (·.qid != 0)
    (({ d with fe := { d.fe with queues := q :: rest } }).setQState 0 1).feSync 0

/-- A write of FE_ADMIN_SQ or FE_ADMIN_CQ (R375, R577, Table 12.14). -/
def Dev.adminRing (d : Dev) (isCq : Bool) (v : Word) : Option Dev :=
  let off := if isCq then FE_ADMIN_CQ_EN.reg else FE_ADMIN_SQ_EN.reg
  let p := d.plainWrite off v
  (ringWrite (d.word off) v 4 (if isCq then 32 else 128)).map fun
    | .same => d
    | .plain => p
    | .stop => (p.drainQueue 0 0 false).drainStep 0
    | .start => p.adminQueue

/-- ADMIN_RING_ENABLE, accepted before READY too (R571). -/
def execAdminRingEnable (isCq : Bool) (v : Word) : State → Out := run fun d =>
  let off := if isCq then FE_ADMIN_CQ_EN.reg else FE_ADMIN_SQ_EN.reg
  (d.regGate off v true).getD (d.orDiscard off v ((d.adminRing isCq v).map Dev.tellDecision))

/-- INTERRUPT_HOLDOFF_EXPIRY: the merged INT that is owed goes out, and its own holdoff begins (R425). -/
def execInterruptHoldoffExpiry (vec : Nat) : State → Out := run fun d =>
  match getKey d.str.holdoff vec with
  | none => d
  | some owed =>
    if owed ∧ d.straitUp then
      ({ d with str := { d.str with holdoff := putKey d.str.holdoff vec false } }).send (.int vec)
    else { d with str := { d.str with holdoff := d.str.holdoff.filter (·.1 != vec) } }

end Sys2Proof.Machine
end

