-- ==== Sys2Proof/Machine/Coh.lean ====
section
/-! DEFINITION. The homes, the tracked caches and their agents: requests, snoops, evictions, errors, ways and clusters (R288–R314). -/

namespace Sys2Proof.Machine

/-- Whether a line is one of the pool that its home serves (R230, R289). -/
def homeLineOk (l : Nat) : Bool := inPool (l * 64) && !reserveFrame (l / 2 ^ 15)

/-- Whether a tracked cache may send a request for a line: it is in service and has none outstanding there (R301). -/
def Dev.mayAsk (d : Dev) (c l : Nat) : Bool :=
  decide (c < 68) && d.cacheLives c && homeLineOk l && !d.coh.txns.any (fun t => t.line == l && t.req.cache == some c) &&
    !d.coh.waiting.any fun w => w.1 == l && w.2.cache == some c

/-- Whether a home takes a request of an agent: that of a dead one is discarded (R313). -/
def Dev.agentAsks (d : Dev) (a l : Nat) : Bool := homeLineOk l && d.agentState a != 3

/-! ### Requests (R297–R300, R306) -/

/-- RD_SHARED. -/
def execRdShared (cache : Nat) (line : Nat) : State → Out := run fun d =>
  if d.mayAsk cache line ∧ (d.cline? cache line).isNone ∧ !d.setFull cache line then d.homeRequest line (.rdShared cache) else d

/-- RD_OWN. -/
def execRdOwn (cache : Nat) (line : Nat) : State → Out := run fun d =>
  if d.mayAsk cache line ∧ (d.cline? cache line).isNone ∧ !d.setFull cache line then d.homeRequest line (.rdOwn cache) else d

/-- UPGRADE. -/
def execUpgrade (cache : Nat) (line : Nat) : State → Out := run fun d =>
  if d.mayAsk cache line ∧ (d.cline? cache line).any (·.st == .s) then d.homeRequest line (.upgrade cache) else d

/-- RD_ONCE. -/
def execRdOnce (agent : Nat) (line : Nat) : State → Out := run fun d =>
  if d.agentAsks agent line then d.homeRequest line (.rdOnce agent) else d

/-- WR. -/
def execWr (agent : Nat) (line : Nat) (mask : BitVec 64) (data : BitVec 512) (poisoned : Bool) (hint : BitVec 8) : State → Out := run fun d =>
  if d.agentAsks agent line then d.homeRequest line (.wr agent mask data poisoned hint) else d

/-- ATOM. -/
def execAtom (agent : Nat) (line : Nat) (lanes : List AtomLane) : State → Out := run fun d =>
  if d.agentAsks agent line ∧ lanes.all (fun a => decide (a.off + (if a.wide then 8 else 4) ≤ 64)) then
    d.homeRequest line (.atom agent lanes)
  else d

/-- CLEAN. -/
def execClean (cache : Nat) (line : Nat) : State → Out := run fun d =>
  if cache < 66 ∧ d.mayAsk cache line then d.homeRequest line (.clean cache) else d

/-- FLUSH. -/
def execFlush (cache : Nat) (line : Nat) : State → Out := run fun d =>
  if cache < 66 ∧ d.mayAsk cache line then d.homeRequest line (.flush cache) else d

/-- A line that the system cache of a core's die holds goes to the core's L2 with its state, and the home is told (R295). -/
def Dev.moveLine (d : Dev) (cache line : Nat) : Dev :=
  let sys := 66 + cacheDie cache
  match d.cline? sys line with
  | none => d
  | some x => ((d.dropLine sys line).putLine { x with cache := cache }).homeRequest line (.move cache)

/-- MOVE. -/
def execCohMove (cache : Nat) (line : Nat) : State → Out := run fun d =>
  if 66 ≤ cache ∨ !d.mayAsk cache line ∨ (d.cline? cache line).isSome ∨ d.setFull cache line then d else d.moveLine cache line

/-- A cache gives up a line: its home clears the entry and takes dirty data; where a transaction waits for this cache's snoop, the EVICT answers it (R298, R301). -/
def Dev.evict (d : Dev) (c l : Nat) : Dev :=
  match d.cline? c l with
  | none => d
  | some x =>
    let d := d.dropLine c l
    let data := if x.st = .m then some (x.data, x.poisoned) else none
    if d.coh.txns.any fun t => t.line == l && t.wait.contains c then d.snoopDone c l true data
    else
      let d := match data with
        | some (y, bad) => (d.homeWrite l y bad).streamCache c
        | none => d
      d.clearDup c l

/-- EVICT_LINE. -/
def execEvictLine (cache : Nat) (line : Nat) : State → Out := run fun d =>
  if d.cacheLives cache then d.evict cache line else d

/-! ### Snoops (R300, R301, R311) -/

/-- A snoop of a kind reaches a cache, which changes its line and forms its answer. -/
def Dev.snoop (d : Dev) (kind c l : Nat) : Dev :=
  let sent := d.coh.txns.any fun t => t.line == l && t.snoop == kind && t.wait.contains c
  if !sent ∨ !d.cacheLives c ∨ d.coh.snpAns.any (fun a => a.cache == c && a.line == l) then d
  else
    let answer := fun (d : Dev) (a : SnpAnswer) => d.updCoh fun h => { h with snpAns := h.snpAns ++ [a] }
    match d.cline? c l with
    | some x =>
      let data := if x.st = .m then some (x.data, x.poisoned) else none
      let d := match kind with
        | 0 => d.putLine { x with st := .s }
        | 1 => d.putLine { x with st := if x.st = .m then .e else x.st }
        | _ => d.dropLine c l
      answer d ⟨c, l, 0, data⟩
    | none =>
      let moved := decide (66 ≤ c) && d.coh.waiting.any fun w => w.1 == l && (match w.2 with | .move k => 66 + cacheDie k == c | _ => false)
      answer d ⟨c, l, if moved then 2 else 1, none⟩

/-- SNP_SHARE. -/
def execSnpShare (cache : Nat) (line : Nat) : State → Out := run fun d => d.snoop 0 cache line

/-- SNP_CLEAN. -/
def execSnpClean (cache : Nat) (line : Nat) : State → Out := run fun d => d.snoop 1 cache line

/-- SNP_INV. -/
def execSnpInv (cache : Nat) (line : Nat) : State → Out := run fun d => d.snoop 2 cache line

/-- A system cache answered MOVED: the home orders the MOVE and sends the snoop to the L2 (R295). -/
def Dev.moved (d : Dev) (sys l : Nat) : Dev :=
  let isMove := fun (w : Nat × HomeReq) => w.1 == l && match w.2 with | .move k => 66 + cacheDie k == sys | _ => false
  match d.coh.waiting.find? isMove with
  | some w =>
    let dest := w.2.cache.getD sys
    let d := d.updCoh fun h => { h with
      waiting := h.waiting.erase w
      snpAns := h.snpAns.filter fun a => !(a.cache == sys && a.line == l)
      txns := updWhere (·.line == l) (fun t => { t with wait := t.wait.map fun c => if c = sys then dest else c }) h.txns }
    d.perform l w.2
  | none => d

/-- SNP_ANS: the answer of a cache reaches the home (R301). -/
def execSnpAns (cache : Nat) (line : Nat) : State → Out := run fun d =>
  match d.coh.snpAns.find? fun a => a.cache == cache && a.line == line with
  | none => d
  | some a => if a.sub = 2 then d.moved cache line else d.snoopDone cache line (a.sub == 1) a.data

/-- An agent dies, and with it what only it served: a function with no engine left drains, and the ports of a dead receive agent are off (R312, R313, R491, R492). -/
def Dev.killAgent (d : Dev) (agent : Nat) : Dev :=
  let d := d.agentDies agent
  let ports := if agent = 0x39 then [0, 1, 2, 3] else if agent = 0x3A then [4, 5, 6, 7] else []
  let d := ports.foldl (fun d p => d.wr (NFP_PORT_CTRL_EN p) 0) d
  [2, 3, 4, 5].foldl (fun d f => if d.functionLost f ∧ d.funcState f = 0 then d.funcDisable f else d) d

/-- SNOOP_TIMEOUT: a core cluster that leaves a snoop unanswered is declared dead (R311). -/
def execSnoopTimeout (cache : Nat) (line : Nat) : State → Out := run fun d =>
  let waits := d.coh.txns.any fun t => t.line == line && t.wait.contains cache
  match cacheAgent cache with
  | some a => if waits then d.killAgent a else d
  | none => d

/-! ### Clusters (R310, R311, Table 10.10) -/

/-- The status of a command of COH_AGENT_CMD. -/
def Dev.agentStatus (d : Dev) (st : Status) : Dev := (d.wr COH_AGENT_CMD_STATUS (statusCode st)).wr COH_AGENT_CMD_GO 0

/-- The word of COH_AGENT_CMD that starts a command. -/
def agentWord (agent op : Nat) : Word := BitVec.ofNat 64 (agent % 256 * 256 + op * 32 + 1)

/-- OFFLINE of a cluster: it cleans its caches first (R310). -/
def Dev.agentOffline (d : Dev) (agent : Nat) : Dev :=
  if !isCluster agent then d.agentStatus .aborted
  else if d.agentState agent ≠ 0 then d.agentStatus .busy
  else (d.wr (COH_AGENT_STATE agent) 1).wr COH_AGENT_CMD_GO 1

/-- ONLINE of a cluster (R310). -/
def Dev.agentOnline (d : Dev) (agent : Nat) : Dev :=
  if !isCluster agent then d.agentStatus .aborted
  else if d.agentState agent ≠ 2 then d.agentStatus .busy
  else (d.wr (COH_AGENT_STATE agent) 0).agentStatus .ok

/-- DEAD of an agent (R311, R312). -/
def Dev.agentDead (d : Dev) (agent : Nat) : Dev :=
  match agentClass agent with
  | some 0 => if d.inService agent then (d.killAgent agent).agentStatus .ok else d.agentStatus .busy
  | some _ => d.agentStatus .aborted
  | none => d.agentStatus .busy

/-- COH_AGENT_CMD with GO: one command at a time; none for an OP that the table does not list (Table 10.10). -/
def Dev.agentCmd (d : Dev) (v : Word) : Option Dev :=
  let agent := fieldOf v 15 8
  let op := fieldOf v 7 5
  if op = 0 ∨ 3 < op then none
  else if d.rd COH_AGENT_CMD_GO = 1 then some d
  else
    let d := (d.wr COH_AGENT_CMD_AGENT agent).wr COH_AGENT_CMD_OP op
    some (if op = 1 then d.agentOffline agent else if op = 2 then d.agentOnline agent else d.agentDead agent)

/-- A command of COH_AGENT_CMD. -/
def Dev.agentGo (d : Dev) (agent op : Nat) : Dev := d.orDiscard COH_AGENT_CMD_GO.reg (agentWord agent op) (d.agentCmd (agentWord agent op))

/-- OFFLINE. -/
def execOffline (agent : Nat) : State → Out := regCmd COH_AGENT_CMD_GO.reg (agentWord agent 1) fun d => d.agentGo agent 1

/-- ONLINE. -/
def execOnline (agent : Nat) : State → Out := regCmd COH_AGENT_CMD_GO.reg (agentWord agent 2) fun d => d.agentGo agent 2

/-- DEAD. -/
def execDead (agent : Nat) : State → Out := regCmd COH_AGENT_CMD_GO.reg (agentWord agent 3) fun d => d.agentGo agent 3

/-- Every line of some caches given up. -/
def Dev.evictAll (d : Dev) (cs : List Nat) : Dev :=
  (d.coh.lines.filter fun x => cs.contains x.cache).foldl (fun d x => d.evict x.cache x.line) d

/-- A CLEANING cluster whose caches no home tracks any more is OFFLINE (R310). -/
def Dev.clusterClean (d : Dev) (agent : Nat) : Dev :=
  let cs := clusterCaches agent
  let d := d.evictAll cs
  if d.coh.dups.any (fun x => cs.contains x.cache) ∨ d.coh.waiting.any (fun w => w.2.cache.any cs.contains) ∨
      d.coh.txns.any (fun t => t.req.cache.any cs.contains) then d
  else d.wr (COH_AGENT_STATE agent) 2

/-- Whether the running test command is one of a cluster's cores (R496, Table 17.8). -/
def Dev.coreTested (d : Dev) (agent : Nat) : Bool := d.ras.test == some (3, agent)

/-- CLUSTER_CLEANING_COMPLETE: the cluster is OFFLINE; one that a test command took out has run its tasks to their end, and its self-test begins (R310, R496). -/
def execClusterCleaningComplete (agent : Nat) : State → Out := run fun d =>
  if d.agentState agent ≠ 1 ∨ (d.coreTested agent ∧ d.cores.cores.any fun k => cacheAgent k.id == some agent && k.task.isSome) then d
  else
    let d := d.clusterClean agent
    if d.agentState agent ≠ 2 then d
    else
      let d := if d.rd COH_AGENT_CMD_GO = 1 ∧ d.rd COH_AGENT_CMD_AGENT = agent then d.agentStatus .ok else d
      if d.coreTested agent then { d with cores := { d.cores with testing := d.cores.testing ++ [(agent / 16, agent % 16)] } } else d

/-! ### Ways (R309) -/

/-- A write of COH_WAYS[c]: none while ways are cleaned, or out of the cache's range. -/
def Dev.wayTarget (d : Dev) (c : Nat) (v : Word) : Option Dev :=
  let t := fieldOf v 13 9
  let lo := if c < 4 then 4 else 2
  let hi := if c < 4 then 24 else 16
  if d.rd (COH_WAYS_CLEANING c) = 1 ∨ t < lo ∨ hi < t then none
  else
    let d := d.wr (COH_WAYS_TARGET c) t
    some (if t < d.rd (COH_WAYS_IN_FORCE c) then d.wr (COH_WAYS_CLEANING c) 1 else d.wr (COH_WAYS_IN_FORCE c) t)

/-- WAY_TARGET_WRITE. -/
def execWayTargetWrite (c : Nat) (v : Word) : State → Out := regCmd (COH_WAYS_TARGET c).reg v fun d =>
  if 5 < c then d else d.orDiscard (COH_WAYS_TARGET c).reg v (d.wayTarget c v)

/-- WAY_CLEANING_COMPLETE: the removed ways lose power; a system cache gives up its lines with them. -/
def execWayCleaningComplete (c : Nat) : State → Out := run fun d =>
  if 5 < c ∨ d.rd (COH_WAYS_CLEANING c) = 0 then d
  else
    let d := if c < 4 then d else d.evictAll [66 + (c - 4)]
    (d.wr (COH_WAYS_CLEANING c) 0).wr (COH_WAYS_IN_FORCE c) (d.rd (COH_WAYS_TARGET c))

/-! ### Errors (R308) -/

/-- The caches of an error: 0–67 as the homes track them, 68–71 the shared caches of A0–A3, 72 + tile a tile L1. The SOURCE of its event: an agent, a cache of COH_WAYS, or a free value for a tile L1, for which the manual names none. -/
def Dev.cacheSource (d : Dev) (c : Nat) : Nat × Dev :=
  match cacheAgent c with
  | some a => (a, d)
  | none =>
    if c < 68 then (4 + (c - 66), d)
    else if c < 72 then (c - 68, d)
    else let (w, d) := d.free; (w.toNat % 2 ^ 16, d)

/-- An event of a cache. -/
def Dev.cacheEvent (d : Dev) (sev ev c l : Nat) : Dev :=
  let (s, d) := d.cacheSource c
  d.event 4 sev ev s (l * 64) 0 0

/-- A line of a tile L1 by its place in virtual space. -/
def Dev.tileLine (d : Dev) (tile vl : Nat) : Option L1Line := d.tiles.l1.find? fun x => x.tile == tile && x.vline == vl

/-- CACHE_DATA_ERROR (Table 10.5). Whether a shared cache holds the line dirty is not state of this model, so what a double-bit error there does is a free choice of the two. -/
def execCacheDataError (cache : Nat) (line : Nat) (dbl : Bool) : State → Out := run fun d =>
  let fixed := fun (d : Dev) => d.cacheEvent 1 1 cache line
  let lost := fun (d : Dev) => d.cacheEvent 2 1 cache line
  let ue := d.inc COH_ERR_CNT_DATA_UE
  if !dbl then fixed (d.inc COH_ERR_CNT_DATA_CE)
  else if cache < 68 then
    match d.cline? cache line with
    | none => d
    | some x => if x.st = .m then lost (ue.putLine { x with poisoned := true }) else fixed (ue.evict cache line)
  else if cache < 72 then
    if !homeLineOk line then d
    else
      let (w, d') := ue.free
      if w.getLsbD 0 then lost (d'.homeWrite line (d'.homeLine line) true) else fixed d'
  else
    match d.tileLine (cache - 72) line with
    | none => d
    | some x => if x.dirty = 0 then fixed (ue.dropL1 x.tile x.tag x.vline) else lost (ue.putL1 { x with poisoned := true })

/-- CACHE_TAG_PARITY_ERROR (Table 10.5). -/
def execCacheTagParityError (kind : TagErr) (cache : Nat) (line : Nat) (home : Nat) : State → Out := run fun d =>
  let fixed := fun (d : Dev) => (d.inc COH_ERR_CNT_TAG_FIXED).cacheEvent 1 2 cache line
  match kind with
  | .l1Core => if cache < 68 then fixed d else d
  | .l2OrSystem => if cache < 68 then fixed (d.evict cache line) else d
  | .duplicate =>
    if 68 ≤ cache then d
    else match d.cline? cache line with
      | some x => fixed (d.putDup cache line (x.st != .s))
      | none => fixed d
  | .sharedOneCopy => if 68 ≤ cache ∧ cache < 72 then fixed d else d
  | .tileClean =>
    match d.tileLine (cache - 72) line with
    | some x => if x.dirty = 0 ∧ 72 ≤ cache then fixed (d.dropL1 x.tile x.tag x.vline) else d
    | none => d
  | .tileDirty =>
    match d.tileLine (cache - 72) line with
    | some x =>
      if x.dirty = 0 ∨ cache < 72 then d
      else
        let d := ((d.dropL1 x.tile x.tag x.vline).inc COH_ERR_CNT_TILE_LOST).cacheEvent 2 2 cache line
        let ls := (d.thr.groups.filter (·.tile == x.tile)).map (·.launch)
        ls.eraseDups.foldl (fun d op => d.thrErrorOpen op .poisonConsumed 0xFF (some x.tile)) d
    | none => d
  | .both => if home < 4 then d.domainDown (0x58 + home) 4 else d

end Sys2Proof.Machine
end

