-- ==== Sys2Proof/Machine/CoreAlu.lean ====
section
/-! DEFINITION. The integer instructions of the general cores as functions of their operands: RV64I, M, Zba, Zbb, Zbs, Zbc, Zicond, and the expansion of compressed instructions (R26, PRESUMED, assumption 45). -/

namespace Sys2Proof.Machine

/-! ### Words -/

/-- The low 32 bits of a word, sign-extended. -/
def sext32 (x : Word) : Word := (x.setWidth 32).signExtend 64

/-- The bits of a word counted from the bottom up to the first set one; 64 for zero. -/
def ctzNat (n w : Nat) : Nat := ((List.range w).find? fun i => n.testBit i).getD w
def clzNat (n w : Nat) : Nat := if n = 0 then w else w - 1 - n.log2
def popNat (n w : Nat) : Nat := ((List.range w).filter fun i => n.testBit i).length

/-- The carry-less product (Zbc). -/
def clmulNat (a b : Nat) : Nat := (List.range 64).foldl (fun r i => if b.testBit i then Nat.xor r (a * 2 ^ i) else r) 0

/-- The signed quotient and remainder of RISC-V: division by zero and overflow have results of their own. -/
def divS (w : Nat) (a b : Int) : Int := if b = 0 then -1 else if a = -(2 ^ (w - 1) : Int) ∧ b = -1 then a else Int.tdiv a b
def remS (w : Nat) (a b : Int) : Int := if b = 0 then a else if a = -(2 ^ (w - 1) : Int) ∧ b = -1 then 0 else Int.tmod a b
def divU (w a b : Nat) : Nat := if b = 0 then 2 ^ w - 1 else a / b
def remU (a b : Nat) : Nat := if b = 0 then a else a % b

/-- A word from an integer. -/
def wordOf (v : Int) : Word := BitVec.ofInt 64 v

def bitW (p : Bool) : Word := if p then 1 else 0

/-! ### Register and immediate forms -/

/-- OP: funct7, funct3 and the two operands. -/
def aluOp (f7 f3 : Nat) (a b : Word) : Option Word :=
  let sh := b.toNat % 64
  match f7, f3 with
  | 0x00, 0 => some (a + b)
  | 0x00, 1 => some (a <<< sh)
  | 0x00, 2 => some (bitW (a.slt b))
  | 0x00, 3 => some (bitW (a.ult b))
  | 0x00, 4 => some (a ^^^ b)
  | 0x00, 5 => some (a >>> sh)
  | 0x00, 6 => some (a ||| b)
  | 0x00, 7 => some (a &&& b)
  | 0x20, 0 => some (a - b)
  | 0x20, 4 => some (~~~(a ^^^ b))
  | 0x20, 5 => some (a.sshiftRight sh)
  | 0x20, 6 => some (a ||| ~~~b)
  | 0x20, 7 => some (a &&& ~~~b)
  | 0x01, 0 => some (a * b)
  | 0x01, 1 => some (wordOf (a.toInt * b.toInt / 2 ^ 64))
  | 0x01, 2 => some (wordOf (a.toInt * b.toNat / 2 ^ 64))
  | 0x01, 3 => some (BitVec.ofNat 64 (a.toNat * b.toNat / 2 ^ 64))
  | 0x01, 4 => some (wordOf (divS 64 a.toInt b.toInt))
  | 0x01, 5 => some (BitVec.ofNat 64 (divU 64 a.toNat b.toNat))
  | 0x01, 6 => some (wordOf (remS 64 a.toInt b.toInt))
  | 0x01, 7 => some (BitVec.ofNat 64 (remU a.toNat b.toNat))
  | 0x05, 1 => some (BitVec.ofNat 64 (clmulNat a.toNat b.toNat))
  | 0x05, 2 => some (BitVec.ofNat 64 (clmulNat a.toNat b.toNat / 2 ^ 63))
  | 0x05, 3 => some (BitVec.ofNat 64 (clmulNat a.toNat b.toNat / 2 ^ 64))
  | 0x05, 4 => some (if a.slt b then a else b)
  | 0x05, 5 => some (if a.ult b then a else b)
  | 0x05, 6 => some (if a.slt b then b else a)
  | 0x05, 7 => some (if a.ult b then b else a)
  | 0x07, 5 => some (if b = 0 then 0 else a)
  | 0x07, 7 => some (if b = 0 then a else 0)
  | 0x10, 2 => some (b + (a <<< 1))
  | 0x10, 4 => some (b + (a <<< 2))
  | 0x10, 6 => some (b + (a <<< 3))
  | 0x14, 1 => some (a ||| ((1 : Word) <<< sh))
  | 0x24, 1 => some (a &&& ~~~((1 : Word) <<< sh))
  | 0x24, 5 => some ((a >>> sh) &&& 1)
  | 0x30, 1 => some (a.rotateLeft sh)
  | 0x30, 5 => some (a.rotateRight sh)
  | 0x34, 1 => some (a ^^^ ((1 : Word) <<< sh))
  | _, _ => none

/-- OP-32. -/
def aluOpW (f7 f3 rs2 : Nat) (a b : Word) : Option Word :=
  let x := a.setWidth 32
  let y := b.setWidth 32
  let sh := b.toNat % 32
  let zx : Word := x.setWidth 64
  match f7, f3 with
  | 0x00, 0 => some ((x + y).signExtend 64)
  | 0x00, 1 => some ((x <<< sh).signExtend 64)
  | 0x00, 5 => some ((x >>> sh).signExtend 64)
  | 0x20, 0 => some ((x - y).signExtend 64)
  | 0x20, 5 => some ((x.sshiftRight sh).signExtend 64)
  | 0x01, 0 => some ((x * y).signExtend 64)
  | 0x01, 4 => some ((BitVec.ofInt 32 (divS 32 x.toInt y.toInt)).signExtend 64)
  | 0x01, 5 => some ((BitVec.ofNat 32 (divU 32 x.toNat y.toNat)).signExtend 64)
  | 0x01, 6 => some ((BitVec.ofInt 32 (remS 32 x.toInt y.toInt)).signExtend 64)
  | 0x01, 7 => some ((BitVec.ofNat 32 (remU x.toNat y.toNat)).signExtend 64)
  | 0x04, 0 => some (b + zx)
  | 0x04, 4 => if rs2 = 0 then some ((a.setWidth 16).setWidth 64) else none
  | 0x10, 2 => some (b + (zx <<< 1))
  | 0x10, 4 => some (b + (zx <<< 2))
  | 0x10, 6 => some (b + (zx <<< 3))
  | 0x30, 1 => some ((x.rotateLeft sh).signExtend 64)
  | 0x30, 5 => some ((x.rotateRight sh).signExtend 64)
  | _, _ => none

/-- Every byte of a word that is not zero made all ones (ORC.B). -/
def orcB (a : Word) : Word :=
  BitVec.ofNat 64 ((List.range 8).foldl (fun r i => if a.toNat / 256 ^ i % 256 = 0 then r else r + 255 * 256 ^ i) 0)

/-- The bytes of a word in the other order (REV8). -/
def rev8 (a : Word) : Word :=
  BitVec.ofNat 64 ((List.range 8).foldl (fun r i => r + a.toNat / 256 ^ i % 256 * 256 ^ (7 - i)) 0)

/-- OP-IMM: `i` is the 12-bit immediate as bits. -/
def aluImm (f3 i : Nat) (a : Word) : Option Word :=
  let imm : Word := (BitVec.ofNat 12 i).signExtend 64
  let sh := i % 64
  match f3 with
  | 0 => some (a + imm)
  | 2 => some (bitW (a.slt imm))
  | 3 => some (bitW (a.ult imm))
  | 4 => some (a ^^^ imm)
  | 6 => some (a ||| imm)
  | 7 => some (a &&& imm)
  | 1 =>
    match i / 64 with
    | 0x00 => some (a <<< sh)
    | 0x0A => some (a ||| ((1 : Word) <<< sh))
    | 0x12 => some (a &&& ~~~((1 : Word) <<< sh))
    | 0x1A => some (a ^^^ ((1 : Word) <<< sh))
    | 0x18 =>
      match sh with
      | 0 => some (BitVec.ofNat 64 (clzNat a.toNat 64))
      | 1 => some (BitVec.ofNat 64 (ctzNat a.toNat 64))
      | 2 => some (BitVec.ofNat 64 (popNat a.toNat 64))
      | 4 => some ((a.setWidth 8).signExtend 64)
      | 5 => some ((a.setWidth 16).signExtend 64)
      | _ => none
    | _ => none
  | _ =>
    match i / 64 with
    | 0x00 => some (a >>> sh)
    | 0x10 => some (a.sshiftRight sh)
    | 0x18 => some (a.rotateRight sh)
    | 0x12 => some ((a >>> sh) &&& 1)
    | 0x0A => if sh = 7 then some (orcB a) else none
    | 0x1A => if sh = 0x38 then some (rev8 a) else none
    | _ => none

/-- OP-IMM-32. -/
def aluImmW (f3 i : Nat) (a : Word) : Option Word :=
  let x := a.setWidth 32
  let sh := i % 32
  match f3 with
  | 0 => some ((x + ((BitVec.ofNat 12 i).signExtend 32)).signExtend 64)
  | 1 =>
    if i / 64 = 2 then some ((x.setWidth 64 : Word) <<< (i % 64))
    else match i / 32 with
      | 0x00 => some ((x <<< sh).signExtend 64)
      | 0x30 =>
        match sh with
        | 0 => some (BitVec.ofNat 64 (clzNat x.toNat 32))
        | 1 => some (BitVec.ofNat 64 (ctzNat x.toNat 32))
        | 2 => some (BitVec.ofNat 64 (popNat x.toNat 32))
        | _ => none
      | _ => none
  | 5 =>
    match i / 32 with
    | 0x00 => some ((x >>> sh).signExtend 64)
    | 0x20 => some ((x.sshiftRight sh).signExtend 64)
    | 0x30 => some ((x.rotateRight sh).signExtend 64)
    | _ => none
  | _ => none

/-- Whether a conditional branch is taken; none for a funct3 that names none. -/
def branchTaken (f3 : Nat) (a b : Word) : Option Bool :=
  match f3 with
  | 0 => some (a == b)
  | 1 => some (a != b)
  | 4 => some (a.slt b)
  | 5 => some (!a.slt b)
  | 6 => some (a.ult b)
  | 7 => some (!a.ult b)
  | _ => none

/-! ### Fields of an instruction -/

/-- Bits `hi` to `lo` of an instruction. -/
def insF (w hi lo : Nat) : Nat := w / 2 ^ lo % 2 ^ (hi + 1 - lo)

/-- The immediates of the I, S, B, U and J forms. -/
def immI (w : Nat) : Word := (BitVec.ofNat 12 (insF w 31 20)).signExtend 64
def immS (w : Nat) : Word := (BitVec.ofNat 12 (insF w 31 25 * 32 + insF w 11 7)).signExtend 64
def immB (w : Nat) : Word :=
  (BitVec.ofNat 13 (insF w 31 31 * 4096 + insF w 7 7 * 2048 + insF w 30 25 * 32 + insF w 11 8 * 2)).signExtend 64
def immU (w : Nat) : Word := (BitVec.ofNat 32 (insF w 31 12 * 4096)).signExtend 64
def immJ (w : Nat) : Word :=
  (BitVec.ofNat 21 (insF w 31 31 * 2 ^ 20 + insF w 19 12 * 4096 + insF w 20 20 * 2048 + insF w 30 21 * 2)).signExtend 64

/-! ### Compressed instructions -/

/-- The 32-bit words of the base forms. -/
def encR (f7 rs2 rs1 f3 rd op : Nat) : Nat := f7 * 2 ^ 25 + rs2 * 2 ^ 20 + rs1 * 2 ^ 15 + f3 * 2 ^ 12 + rd * 2 ^ 7 + op
def encI (imm rs1 f3 rd op : Nat) : Nat := imm % 4096 * 2 ^ 20 + rs1 * 2 ^ 15 + f3 * 2 ^ 12 + rd * 2 ^ 7 + op
def encS (imm rs2 rs1 f3 op : Nat) : Nat := encR (imm / 32 % 128) rs2 rs1 f3 (imm % 32) op
def encB (imm rs2 rs1 f3 : Nat) : Nat :=
  encR (imm / 4096 % 2 * 64 + imm / 32 % 64) rs2 rs1 f3 (imm / 2 % 16 * 2 + imm / 2048 % 2) 0x63
def encJ (imm rd : Nat) : Nat :=
  (imm / 2 ^ 20 % 2 * 2 ^ 19 + imm / 2 % 1024 * 2 ^ 9 + imm / 2048 % 2 * 2 ^ 8 + imm / 4096 % 256) * 4096 + rd * 128 + 0x6F

/-- A field of `n` bits sign-extended to 21 bits. -/
def sextN (n v : Nat) : Nat := if v / 2 ^ (n - 1) % 2 = 1 then v + 2 ^ 21 - 2 ^ n else v

/-- Quadrant 0: loads and stores on x8 to x15, and those of Zcb. -/
def expandC0 (w : Nat) : Option Nat :=
  let r1 := 8 + insF w 9 7
  let r2 := 8 + insF w 4 2
  let u4 := insF w 12 10 * 8 + insF w 6 6 * 4 + insF w 5 5 * 64
  let u8 := insF w 12 10 * 8 + insF w 6 5 * 64
  match insF w 15 13 with
  | 0 =>
    let i := insF w 12 11 * 16 + insF w 10 7 * 64 + insF w 6 6 * 4 + insF w 5 5 * 8
    if i = 0 then none else some (encI i 2 0 r2 0x13)
  | 1 => some (encI u8 r1 3 r2 0x07)
  | 2 => some (encI u4 r1 2 r2 0x03)
  | 3 => some (encI u8 r1 3 r2 0x03)
  | 4 =>
    let b := insF w 6 6 + insF w 5 5 * 2
    let h := insF w 5 5 * 2
    match insF w 12 10 with
    | 0 => some (encI b r1 4 r2 0x03)
    | 1 => some (encI h r1 (if insF w 6 6 = 0 then 5 else 1) r2 0x03)
    | 2 => some (encS b r2 r1 0 0x23)
    | 3 => if insF w 6 6 = 0 then some (encS h r2 r1 1 0x23) else none
    | _ => none
  | 5 => some (encS u8 r2 r1 3 0x27)
  | 6 => some (encS u4 r2 r1 2 0x23)
  | _ => some (encS u8 r2 r1 3 0x23)

/-- The arithmetic of quadrant 1 on x8 to x15, and that of Zcb. -/
def expandArith (w : Nat) : Option Nat :=
  let r1 := 8 + insF w 9 7
  let r2 := 8 + insF w 4 2
  let i := insF w 12 12 * 32 + insF w 6 2
  match insF w 11 10 with
  | 0 => some (encI i r1 5 r1 0x13)
  | 1 => some (encI (0x400 + i) r1 5 r1 0x13)
  | 2 => some (encI (sextN 6 i) r1 7 r1 0x13)
  | _ =>
    match insF w 12 12, insF w 6 5 with
    | 0, 0 => some (encR 0x20 r2 r1 0 r1 0x33)
    | 0, 1 => some (encR 0 r2 r1 4 r1 0x33)
    | 0, 2 => some (encR 0 r2 r1 6 r1 0x33)
    | 0, _ => some (encR 0 r2 r1 7 r1 0x33)
    | _, 0 => some (encR 0x20 r2 r1 0 r1 0x3B)
    | _, 1 => some (encR 0 r2 r1 0 r1 0x3B)
    | _, 2 => some (encR 1 r2 r1 0 r1 0x33)
    | _, _ =>
      match insF w 4 2 with
      | 0 => some (encI 0xFF r1 7 r1 0x13)
      | 1 => some (encI 0x604 r1 1 r1 0x13)
      | 2 => some (encR 0x04 0 r1 4 r1 0x3B)
      | 3 => some (encI 0x605 r1 1 r1 0x13)
      | 4 => some (encR 0x04 0 r1 0 r1 0x3B)
      | 5 => some (encI 0xFFF r1 4 r1 0x13)
      | _ => none

/-- Quadrant 1. -/
def expandC1 (w : Nat) : Option Nat :=
  let rd := insF w 11 7
  let i := insF w 12 12 * 32 + insF w 6 2
  let r1 := 8 + insF w 9 7
  let bo := insF w 12 12 * 256 + insF w 11 10 * 8 + insF w 6 5 * 64 + insF w 4 3 * 2 + insF w 2 2 * 32
  match insF w 15 13 with
  | 0 => some (encI (sextN 6 i) rd 0 rd 0x13)
  | 1 => if rd = 0 then none else some (encI (sextN 6 i) rd 0 rd 0x1B)
  | 2 => some (encI (sextN 6 i) 0 0 rd 0x13)
  | 3 =>
    if rd = 2 then
      let j := insF w 12 12 * 512 + insF w 6 6 * 16 + insF w 5 5 * 64 + insF w 4 3 * 128 + insF w 2 2 * 32
      if j = 0 then none else some (encI (sextN 10 j) 2 0 2 0x13)
    else if i = 0 then (if rd % 2 = 1 ∧ rd < 16 then some 0x13 else none)
    else some (sextN 6 i % 2 ^ 20 * 4096 + rd * 128 + 0x37)
  | 4 => expandArith w
  | 5 =>
    let j := insF w 12 12 * 2048 + insF w 11 11 * 16 + insF w 10 9 * 256 + insF w 8 8 * 1024 + insF w 7 7 * 64 + insF w 6 6 * 128 +
      insF w 5 3 * 2 + insF w 2 2 * 32
    some (encJ (sextN 12 j) 0)
  | 6 => some (encB (sextN 9 bo) 0 r1 0)
  | _ => some (encB (sextN 9 bo) 0 r1 1)

/-- Quadrant 2. -/
def expandC2 (w : Nat) : Option Nat :=
  let rd := insF w 11 7
  let rs2 := insF w 6 2
  let l4 := insF w 12 12 * 32 + insF w 6 4 * 4 + insF w 3 2 * 64
  let l8 := insF w 12 12 * 32 + insF w 6 5 * 8 + insF w 4 2 * 64
  let s4 := insF w 12 9 * 4 + insF w 8 7 * 64
  let s8 := insF w 12 10 * 8 + insF w 9 7 * 64
  match insF w 15 13 with
  | 0 => some (encI (insF w 12 12 * 32 + rs2) rd 1 rd 0x13)
  | 1 => some (encI l8 2 3 rd 0x07)
  | 2 => if rd = 0 then none else some (encI l4 2 2 rd 0x03)
  | 3 => if rd = 0 then none else some (encI l8 2 3 rd 0x03)
  | 4 =>
    if insF w 12 12 = 0 then
      if rs2 = 0 then (if rd = 0 then none else some (encI 0 rd 0 0 0x67)) else some (encR 0 rs2 0 0 rd 0x33)
    else if rs2 = 0 then (if rd = 0 then some 0x00100073 else some (encI 0 rd 0 1 0x67))
    else some (encR 0 rs2 rd 0 rd 0x33)
  | 5 => some (encS s8 rs2 2 3 0x27)
  | 6 => some (encS s4 rs2 2 2 0x23)
  | _ => some (encS s8 rs2 2 3 0x23)

/-- The instruction of a word and its length: 16 bits unless the low two bits are ones; none for a reserved compressed one. -/
def expandIns (w : BitVec 32) : Option (Nat × Nat) :=
  let h := w.toNat % 2 ^ 16
  match h % 4 with
  | 0 => (expandC0 h).map fun x => (x, 2)
  | 1 => (expandC1 h).map fun x => (x, 2)
  | 2 => (expandC2 h).map fun x => (x, 2)
  | _ => some (w.toNat, 4)

end Sys2Proof.Machine
end

