-- ==== Sys2Proof/Machine/CoreFp.lean ====
section
/-! DEFINITION. The floating-point instructions of the general cores as functions of their operands: F, D, Zfh and Zfa, with their flags (R26, R55, PRESUMED, assumption 45). -/

namespace Sys2Proof.Machine

/-- A result of a floating-point instruction: its value and the flags it raises, NV 16, DZ 8, OF 4, UF 2, NX 1. -/
structure FRes where
  v : Nat
  fl : Nat
  deriving DecidableEq, Repr

/-- The format of an fmt field: S, D, H; Q is absent. -/
def fmtOf : Nat → Option Fmt
  | 0 => some .b32
  | 1 => some .b64
  | 2 => some .b16
  | _ => none

/-- Whether a code is a NaN, and whether it is a signalling one. -/
def Fmt.isNan (f : Fmt) (c : Nat) : Bool := f.decode c == .nan
def Fmt.isSnan (f : Fmt) (c : Nat) : Bool := f.isNan c && c / 2 ^ (f.mbits - 1) % 2 == 0

/-- A register's value in a format: one that is not boxed reads as the canonical NaN. -/
def Fmt.unbox (f : Fmt) (x : Word) : Nat :=
  let w := f.width
  if x.toNat / 2 ^ w = 2 ^ (64 - w) - 1 then x.toNat % 2 ^ w else f.canonNan
def Fmt.box (f : Fmt) (v : Nat) : Word := BitVec.ofNat 64 (2 ^ 64 - 2 ^ f.width + v % 2 ^ f.width)

/-- NV for a signalling operand. -/
def snanFlag (f : Fmt) (cs : List Nat) : Nat := if cs.any f.isSnan then 16 else 0

/-- A finite non-zero magnitude `n / d · 2^e` rounded, with OF, UF (tininess after rounding) and NX. -/
def Fmt.roundFl (f : Fmt) (rm : Nat) (neg : Bool) (n d : Nat) (e : Int) : FRes :=
  let emin : Int := 1 - (f.bias : Int)
  let l := ilog2 n d e
  let (a, b) := scaleRat n d (e - (max l emin - f.mbits))
  let (a', b') := scaleRat n d (e - (l - f.mbits))
  let lu := if roundInt rm neg a' b' = 2 ^ (f.mbits + 1) then l + 1 else l
  let inexact := a % b ≠ 0
  let huge := (f.bias : Int) < lu
  let fl := (if huge then 4 else 0) + (if inexact ∧ lu < emin then 2 else 0) + (if inexact ∨ huge then 1 else 0)
  ⟨f.roundRat rm false neg n d e, fl⟩

/-- An exact value rounded, with its flags. -/
def Fmt.ofNum (f : Fmt) (rm : Nat) : Num → FRes
  | .fin neg m e => if m = 0 then ⟨f.sign neg, 0⟩ else f.roundFl rm neg m 1 e
  | x => ⟨f.round rm false x, 0⟩

/-- The flags with NV when an operation without NaN operands gives NaN. -/
def invalid (f : Fmt) (cs : List Nat) (r : FRes) : FRes :=
  let nv := cs.any f.isSnan || (f.isNan r.v && !cs.any f.isNan)
  ⟨r.v, if nv then Nat.lor r.fl 16 else r.fl⟩

def fAdd (f : Fmt) (rm a b : Nat) : FRes := invalid f [a, b] (f.ofNum rm (Num.add rm (f.decode a) (f.decode b)))
def fSub (f : Fmt) (rm a b : Nat) : FRes := invalid f [a, b] (f.ofNum rm (Num.add rm (f.decode a) (f.decode b).neg))
def fMul (f : Fmt) (rm a b : Nat) : FRes := invalid f [a, b] (f.ofNum rm ((f.decode a).mul (f.decode b)))

/-- The quotient; a finite number by zero raises DZ. -/
def fDiv (f : Fmt) (rm a b : Nat) : FRes :=
  match f.decode a, f.decode b with
  | .fin s m e, .fin t n g =>
    if n = 0 then (if m = 0 then ⟨f.canonNan, 16⟩ else ⟨f.round rm false (.inf (s != t)), 8⟩)
    else if m = 0 then ⟨f.sign (s != t), 0⟩
    else f.roundFl rm (s != t) m n (e - g)
  | x, y => invalid f [a, b] ⟨f.div rm x y, 0⟩

def fSqrt (f : Fmt) (rm a : Nat) : FRes :=
  match f.decode a with
  | .fin s m e =>
    if m = 0 then ⟨f.sign s, 0⟩
    else if s then ⟨f.canonNan, 16⟩
    else let (r, k) := sqrtSticky m 1 e; f.roundFl rm false r 1 k
  | x => invalid f [a] ⟨f.sqrt rm x, 0⟩

/-- The fused product and sum: NV for an infinity times zero even beside a quiet NaN. -/
def fMadd (f : Fmt) (rm : Nat) (negP negC : Bool) (a b c : Nat) : FRes :=
  let x := f.decode a; let y := f.decode b; let z := f.decode c
  let p := x.mul y
  let p := if negP then p.neg else p
  let r := invalid f [a, b, c] (f.ofNum rm (Num.add rm p (if negC then z.neg else z)))
  let bad := p == .nan && x != .nan && y != .nan
  ⟨r.v, if bad then Nat.lor r.fl 16 else r.fl⟩

/-- FSGNJ, FSGNJN, FSGNJX. -/
def fSgnj (f : Fmt) (k a b : Nat) : Nat :=
  let t := 2 ^ (f.width - 1)
  let s := b / t % 2
  let s := match k with
    | 0 => s
    | 1 => 1 - s
    | _ => (a / t + s) % 2
  s * t + a % t

/-- FMIN and FMAX take the number beside a NaN; FMINM and FMAXM take the NaN. -/
def fMinMax (f : Fmt) (isMax nan : Bool) (a b : Nat) : FRes :=
  let fl := snanFlag f [a, b]
  if f.isNan a || f.isNan b then
    ⟨if nan || (f.isNan a && f.isNan b) then f.canonNan else if f.isNan a then b else a, fl⟩
  else ⟨f.round 0 false (Num.minMax isMax (f.decode a) (f.decode b)), fl⟩

/-- FLE 0, FLT 1, FEQ 2; the quiet ones raise NV only for a signalling NaN. -/
def fCmp (f : Fmt) (k : Nat) (quiet : Bool) (a b : Nat) : FRes :=
  if f.isNan a || f.isNan b then ⟨0, if quiet then snanFlag f [a, b] else 16⟩
  else
    let c := Num.cmp (f.decode a) (f.decode b)
    ⟨if (k = 0 ∧ c ≠ .gt) ∨ (k = 1 ∧ c = .lt) ∨ (k = 2 ∧ c = .eq) then 1 else 0, 0⟩

/-- FCLASS. -/
def fClass (f : Fmt) (a : Nat) : Nat :=
  match f.decode a with
  | .nan => if f.isSnan a then 2 ^ 8 else 2 ^ 9
  | .inf s => if s then 1 else 2 ^ 7
  | .fin s m _ =>
    if m = 0 then (if s then 2 ^ 3 else 2 ^ 4)
    else if m < 2 ^ f.mbits then (if s then 2 ^ 2 else 2 ^ 5)
    else if s then 2 ^ 1 else 2 ^ 6

/-- A value converted to an integer of `w` bits: out of range saturates with NV. -/
def fToInt (f : Fmt) (rm w : Nat) (sgn : Bool) (a : Nat) : Int × Nat :=
  let lo : Int := if sgn then -(2 ^ (w - 1) : Int) else 0
  let hi : Int := if sgn then 2 ^ (w - 1) - 1 else 2 ^ w - 1
  match f.decode a with
  | .nan => (hi, 16)
  | .inf s => (if s then lo else hi, 16)
  | .fin s m e =>
    let (n, d) := scaleRat m 1 e
    let k : Int := (roundInt rm s n d : Nat)
    let v := if s then -k else k
    if v < lo then (lo, 16) else if hi < v then (hi, 16) else (v, if n % d = 0 then 0 else 1)

/-- FCVTMOD.W.D: toward zero, modulo 2^32. -/
def fModW (a : Nat) : Int × Nat :=
  match Fmt.b64.decode a with
  | .fin s m e =>
    let (n, d) := scaleRat m 1 e
    let k : Int := (n / d : Nat)
    let v := if s then -k else k
    ((BitVec.ofInt 32 v).toInt, if v < -(2 ^ 31) ∨ 2 ^ 31 - 1 < v then 16 else if n % d = 0 then 0 else 1)
  | _ => (0, 16)

/-- FROUND and FROUNDNX. -/
def fRound (f : Fmt) (rm : Nat) (nx : Bool) (a : Nat) : FRes :=
  match f.decode a with
  | .nan => ⟨f.canonNan, snanFlag f [a]⟩
  | x => let r := f.round 0 false (x.rint rm); ⟨r, if nx && f.decode r != x && Num.cmp (f.decode r) x != .eq then 1 else 0⟩

/-- A conversion between formats. -/
def fCvt (from_ to_ : Fmt) (rm a : Nat) : FRes :=
  if from_.isNan a then ⟨to_.canonNan, snanFlag from_ [a]⟩ else to_.ofNum rm (from_.decode a)

/-- The constants of FLI. -/
def fLi (f : Fmt) (i : Nat) : Nat :=
  let v : Nat → Int → Num := fun m e => .fin false m e
  match i with
  | 0 => f.round 0 false (.fin true 1 0)
  | 1 => 2 ^ f.mbits
  | 30 => f.round 0 false (.inf false)
  | 31 => f.canonNan
  | _ => f.round 0 false (([v 1 (-16), v 1 (-15), v 1 (-8), v 1 (-7), v 1 (-4), v 1 (-3), v 1 (-2), v 5 (-4), v 3 (-3), v 7 (-4),
      v 1 (-1), v 5 (-3), v 3 (-2), v 7 (-3), v 1 0, v 5 (-2), v 3 (-1), v 7 (-2), v 1 1, v 5 (-1), v 3 0, v 1 2, v 1 3, v 1 4,
      v 1 7, v 1 8, v 1 15, v 1 16]).getD (i - 2) (v 1 0))

/-- What an instruction of opcode OP-FP writes: an integer register, a floating-point register, and the flags. -/
inductive FOut where
  | x (v : Word) (fl : Nat)
  | f (v : Word) (fl : Nat)
  deriving DecidableEq, Repr

/-- The rounding mode of an instruction: its own, or that of fcsr; none when it is reserved. -/
def rmOf (rm frm : Nat) : Option Nat := let r := if rm = 7 then frm else rm; if r ≤ 4 then some r else none

/-- OP-FP: fields of the instruction, the operands' registers, frm; none for an instruction that is not listed. -/
def opFp (w : Nat) (fa fb xa : Word) (frm : Nat) : Option FOut :=
  let rs2 := insF w 24 20
  let rm := insF w 14 12
  match fmtOf (insF w 26 25) with
  | none => none
  | some f =>
    let a := f.unbox fa
    let b := f.unbox fb
    let toF := fun (r : FRes) => FOut.f (f.box r.v) r.fl
    let rnd := fun (g : Nat → FRes) => (rmOf rm frm).map fun r => toF (g r)
    match insF w 31 27 with
    | 0x00 => rnd fun r => fAdd f r a b
    | 0x01 => rnd fun r => fSub f r a b
    | 0x02 => rnd fun r => fMul f r a b
    | 0x03 => rnd fun r => fDiv f r a b
    | 0x0B => if rs2 = 0 then rnd fun r => fSqrt f r a else none
    | 0x04 => if rm ≤ 2 then some (.f (f.box (fSgnj f rm a b)) 0) else none
    | 0x05 =>
      match rm with
      | 0 => some (toF (fMinMax f false false a b))
      | 1 => some (toF (fMinMax f true false a b))
      | 2 => some (toF (fMinMax f false true a b))
      | 3 => some (toF (fMinMax f true true a b))
      | _ => none
    | 0x08 =>
      match rs2 with
      | 4 => rnd fun r => fRound f r false a
      | 5 => rnd fun r => fRound f r true a
      | _ =>
        match fmtOf rs2 with
        | some g => if g = f then none else rnd fun r => fCvt g f r (g.unbox fa)
        | none => none
    | 0x14 =>
      match rm with
      | 0 => let r := fCmp f 0 false a b; some (.x (BitVec.ofNat 64 r.v) r.fl)
      | 1 => let r := fCmp f 1 false a b; some (.x (BitVec.ofNat 64 r.v) r.fl)
      | 2 => let r := fCmp f 2 true a b; some (.x (BitVec.ofNat 64 r.v) r.fl)
      | 4 => let r := fCmp f 0 true a b; some (.x (BitVec.ofNat 64 r.v) r.fl)
      | 5 => let r := fCmp f 1 true a b; some (.x (BitVec.ofNat 64 r.v) r.fl)
      | _ => none
    | 0x18 =>
      let int := fun (w : Nat) (sgn : Bool) => (rmOf rm frm).map fun r =>
        let (v, fl) := fToInt f r w sgn a
        FOut.x (if w = 32 then (BitVec.ofInt 32 v).signExtend 64 else wordOf v) fl
      match rs2 with
      | 0 => int 32 true
      | 1 => int 32 false
      | 2 => int 64 true
      | 3 => int 64 false
      | 8 => if f = .b64 ∧ rm = 1 then let (v, fl) := fModW a; some (.x (wordOf v) fl) else none
      | _ => none
    | 0x1A =>
      let of := fun (v : Int) => rnd fun r => f.ofNum r (Num.ofInt v)
      match rs2 with
      | 0 => of (xa.setWidth 32).toInt
      | 1 => of ((xa.setWidth 32).toNat : Int)
      | 2 => of xa.toInt
      | 3 => of (xa.toNat : Int)
      | _ => none
    | 0x1C =>
      if rs2 ≠ 0 then none
      else match rm with
        | 0 => some (.x ((BitVec.ofNat f.width fa.toNat).signExtend 64) 0)
        | 1 => some (.x (BitVec.ofNat 64 (fClass f a)) 0)
        | _ => none
    | 0x1E =>
      if rm ≠ 0 then none
      else match rs2 with
        | 0 => some (.f (f.box xa.toNat) 0)
        | 1 => some (.f (f.box (fLi f (insF w 19 15))) 0)
        | _ => none
    | _ => none

/-- FMADD, FMSUB, FNMSUB, FNMADD. -/
def opFma (w : Nat) (fa fb fc : Word) (frm : Nat) : Option FOut :=
  match fmtOf (insF w 26 25), rmOf (insF w 14 12) frm with
  | some f, some r =>
    let op := insF w 3 2
    let x := fMadd f r (decide (2 ≤ op)) (op == 1 || op == 3) (f.unbox fa) (f.unbox fb) (f.unbox fc)
    some (.f (f.box x.v) x.fl)
  | _, _ => none

end Sys2Proof.Machine
end

