-- ==== Sys2Proof/Machine/CoreOps.lean ====
section
/-! DEFINITION. The shared operations of the general cores: registers, lines in an L2, memory accesses, exceptions (R26–R30, R289–R296, R302, R488). (DESIGN CHOICE, assumption 47) -/

namespace Sys2Proof.Machine

/-! ### A core and its registers -/

def Dev.core? (d : Dev) (c : Nat) : Option Core := d.cores.cores.find? (·.id == c)
def Dev.coreTask? (d : Dev) (c : Nat) : Option CoreTask := (d.core? c).bind (·.task)

/-- The device with a core changed. -/
def Dev.updCore (d : Dev) (c : Nat) (f : Core → Core) : Dev :=
  { d with cores := { d.cores with cores := updWhere (·.id == c) f d.cores.cores } }

/-- An integer register: x0 reads zero and discards writes (R26). -/
def Core.xr (k : Core) (n : Nat) : Word := if n = 0 then 0 else sget (fun _ => 0) k.x n
def Core.setX (k : Core) (n : Nat) (v : Word) : Core := if n = 0 then k else { k with x := sput (fun _ => 0) k.x n v }

/-- A floating-point and a vector register. -/
def Core.fr (k : Core) (n : Nat) : Word := sget (fun _ => 0) k.f n
def Core.setF (k : Core) (n : Nat) (v : Word) : Core := { k with f := sput (fun _ => 0) k.f n v }
def Core.vr (k : Core) (n : Nat) : BitVec 256 := sget (fun _ => 0) k.v n
def Core.setV (k : Core) (n : Nat) (v : BitVec 256) : Core := { k with v := sput (fun _ => 0) k.v n v }

/-- An instruction of a length in bytes retires: the program counter goes to the next one (R28). -/
def Core.retire (k : Core) (len : Nat) : Core := { k with pc := k.pc + BitVec.ofNat 64 len, instret := k.instret + 1 }

/-- The logical number behind a physical core, in the coding of CORE (Table 12.4, Table 17.11). -/
def Dev.logicalCore (d : Dev) (c : Nat) : Nat :=
  let die := cacheDie c
  32 * die + (((List.range 32).find? fun n => d.physCore die n == some (cacheCore c)).getD (cacheCore c))

/-- An exception in user mode other than an ECALL ends the core task ABORTED with CAUSE 0, and a CONTAINED event is recorded (R488). (DESIGN CHOICE, assumption 36) -/
def Dev.coreExc (d : Dev) (c cause : Nat) (tval : Word) : Dev :=
  match d.core? c with
  | none => d
  | some k =>
    if k.task.isNone then d
    else (d.event 12 2 6 (d.logicalCore c) cause k.pc.toNat tval.toNat).endTask c .aborted

/-! ### Lines in an L2 (R294, R295, R300) -/

/-- A core's L2 asks for a line: from the system cache of its die when that holds it, else from the home (R295). -/
def Dev.askLine (d : Dev) (c l : Nat) (own : Bool) : Dev :=
  if !d.mayAsk c l then d
  else match d.cline? c l with
    | some x => if own && x.st == .s then d.homeRequest l (.upgrade c) else d
    | none =>
      if d.setFull c l then d
      else if (d.cline? (66 + cacheDie c) l).isSome then d.moveLine c l
      else d.homeRequest l (if own then .rdOwn c else .rdShared c)

/-- Whether an L2 holds a line, owned where that is needed. -/
def Dev.hasLine (d : Dev) (c l : Nat) (own : Bool) : Bool := (d.cline? c l).any fun x => !own || x.st != .s

/-- The lines that an access needs, asked for where they are missing; true when the L2 holds them all. -/
def Dev.needLines (d : Dev) (c : Nat) (own : Bool) (ls : List Nat) : Dev × Bool :=
  let d := ls.foldl (fun d l => if d.hasLine c l own then d else d.askLine c l own) d
  (d, ls.all fun l => d.hasLine c l own)

/-- A byte of a line that an L2 holds, with its mark. -/
def Dev.cacheByte (d : Dev) (c a : Nat) : Byte × Bool :=
  match d.cline? c (a / 64) with
  | some x => (lineByte x.data (a % 64), x.poisoned)
  | none => (0, false)

/-- Bytes stored in lines that an L2 owns; a write of a whole line clears its mark (R290). -/
def Dev.cachePut (d : Dev) (c : Nat) (bs : List (Nat × Byte)) : Dev :=
  let ls := (bs.map (·.1 / 64)).eraseDups
  ls.foldl (fun d l =>
    match d.cline? c l with
    | none => d
    | some x =>
      let mine := bs.filter (·.1 / 64 == l)
      let data := lineOf ((List.range 64).map fun i => (mine.find? (·.1 % 64 == i)).elim (lineByte x.data i) (·.2))
      let whole := (List.range 64).all fun i => mine.any (·.1 % 64 == i)
      d.putLine { x with st := .m, data := data, poisoned := x.poisoned && !whole }) d

/-! ### Memory accesses (R27, R289, R290, R302) -/

/-- What arrived for an instruction that waits: a status that ends its access, and the data that came from outside the pool. -/
abbrev CoreResp := Option (Option Status × Word)

/-- What a memory access of a core comes to. -/
inductive CoreMem (α : Type) where
  | ok (v : α) (d : Dev)
  | waits (d : Dev)
  | ends (st : Status) (d : Dev)

/-- The physical addresses of a range's bytes, the lower page first (R27). -/
def Dev.corePas (d : Dev) (tag : Nat) (acc : Access) : List Nat → Except Xlate (List Nat)
  | [] => .ok []
  | va :: r =>
    match d.xlate tag va acc with
    | .pa a =>
      match d.corePas tag acc r with
      | .ok l => .ok (a :: l)
      | .error e => .error e
    | x => .error x

/-- The virtual addresses of `n` bytes. -/
def vaRange (va n : Nat) : List Nat := (List.range n).map fun i => (va + i) % 2 ^ 64

/-- The runs of consecutive addresses of a list: first address and length. -/
def addrRuns : List Nat → List (Nat × Nat)
  | [] => []
  | a :: r =>
    match addrRuns r with
    | (b, n) :: t => if b = a + 1 then (a, n + 1) :: t else (a, 1) :: (b, n) :: t
    | [] => [(a, 1)]

/-- Requests for bytes outside the pool (R343, R411). -/
def Dev.coreAsk (d : Dev) (c tag : Nat) (as : List Nat) : Dev :=
  (addrRuns as).foldl (fun d r =>
    if 2 ^ 63 ≤ r.1 then (d.remote tag 2 none r.1 r.2 [] 0).getD d
    else match d.hostAddr r.1 with
      | some p => d.askHost p r.2 none (some c)
      | none => d) d

/-- The bytes that a translated access reads: from lines of the L2, or as they came from outside; outside bytes beyond the eighth are free values. -/
def Dev.coreBytes (d : Dev) (c : Nat) (ext : Word) : List Nat → Nat → List (Byte × Bool) × Dev
  | [], _ => ([], d)
  | a :: r, k =>
    if inPool a then
      let (l, d') := d.coreBytes c ext r k
      (d.cacheByte c a :: l, d')
    else
      let (w, d1) := if k < 8 then (ext >>> (8 * k), d) else d.free
      let (l, d2) := d1.coreBytes c ext r (k + 1)
      ((BitVec.ofNat 8 w.toNat, false) :: l, d2)

/-- A load: it waits for lines that its L2 lacks and for data from outside; a poisoned line ends the task (R290, R302). -/
def Dev.coreRead (d : Dev) (c tag : Nat) (acc : Access) (own : Bool) (vas : List Nat) (resp : CoreResp) : CoreMem (List Byte) :=
  let err := resp.bind (·.1)
  match d.corePas tag acc vas with
  | .error (.ended st) => .ends st d
  | .error _ => match err with
    | some st => .ends st d
    | none => .waits d
  | .ok as =>
    let out := as.filter fun a => !inPool a
    let stop := out.findSome? (d.outsideStop tag)
    match stop.orElse fun _ => if out.isEmpty then none else err with
    | some st => .ends st d
    | none =>
      let (d, have_) := d.needLines c own ((as.filter inPool).map (· / 64)).eraseDups
      if resp.isNone && !out.isEmpty then .waits (d.coreAsk c tag out)
      else if !have_ then .waits d
      else
        let (bs, d') := d.coreBytes c ((resp.map (·.2)).getD 0) as 0
        if bs.any (·.2) then .ends .poisonConsumed d else .ok (bs.map (·.1)) d'

/-- Bytes stored outside the pool: writes to the host or to another module (R343, R411). -/
def Dev.coreOut (d : Dev) (tag : Nat) (bs : List (Nat × Byte)) : Dev × Option Status :=
  (addrRuns (bs.map (·.1))).foldl (fun (p : Dev × Option Status) r =>
    let part := (bs.filter fun b => decide (r.1 ≤ b.1) && decide (b.1 < r.1 + r.2)).map (·.2)
    match p.2 with
    | some _ => p
    | none =>
      if 2 ^ 63 ≤ r.1 then
        match p.1.remote tag 1 none r.1 r.2 part 0 with
        | some d => (d, none)
        | none => (p.1, some .rights)
      else match p.1.hostWrite r.1 part 0 with
        | (d, .ok) => (d, none)
        | (_, st) => (p.1, some st)) (d, none)

/-- A store: it waits for the ownership of its lines (R294). -/
def Dev.coreWrite (d : Dev) (c tag : Nat) (bs : List (Nat × Byte)) (resp : CoreResp) : CoreMem Unit :=
  match d.corePas tag .write (bs.map (·.1)) with
  | .error (.ended st) => .ends st d
  | .error _ => match resp.bind (·.1) with
    | some st => .ends st d
    | none => .waits d
  | .ok as =>
    let (d, have_) := d.needLines c true ((as.filter inPool).map (· / 64)).eraseDups
    if !have_ then .waits d
    else
      let ps := as.zip (bs.map (·.2))
      match d.coreOut tag (ps.filter fun p => !inPool p.1) with
      | (d, some st) => .ends st d
      | (d, none) => .ok () (d.cachePut c (ps.filter fun p => inPool p.1))

/-! ### Atomics (R294, Table 14.4) -/

/-- FUNC of Table 6.4 for an AMO's funct5; none for LR, SC and codes that are not listed. -/
def amoFunc : Nat → Option Nat
  | 0x00 => some 0 | 0x01 => some 9 | 0x04 => some 8 | 0x05 => some 10 | 0x08 => some 7 | 0x0C => some 6
  | 0x10 => some 2 | 0x14 => some 3 | 0x18 => some 4 | 0x1C => some 5
  | _ => none

/-- The value that an AMO of `n` bytes leaves. -/
def amoResult (func n old a b : Nat) : Nat :=
  let w := 8 * n
  let less := decide (signedOf w old < signedOf w a)
  match func with
  | 0 => (old + a) % 2 ^ w
  | 2 => if less then old else a
  | 3 => if less then a else old
  | 4 => min old a
  | 5 => max old a
  | 6 => Nat.land old a
  | 7 => Nat.lor old a
  | 8 => Nat.xor old a
  | 9 => a
  | _ => if old = a then b else old

/-- An atomic of a core: in its L2 after it owns the line, or sent to the host or another module (R294, R387, Table 14.4). For a compare-and-swap `a` is the compared and `b` the new value. -/
def Dev.coreAmo (d : Dev) (c tag func n va a b : Nat) (resp : CoreResp) : CoreMem Nat :=
  let err := resp.bind (·.1)
  match d.xlate tag va .atomic with
  | .ended st => .ends st d
  | .waits => match err with
    | some st => .ends st d
    | none => .waits d
  | .pa pa =>
    if inPool pa then
      let (d, have_) := d.needLines c true [pa / 64]
      if !have_ then .waits d
      else
        let old := leNat ((List.range n).map fun i => (d.cacheByte c (pa + i)).1)
        if (d.cacheByte c pa).2 then .ends .poisonConsumed d
        else .ok old (d.cachePut c (((List.range n).map (pa + ·)).zip (leBytes n (amoResult func n old a b))))
    else
      let stop := if n = 4 ∨ n = 8 then d.atomStop tag pa func (n == 8) else some .rights
      match stop.orElse fun _ => err with
      | some st => .ends st d
      | none =>
        match resp with
        | none => .waits (d.askAtom tag pa func (n == 8) (some c) a b)
        | some (_, ext) => .ok (ext.toNat % 2 ^ (8 * n)) d

/-- LR: the line is owned, read and reserved (R294). -/
def Dev.coreLr (d : Dev) (c tag n va : Nat) (resp : CoreResp) : CoreMem Nat :=
  match d.xlate tag va .atomic with
  | .ended st => .ends st d
  | .waits => match resp.bind (·.1) with
    | some st => .ends st d
    | none => .waits d
  | .pa pa =>
    if !inPool pa then .ends .rights d
    else
      let (d, have_) := d.needLines c true [pa / 64]
      if !have_ then .waits d
      else if (d.cacheByte c pa).2 then .ends .poisonConsumed d
      else .ok (leNat ((List.range n).map fun i => (d.cacheByte c (pa + i)).1)) (d.updCore c fun k => { k with resv := some (pa / 64) })

/-- SC: the store is performed when the reservation holds its line; the reservation ends; the answer is 0 when it stored (R294). -/
def Dev.coreSc (d : Dev) (c tag n va v : Nat) (resp : CoreResp) : CoreMem Nat :=
  match d.xlate tag va .atomic with
  | .ended st => .ends st d
  | .waits => match resp.bind (·.1) with
    | some st => .ends st d
    | none => .waits d
  | .pa pa =>
    if !inPool pa then .ends .rights d
    else
      let holds := (d.core? c).any (fun k => k.resv == some (pa / 64)) && d.hasLine c (pa / 64) true
      let d := d.updCore c fun k => { k with resv := none }
      if holds then .ok 0 (d.cachePut c (((List.range n).map (pa + ·)).zip (leBytes n v))) else .ok 1 d

/-! ### Cache-block operations (R296) -/

/-- CBO.CLEAN, CBO.FLUSH and CBO.INVAL of the line of a virtual address: true when the request has gone to the home, or there is nothing to ask. -/
def Dev.coreCbo (d : Dev) (c tag va : Nat) (flush : Bool) (resp : CoreResp) : CoreMem Unit :=
  match d.xlate tag va .read with
  | .ended st => .ends st d
  | .waits => match resp.bind (·.1) with
    | some st => .ends st d
    | none => .waits d
  | .pa pa =>
    if !inPool pa then .ok () d
    else if d.mayAsk c (pa / 64) then .ok () (d.homeRequest (pa / 64) (if flush then .flush c else .clean c))
    else .waits d

/-- CBO.ZERO: the line is owned without being read, and zeros are written to it (R296). -/
def Dev.coreZero (d : Dev) (c tag va : Nat) (resp : CoreResp) : CoreMem Unit :=
  d.coreWrite c tag ((vaRange (va / 64 * 64) 64).map fun a => (a, 0)) resp

end Sys2Proof.Machine
end

