-- ==== Sys2Proof/Machine/CoreVec.lean ====
section
/-! DEFINITION. The vector state of the general cores: the configuration instructions, the elements that a vector load or store names, and which registers an arithmetic instruction writes; VLEN 256, ELEN 64 (R26, R27, PRESUMED, assumption 46). -/

namespace Sys2Proof.Machine

/-- LMUL in eighths of a vtype; 0 when it is reserved. -/
def lmul8 (vtype : Word) : Nat :=
  match vtype.toNat % 8 with
  | 0 => 8 | 1 => 16 | 2 => 32 | 3 => 64 | 5 => 1 | 6 => 2 | 7 => 4
  | _ => 0

/-- SEW in bits of a vtype. -/
def sewOf (vtype : Word) : Nat := 8 * 2 ^ (vtype.toNat / 8 % 8)

/-- Whether a vtype is legal with ELEN 64. -/
def vtypeOk (v : Word) : Bool :=
  decide (v.toNat < 256) && decide (0 < lmul8 v) && decide (sewOf v ≤ 8 * min 8 (lmul8 v))

/-- VLMAX of a legal vtype with VLEN 256 (R27). -/
def vlmax (v : Word) : Nat := 256 * lmul8 v / 8 / sewOf v

/-- The configuration after a request for an application vector length; an illegal vtype sets vill and vl 0. -/
def Core.vset (k : Core) (vtype : Word) (avl : Nat) : Core :=
  if vtypeOk vtype then { k with vtype := vtype, vl := BitVec.ofNat 64 (min avl (vlmax vtype)), vstart := 0 }
  else { k with vtype := 0x8000000000000000, vl := 0, vstart := 0 }

/-- VSETVLI, VSETIVLI and VSETVL. -/
def Core.vsetIns (k : Core) (w : Nat) : Option Core :=
  let rd := insF w 11 7
  let rs1 := insF w 19 15
  let avl := fun (vt : Word) => if rs1 ≠ 0 then (k.xr rs1).toNat else if rd ≠ 0 then vlmax vt else k.vl.toNat
  let fin := fun (k : Core) => k.setX rd k.vl
  if insF w 31 31 = 0 then let vt : Word := BitVec.ofNat 64 (insF w 30 20); some (fin (k.vset vt (avl vt)))
  else if insF w 31 30 = 3 then some (fin (k.vset (BitVec.ofNat 64 (insF w 29 20)) rs1))
  else if insF w 31 25 = 0x40 then let vt := k.xr (insF w 24 20); some (fin (k.vset vt (avl vt)))
  else none

/-- Whether the configuration allows vector instructions. -/
def Core.vOk (k : Core) : Bool := vtypeOk k.vtype

/-- Bytes of a group of vector registers from register `v` on. -/
def Core.vByte (k : Core) (v off : Nat) : Byte := BitVec.ofNat 8 ((k.vr (v + off / 32)).toNat / 2 ^ (8 * (off % 32)))
def Core.vNat (k : Core) (v off n : Nat) : Nat := leNat ((List.range n).map fun i => k.vByte v (off + i))
def Core.vPut (k : Core) (v off : Nat) (b : Byte) : Core :=
  let r := v + off / 32
  let s := 8 * (off % 32)
  let x := (k.vr r).toNat
  k.setV r (BitVec.ofNat 256 (x - x / 2 ^ s % 256 * 2 ^ s + b.toNat * 2 ^ s))

/-- An element that a vector load or store moves: first register, byte offset in the group, virtual address. -/
structure VElem where
  reg : Nat
  off : Nat
  va : Nat
  deriving DecidableEq, Repr

/-- The elements of a vector load or store, their size in bytes; none for an instruction that is not listed or not legal now. -/
def Core.vElems (k : Core) (w : Nat) : Option (Nat × List VElem) :=
  let vd := insF w 11 7
  let base := (k.xr (insF w 19 15)).toNat
  let nf := insF w 31 29
  let vm := insF w 25 25
  let rs2 := insF w 24 20
  let eew := match insF w 14 12 with
    | 0 => 8 | 5 => 16 | 6 => 32 | 7 => 64
    | _ => 0
  let at_ := fun (a : Nat) => a % 2 ^ 64
  let sew := sewOf k.vtype
  let lm := lmul8 k.vtype
  let live := fun (i : Nat) => vm == 1 || (k.vr 0).getLsbD i
  let idx := (List.range (k.vl.toNat - k.vstart.toNat)).map (k.vstart.toNat + ·)
  let group := fun (bytes emul8 : Nat) (addr : Nat → Nat) =>
    let regs := max 1 (emul8 / 8)
    if emul8 = 0 ∨ 64 < emul8 ∨ 8 < regs * (nf + 1) ∨ vd % regs ≠ 0 ∨ 32 < vd + regs * (nf + 1) then none
    else some (bytes, (idx.filter live).flatMap fun i => (List.range (nf + 1)).map fun s =>
      (⟨vd + s * regs, i * bytes, at_ (addr i + s * bytes)⟩ : VElem))
  if insF w 28 28 = 1 ∨ eew = 0 then none
  else match insF w 27 26 with
    | 0 =>
      if rs2 = 8 then
        if vm = 0 ∨ !([0, 1, 3, 7].contains nf) ∨ vd % (nf + 1) ≠ 0 then none
        else some (1, (List.range ((nf + 1) * 32)).map fun i => ⟨vd, i, at_ (base + i)⟩)
      else if rs2 = 0x0B then
        if eew ≠ 8 ∨ nf ≠ 0 ∨ vm = 0 ∨ !k.vOk then none
        else some (1, (List.range ((k.vl.toNat + 7) / 8)).map fun i => ⟨vd, i, at_ (base + i)⟩)
      else if (rs2 = 0 ∨ rs2 = 0x10) ∧ k.vOk then group (eew / 8) (if eew * lm % sew = 0 then eew * lm / sew else 0) fun i => base + i * (nf + 1) * (eew / 8)
      else none
    | 2 =>
      if !k.vOk then none
      else group (eew / 8) (if eew * lm % sew = 0 then eew * lm / sew else 0) fun i => base + i * (k.xr rs2).toNat
    | _ =>
      let im := eew * lm / sew
      if !k.vOk ∨ eew * lm % sew ≠ 0 ∨ 64 < im then none
      else group (sew / 8) lm fun i => base + k.vNat rs2 (i * (eew / 8)) (eew / 8)

/-- The registers that a vector arithmetic instruction may write: 0 an integer register, 1 a floating-point register, 2 this many vector registers from vd on. -/
def vDest (w lm : Nat) : Nat × Nat :=
  let f6 := insF w 31 26
  let f3 := insF w 14 12
  let vs1 := insF w 19 15
  let one := max 1 (lm / 8)
  let two := max 1 (lm / 4)
  let opi := f3 == 0 || f3 == 3 || f3 == 4
  let opm := f3 == 2 || f3 == 6
  if f3 = 2 ∧ f6 = 0x10 then (0, 0)
  else if f3 = 1 ∧ f6 = 0x10 then (1, 0)
  else if (f3 = 6 ∨ f3 = 5) ∧ f6 = 0x10 then (2, 1)
  else if f3 = 3 ∧ f6 = 0x27 then (2, vs1 % 8 + 1)
  else if opi then (2, if 0x18 ≤ f6 ∧ f6 ≤ 0x1F ∨ f6 = 0x11 ∨ f6 = 0x13 ∨ f6 = 0x30 ∨ f6 = 0x31 then 1 else if f6 = 0x35 then two else one)
  else if opm then
    (2, if (f3 = 2 ∧ f6 < 8) ∨ (0x18 ≤ f6 ∧ f6 ≤ 0x1F) ∨ (f6 = 0x14 ∧ vs1 < 4) then 1 else if 0x30 ≤ f6 then two else one)
  else
    (2, if (0x18 ≤ f6 ∧ f6 ≤ 0x1F) ∨ (f3 = 1 ∧ (f6 = 1 ∨ f6 = 3 ∨ f6 = 5 ∨ f6 = 7 ∨ f6 = 0x31 ∨ f6 = 0x33)) then 1
        else if 0x30 ≤ f6 ∨ (f6 = 0x12 ∧ 8 ≤ vs1 ∧ vs1 < 16) then two else one)

/-- A free 256-bit value. -/
def Dev.freeV (d : Dev) : BitVec 256 × Dev := (Config.freeLine d.fresh, { d with fresh := d.fresh + 1 })

/-- A vector arithmetic instruction: this manual states no result of it, so what it writes, and the flags it may raise, are free values (PRESUMED, assumption 46). -/
def Dev.vArith (d : Dev) (k : Core) (w : Nat) : Option (Core × Dev) :=
  let rd := insF w 11 7
  let whole := insF w 14 12 = 3 ∧ insF w 31 26 = 0x27
  if !k.vOk ∧ !whole then none
  else
    let (x, d) := d.free
    let (y, d) := d.free
    let k := { k with fcsr := if insF w 14 12 = 1 ∨ insF w 14 12 = 5 then k.fcsr ||| BitVec.ofNat 8 (y.toNat % 32) else k.fcsr
                      vcsr := k.vcsr ||| BitVec.ofNat 3 (y.toNat / 32 % 2), vstart := 0 }
    match vDest w (lmul8 k.vtype) with
    | (0, _) => some (k.setX rd x, d)
    | (1, _) => some (k.setF rd x, d)
    | (_, n) =>
      if 32 < rd + n then none
      else some ((List.range n).foldl (fun (p : Core × Dev) i => let (v, d) := p.2.freeV; (p.1.setV (rd + i) v, d)) (k, d))

end Sys2Proof.Machine
end

