-- ==== Sys2Proof/Machine/Cores.lean ====
section
/-! DEFINITION. The general cores: core tasks, front-end calls, exceptions, cache-block operations, instructions and the memory they wait for (R26–R30, R290, R294–R296, R302, R357, R368, R488). -/

namespace Sys2Proof.Machine

/-- A core in a task, whose L2 is in service. -/
def Dev.busyCore (d : Dev) (c : Nat) : Option (Core × CoreTask) :=
  match d.core? c with
  | none => none
  | some k => if d.cacheLives c then k.task.map fun t => (k, t) else none

/-! ### Core tasks (R28, R357, R487) -/

/-- What a core holds when a task begins: the program counter, a0 and the stack pointer of the entry; the registers that the manual does not name are free values; cycle and instret are 0 (R28, Table 12.4). -/
def Dev.taskCore (d : Dev) (c : Nat) (o : FeOp) : Core × Dev :=
  let n := d.fresh
  let e := fun off => BitVec.ofNat 64 (entF o.entry off 8)
  let x := (List.range 32).foldl (fun s i => if i = 0 then s else sput (fun _ => 0) s i (Config.freeWord (n + i))) ([] : Sparse Word)
  let f := (List.range 32).foldl (fun s i => sput (fun _ => 0) s i (Config.freeWord (n + 32 + i))) ([] : Sparse Word)
  let v := (List.range 32).foldl (fun s i => sput (fun _ => 0) s i (Config.freeLine (n + 64 + i))) ([] : Sparse (BitVec 256))
  let w := (Config.freeWord (n + 96)).toNat
  let k : Core := { id := c, x := x, f := f, v := v, pc := e 32, fcsr := BitVec.ofNat 8 w, vcsr := BitVec.ofNat 3 (w / 256),
                    task := some ⟨o.id, o.tag⟩ }
  let k := k.vset (BitVec.ofNat 64 (w / 2 ^ 16 % 256)) (w / 2 ^ 24 % 2048)
  ((k.setX 10 (e 40)).setX 2 (e 48), { d with fresh := n + 97 })

/-- CORE_TASK: a task begins on the core that its CORE names, or, for 0xFF, on the one that is picked; it waits while that core is not free (R357, R368, R452, R487). (DESIGN CHOICE, assumption 48) -/
def execCoreTask (op : Nat) (pick : Nat) : State → Out := run fun d =>
  match d.ready? op 0x06 with
  | none => d
  | some o =>
    let named := entF o.entry 56 1
    let n := if named = 0xFF then pick else named
    if 63 < n then d
    else match d.physCore (n / 32) (n % 32) with
      | none => if named = 0xFF then d else d.conclude op .resourceLost
      | some p =>
        let c := 33 * (n / 32) + p
        if n / 32 = 1 ∧ d.engineAway 18 then (if named = 0xFF then d else d.conclude op .targetReset)
        else if !(cacheAgent c).any (fun a => d.agentState a == 0) ∨ (d.coreTask? c).isSome then d
        else
          let (k, d) := d.taskCore c { o with unit := c }
          let d := d.updOp op fun o => { o with unit := c }
          ({ d with cores := { d.cores with cores := (d.cores.cores.filter fun (x : Core) => x.id != c) ++ [k] } }).begin op

/-- CORE_TASK_RETURN: a core task returns from its entry function and ends OK with EXIT 0 (R368). -/
def execCoreTaskReturn (core : Nat) : State → Out := run fun d =>
  match d.busyCore core with
  | some (k, _) => if k.held.isNone then d.endTask core .ok 0 else d
  | none => d

/-! ### Calls of the front end (R29, R367, R368, Table 12.7) -/

/-- The call has been answered: a0 holds the status, and the program goes on behind the ECALL. -/
def Dev.ecallAnswer (d : Dev) (c : Nat) (st : Status) : Dev :=
  d.updCore c fun k => { k.setX 10 (BitVec.ofNat 64 (statusCode st)) with pc := k.pc + 4 }

/-- ECALL 0x100: 128 bytes at a0 appended to the device-owned queue of a1. -/
def Dev.ecallEnq (d : Dev) (c : Nat) (k : Core) (t : CoreTask) : Dev :=
  match d.vgather t.tag (k.xr 10).toNat 128 with
  | .ok (d, bs) =>
    if bs.any (·.2) then d.endTask c .poisonConsumed
    else let (d, st) := d.enqueue t.tag (k.xr 11).toNat t.op (bs.map (·.1)); d.ecallAnswer c st
  | .error (.ended st) => d.endTask c st
  | .error _ => d

/-- ECALL 0x101: a fence signalled as the program of its queue, or the signal discarded (R361). -/
def Dev.ecallFsig (d : Dev) (c : Nat) (k : Core) (t : CoreTask) : Dev :=
  (d.fsig t.tag ((d.op? t.op).elim 0 (·.qid)) (k.xr 10).toNat (k.xr 11)).ecallAnswer c .ok

/-- What an ECALL does by the number in a7. -/
def Dev.ecall (d : Dev) (c : Nat) (k : Core) (t : CoreTask) : Dev :=
  match (k.xr 17).toNat with
  | 0x100 => d.ecallEnq c k t
  | 0x101 => d.ecallFsig c k t
  | 0x102 => d.endTask c .ok ((k.xr 10).setWidth 32)
  | _ => d.endTask c .notPermitted

/-- An ECALL of a core whose number satisfies `p`. -/
def Dev.ecallIf (d : Dev) (c : Nat) (p : Nat → Bool) : Dev :=
  match d.busyCore c with
  | some (k, t) => if k.held.isNone && p (k.xr 17).toNat then d.ecall c k t else d
  | none => d

/-- ECALL_ENQ. -/
def execEcallEnq (core : Nat) : State → Out := run fun d => d.ecallIf core (· == 0x100)

/-- ECALL_FSIG. -/
def execEcallFsig (core : Nat) : State → Out := run fun d => d.ecallIf core (· == 0x101)

/-- ECALL_EXIT. -/
def execEcallExit (core : Nat) : State → Out := run fun d => d.ecallIf core (· == 0x102)

/-- ECALL_OTHER. -/
def execEcallOther (core : Nat) : State → Out := run fun d => d.ecallIf core fun n => n != 0x100 && n != 0x101 && n != 0x102

/-- CORE_EXCEPTION: an exception in user mode other than an ECALL (R488). -/
def execCoreException (core : Nat) (cause : Nat) (tval : Word) : State → Out := run fun d =>
  match d.busyCore core with
  | some _ => d.coreExc core cause tval
  | none => d

/-! ### Instructions -/

/-- What an instruction of a core comes to. -/
inductive CoreEnd where
  | next (f : Core → Core) (d : Dev)
  | goto (pc : Word) (f : Core → Core) (d : Dev)
  | wait (d : Dev)
  | ends (st : Status) (d : Dev)
  | exc (cause : Nat) (tval : Word) (d : Dev)
  | call (d : Dev)

/-- What a memory access comes to, with what is done with its value. -/
def CoreMem.andThen {α : Type} (m : CoreMem α) (f : α → Core → Core) : CoreEnd :=
  match m with
  | .ok v d => .next (f v) d
  | .waits d => .wait d
  | .ends st d => .ends st d

/-- The instruction's outcome on its core; an instruction that waits is held with its word when `keep` says so. -/
def CoreEnd.finish (e : CoreEnd) (c len : Nat) (keep : Option (BitVec 32)) (k : Core) (t : CoreTask) : Dev :=
  match e with
  | .next f d => d.updCore c fun k => { (f k).retire len with held := none }
  | .goto pc f d => d.updCore c fun k => { (f k).retire len with held := none, pc := pc }
  | .wait d => d.updCore c fun k => { k with held := keep }
  | .ends st d => d.endTask c st
  | .exc cause tval d => d.coreExc c cause tval
  | .call d => d.ecall c k t

/-- The device of an outcome as it is before the core goes on. -/
def coreIll (d : Dev) (w : Nat) : CoreEnd := .exc 2 (BitVec.ofNat 64 w) d

/-- LOAD. -/
def Dev.insLoad (d : Dev) (c : Nat) (k : Core) (t : CoreTask) (w : Nat) (resp : CoreResp) : CoreEnd :=
  let f3 := insF w 14 12
  let n := 2 ^ (f3 % 4)
  if f3 = 7 then coreIll d w
  else
    (d.coreRead c t.tag .read false (vaRange (k.xr (insF w 19 15) + immI w).toNat n) resp).andThen fun bs k =>
      let v := leNat bs
      k.setX (insF w 11 7) (if f3 < 4 then wordOf (signedOf (8 * n) v) else BitVec.ofNat 64 v)

/-- STORE: `v` is the register's value. -/
def Dev.insStore (d : Dev) (c : Nat) (k : Core) (t : CoreTask) (w n : Nat) (v : Word) (resp : CoreResp) : CoreEnd :=
  (d.coreWrite c t.tag ((vaRange (k.xr (insF w 19 15) + immS w).toNat n).zip (leBytes n v.toNat)) resp).andThen fun _ k => k

/-- LOAD-FP of a scalar. -/
def Dev.insLoadF (d : Dev) (c : Nat) (k : Core) (t : CoreTask) (w : Nat) (f : Fmt) (resp : CoreResp) : CoreEnd :=
  (d.coreRead c t.tag .read false (vaRange (k.xr (insF w 19 15) + immI w).toNat (f.width / 8)) resp).andThen fun bs k =>
    k.setF (insF w 11 7) (f.box (leNat bs))

/-- A vector load. -/
def Dev.insLoadV (d : Dev) (c : Nat) (k : Core) (t : CoreTask) (w : Nat) (resp : CoreResp) : CoreEnd :=
  match k.vElems w with
  | none => coreIll d w
  | some (n, es) =>
    (d.coreRead c t.tag .read false (es.flatMap fun e => vaRange e.va n) resp).andThen fun bs k =>
      { (es.zipIdx.foldl (fun k p => (List.range n).foldl (fun k i => k.vPut p.1.reg (p.1.off + i) (bs.getD (p.2 * n + i) 0)) k) k) with vstart := 0 }

/-- A vector store. -/
def Dev.insStoreV (d : Dev) (c : Nat) (k : Core) (t : CoreTask) (w : Nat) (resp : CoreResp) : CoreEnd :=
  match k.vElems w with
  | none => coreIll d w
  | some (n, es) =>
    (d.coreWrite c t.tag (es.flatMap fun e => (vaRange e.va n).zipIdx.map fun p => (p.1, k.vByte e.reg (e.off + p.2))) resp).andThen
      fun _ k => { k with vstart := 0 }

/-- AMO, LR, SC, AMOCAS: bytes, halfwords, words, doublewords; AMOCAS.Q is a pair. A misaligned one raises an exception. -/
def Dev.insAmo (d : Dev) (c : Nat) (k : Core) (t : CoreTask) (w : Nat) (resp : CoreResp) : CoreEnd :=
  let f3 := insF w 14 12
  let n := 2 ^ f3
  let f5 := insF w 31 27
  let rd := insF w 11 7
  let rs2 := insF w 24 20
  let va := k.xr (insF w 19 15)
  let sx := fun (v : Nat) => wordOf (signedOf (8 * n) v)
  let pair := fun (r : Nat) => if r = 0 then 0 else (k.xr r).toNat + (k.xr (r + 1)).toNat * 2 ^ 64
  let q := f3 == 4 && f5 == 5
  if !q && decide (3 < f3) then coreIll d w
  else if (f5 = 2 ∨ f5 = 3) ∧ f3 < 2 then coreIll d w
  else if va.toNat % n ≠ 0 then .exc (if f5 = 2 then 4 else 6) va d
  else if f5 = 2 then
    if rs2 ≠ 0 then coreIll d w else (d.coreLr c t.tag n va.toNat resp).andThen fun v k => k.setX rd (sx v)
  else if f5 = 3 then
    (d.coreSc c t.tag n va.toNat ((k.xr rs2).toNat % 2 ^ (8 * n)) resp).andThen fun v k => k.setX rd (BitVec.ofNat 64 v)
  else if q then
    if rd % 2 = 1 ∨ rs2 % 2 = 1 then coreIll d w
    else (d.coreAmo c t.tag 10 16 va.toNat (pair rd) (pair rs2) resp).andThen fun v k =>
      if rd = 0 then k else (k.setX rd (BitVec.ofNat 64 v)).setX (rd + 1) (BitVec.ofNat 64 (v / 2 ^ 64))
  else match amoFunc f5 with
    | none => coreIll d w
    | some func =>
      let r := (k.xr rs2).toNat % 2 ^ (8 * n)
      let a := if func = 10 then (k.xr rd).toNat % 2 ^ (8 * n) else r
      (d.coreAmo c t.tag func n va.toNat a r resp).andThen fun v k => k.setX rd (sx v)

/-- A CSR of user mode as it reads; none for one that does not exist (R28). -/
def Dev.csrRead (d : Dev) (k : Core) (n : Nat) : Option (Word × Dev) :=
  match n with
  | 0x001 => some (BitVec.ofNat 64 (k.fcsr.toNat % 32), d)
  | 0x002 => some (BitVec.ofNat 64 (k.fcsr.toNat / 32), d)
  | 0x003 => some (k.fcsr.setWidth 64, d)
  | 0x008 => some (k.vstart, d)
  | 0x009 => some (BitVec.ofNat 64 (k.vcsr.toNat % 2), d)
  | 0x00A => some (BitVec.ofNat 64 (k.vcsr.toNat / 2), d)
  | 0x00F => some (k.vcsr.setWidth 64, d)
  | 0xC00 => some (BitVec.ofNat 64 k.cycle, d)
  | 0xC01 => some (BitVec.ofNat 64 d.now, d)
  | 0xC02 => some (BitVec.ofNat 64 k.instret, d)
  | 0xC20 => some (k.vl, d)
  | 0xC21 => some (k.vtype, d)
  | 0xC22 => some (32, d)
  | _ => if 0xC03 ≤ n ∧ n ≤ 0xC1F then some d.free else none

/-- A CSR of user mode written. -/
def Core.csrWrite (k : Core) (n : Nat) (v : Word) : Core :=
  let x := v.toNat
  match n with
  | 0x001 => { k with fcsr := BitVec.ofNat 8 (k.fcsr.toNat / 32 * 32 + x % 32) }
  | 0x002 => { k with fcsr := BitVec.ofNat 8 (k.fcsr.toNat % 32 + x % 8 * 32) }
  | 0x003 => { k with fcsr := BitVec.ofNat 8 x }
  | 0x008 => { k with vstart := BitVec.ofNat 64 (x % 256) }
  | 0x009 => { k with vcsr := BitVec.ofNat 3 (k.vcsr.toNat / 2 * 2 + x % 2) }
  | 0x00A => { k with vcsr := BitVec.ofNat 3 (k.vcsr.toNat % 2 + x % 4 * 2) }
  | 0x00F => { k with vcsr := BitVec.ofNat 3 x }
  | _ => k

/-- SYSTEM: calls, breakpoints, CSRs, and the may-be-operations of Zimop, which write 0. -/
def Dev.insSystem (d : Dev) (k : Core) (w : Nat) : CoreEnd :=
  let f3 := insF w 14 12
  let rd := insF w 11 7
  let rs1 := insF w 19 15
  let n := insF w 31 20
  match f3 with
  | 0 =>
    match w with
    | 0x00000073 => .call d
    | 0x00100073 => .exc 3 k.pc d
    | 0x00D00073 => .next id d
    | 0x01D00073 => .next id d
    | _ => coreIll d w
  | 4 =>
    if insF w 31 31 = 1 ∧ insF w 29 28 = 0 ∧ ((insF w 25 22 = 7) ∨ insF w 25 25 = 1) then .next (fun k => k.setX rd 0) d
    else coreIll d w
  | _ =>
    let src := if 4 < f3 then BitVec.ofNat 64 rs1 else k.xr rs1
    let writes := f3 % 4 = 1 ∨ rs1 ≠ 0
    match d.csrRead k n with
    | none => coreIll d w
    | some (old, d) =>
      if writes ∧ 0xC00 ≤ n then coreIll d w
      else
        let v := match f3 % 4 with
          | 1 => src
          | 2 => old ||| src
          | _ => old &&& ~~~src
        .next (fun k => (if writes then k.csrWrite n v else k).setX rd old) d

/-- MISC-MEM: fences, which order a core that runs its instructions one by one, and the cache-block operations (R296). In user mode CBO.INVAL is CBO.FLUSH. -/
def Dev.insMisc (d : Dev) (c : Nat) (k : Core) (t : CoreTask) (w : Nat) (resp : CoreResp) : CoreEnd :=
  let va := (k.xr (insF w 19 15)).toNat
  match insF w 14 12 with
  | 0 => .next id d
  | 2 =>
    if insF w 11 7 ≠ 0 then coreIll d w
    else match insF w 31 20 with
      | 0 => (d.coreCbo c t.tag va true resp).andThen fun _ k => k
      | 1 => (d.coreCbo c t.tag va false resp).andThen fun _ k => k
      | 2 => (d.coreCbo c t.tag va true resp).andThen fun _ k => k
      | 4 => (d.coreZero c t.tag va resp).andThen fun _ k => k
      | _ => coreIll d w
  | _ => coreIll d w

/-- An instruction that computes and writes one integer register. -/
def Dev.insAlu (d : Dev) (w : Nat) (v : Option Word) : CoreEnd :=
  match v with
  | some v => .next (fun k => k.setX (insF w 11 7) v) d
  | none => coreIll d w

/-- A floating-point instruction: its result and the flags that it raises. -/
def Dev.insFp (d : Dev) (w : Nat) (r : Option FOut) : CoreEnd :=
  let rd := insF w 11 7
  match r with
  | some (.x v fl) => .next (fun k => { k.setX rd v with fcsr := k.fcsr ||| BitVec.ofNat 8 fl }) d
  | some (.f v fl) => .next (fun k => { k.setF rd v with fcsr := k.fcsr ||| BitVec.ofNat 8 fl }) d
  | none => coreIll d w

/-- What an instruction word does on a core in a task, `len` bytes long in memory, with what has arrived for it (R26). -/
def Dev.coreStep (d : Dev) (c : Nat) (k : Core) (t : CoreTask) (w len : Nat) (resp : CoreResp) : CoreEnd :=
  let rd := insF w 11 7
  let rs1 := insF w 19 15
  let rs2 := insF w 24 20
  let f3 := insF w 14 12
  let a := k.xr rs1
  let b := k.xr rs2
  let frm := k.fcsr.toNat / 32
  let link := k.pc + BitVec.ofNat 64 len
  match insF w 6 0 with
  | 0x37 => d.insAlu w (some (immU w))
  | 0x17 => d.insAlu w (some (k.pc + immU w))
  | 0x6F => .goto (k.pc + immJ w) (fun k => k.setX rd link) d
  | 0x67 => if f3 = 0 then .goto ((a + immI w) &&& ~~~1) (fun k => k.setX rd link) d else coreIll d w
  | 0x63 =>
    match branchTaken f3 a b with
    | none => coreIll d w
    | some true => .goto (k.pc + immB w) id d
    | some false => .next id d
  | 0x03 => d.insLoad c k t w resp
  | 0x23 => if f3 < 4 then d.insStore c k t w (2 ^ f3) b resp else coreIll d w
  | 0x13 => d.insAlu w (aluImm f3 (insF w 31 20) a)
  | 0x1B => d.insAlu w (aluImmW f3 (insF w 31 20) a)
  | 0x33 => d.insAlu w (aluOp (insF w 31 25) f3 a b)
  | 0x3B => d.insAlu w (aluOpW (insF w 31 25) f3 rs2 a b)
  | 0x2F => d.insAmo c k t w resp
  | 0x0F => d.insMisc c k t w resp
  | 0x73 => d.insSystem k w
  | 0x07 =>
    match f3 with
    | 1 => d.insLoadF c k t w .b16 resp
    | 2 => d.insLoadF c k t w .b32 resp
    | 3 => d.insLoadF c k t w .b64 resp
    | _ => d.insLoadV c k t w resp
  | 0x27 =>
    match f3 with
    | 1 => d.insStore c k t w 2 (k.fr rs2) resp
    | 2 => d.insStore c k t w 4 (k.fr rs2) resp
    | 3 => d.insStore c k t w 8 (k.fr rs2) resp
    | _ => d.insStoreV c k t w resp
  | 0x53 => d.insFp w (opFp w (k.fr rs1) (k.fr rs2) a frm)
  | 0x43 => d.insFp w (opFma w (k.fr rs1) (k.fr rs2) (k.fr (insF w 31 27)) frm)
  | 0x47 => d.insFp w (opFma w (k.fr rs1) (k.fr rs2) (k.fr (insF w 31 27)) frm)
  | 0x4B => d.insFp w (opFma w (k.fr rs1) (k.fr rs2) (k.fr (insF w 31 27)) frm)
  | 0x4F => d.insFp w (opFma w (k.fr rs1) (k.fr rs2) (k.fr (insF w 31 27)) frm)
  | 0x57 =>
    if f3 = 7 then
      match k.vsetIns w with
      | some k' => .next (fun _ => k') d
      | none => coreIll d w
    else match d.vArith k w with
      | some (k', d) => .next (fun _ => k') d
      | none => coreIll d w
  | _ => coreIll d w

/-- An instruction word run on a core, 16 or 32 bits long; a reserved one is illegal. -/
def Dev.coreIns (d : Dev) (c : Nat) (k : Core) (t : CoreTask) (w : BitVec 32) (resp : CoreResp) : Dev :=
  match expandIns w with
  | none => d.coreExc c 2 (BitVec.ofNat 64 (w.toNat % 2 ^ 16))
  | some (x, len) => (d.coreStep c k t x len resp).finish c len (some w) k t

/-- CORE_INSTRUCTION: the next instruction of a core in a task, its word given by the command (R26, PRESUMED, assumption 45). -/
def execCoreInstruction (core : Nat) (w : BitVec 32) : State → Out := run fun d =>
  match d.busyCore core with
  | some (k, t) => if k.held.isNone then d.coreIns core k t w none else d
  | none => d

/-- CORE_MEMORY_RESPONSE: the instruction that a core holds goes on with what has arrived; data that the host still owes has not (R290, R302, R421). -/
def execCoreMemoryResponse (core : Nat) (err : Option Status) (ext : Word) : State → Out := run fun d =>
  match d.busyCore core with
  | some (k, t) =>
    match k.held with
    | some w => if d.str.reqs.any (·.core == some core) then d else d.coreIns core k t w (some (err, ext))
    | none => d
  | none => d

/-! ### Cache-block operations as commands (R296) -/

/-- A cache-block operation of a core at a virtual address; one that waits is asked for again. -/
def Dev.cboCmd (d : Dev) (c : Nat) (f : CoreTask → CoreMem Unit) : Dev :=
  match d.busyCore c with
  | some (k, t) => if k.held.isNone then ((f t).andThen fun _ k => k).finish c 4 none k t else d
  | none => d

/-- CBO_CLEAN. -/
def execCboClean (core : Nat) (va : Word) : State → Out := run fun d => d.cboCmd core fun t => d.coreCbo core t.tag va.toNat false none

/-- CBO_FLUSH. -/
def execCboFlush (core : Nat) (va : Word) : State → Out := run fun d => d.cboCmd core fun t => d.coreCbo core t.tag va.toNat true none

/-- CBO_INVAL: in user mode it runs as CBO.FLUSH. -/
def execCboInval (core : Nat) (va : Word) : State → Out := run fun d => d.cboCmd core fun t => d.coreCbo core t.tag va.toNat true none

/-- CBO_ZERO. -/
def execCboZero (core : Nat) (va : Word) : State → Out := run fun d => d.cboCmd core fun t => d.coreZero core t.tag va.toNat none

end Sys2Proof.Machine
end

