-- ==== Sys2Proof/Machine/Ctu.lean ====
section
/-! DEFINITION. The central translation unit: queries, walks, faults, invalidations, migration counters and the standby (R315–R346). -/

namespace Sys2Proof.Machine

/-- The device with its translation unit changed. -/
def Dev.updCtu (d : Dev) (f : Ctu → Ctu) : Dev := { d with ctu := f d.ctu }

/-! ### Hot pages (R341) -/

/-- A hot-page notice: written into its ring, or dropped and counted; a leeward writes none (R341, R463, Table 11.8). -/
def Dev.notice (d : Dev) (tag page size count : Nat) : Dev :=
  let n := 2 ^ d.rd CTU_NQ_BASE_LOG2
  let tail := d.rd CTU_NQ_PTR_TAIL
  if d.isLeeward then d
  else if d.rd CTU_NQ_BASE_EN = 0 ∨ (tail + 1) % n = d.rd CTU_NQ_PTR_HEAD then d.inc CTU_NQ_STATUS_DROPPED
  else
    let d := d.putRecord (d.rd CTU_NQ_BASE_ADDR * 4096 + tail % n * 16) (leBytes 8 page ++ leBytes 2 tag ++ leBytes 1 size ++ leBytes 1 0 ++ leBytes 4 count)
    ((d.wr CTU_NQ_PTR_TAIL ((tail + 1) % n)).inc CTU_NQ_STATUS_POSTED).interrupt 2

/-- The counter of a tag and leaf page: its own, a free one of its set, or the one with the lowest count (R341). -/
def Dev.ensureCounter (d : Dev) (tag page size : Nat) : Dev :=
  if d.ctu.counters.any fun c => c.tag == tag && c.page == page && c.size == size then d
  else
    let key := fun (c : Counter) => Config.counterSet c.tag c.page c.size % 2048
    let set := Config.counterSet tag page size % 2048
    let same := d.ctu.counters.filter fun c => key c == set
    match (List.range 8).find? fun w => !same.any (·.way == w) with
    | some w => d.updCtu fun u => { u with counters := u.counters ++ [⟨tag, page, size, w, 0⟩] }
    | none =>
      let lower := fun (m : Option Counter) (c : Counter) => match m with
        | some x => if c.count * 8 + c.way < x.count * 8 + x.way then some c else m
        | none => some c
      match same.foldl lower none with
      | none => d
      | some v => d.updCtu fun u => { u with counters := u.counters.filter (· != v) ++ [⟨tag, page, size, v.way, 0⟩] }

/-- Line requests counted one by one, with a notice and a fresh start at each THRESHOLD (R341). -/
def Dev.countLines (d : Dev) (tag page size : Nat) : Nat → Dev
  | 0 => d
  | n + 1 =>
    let mine := fun (c : Counter) => c.tag == tag && c.page == page && c.size == size
    let now := ((d.ctu.counters.find? mine).map (·.count)).getD 0 + 1
    let hot := decide (d.rd CTU_CNT_CTRL_THRESHOLD ≤ now)
    let d := d.updCtu fun u => { u with counters := updWhere mine (fun c => { c with count := if hot then 0 else now }) u.counters }
    (if hot then d.notice tag page size now else d).countLines tag page size n

/-! ### Faults (R333–R339) -/

/-- The status with which a failed record ends its requests (R337): kinds 1 NOT_PRESENT, 2 RIGHTS, 3 MALFORMED. -/
def failStatus (kind : Nat) : Status := if kind = 2 then .rights else .faultUnresolved

/-- The ACCESS bit of an access (Table 11.7). -/
def accMask : Access → BitVec 4
  | .read => 1 | .write => 2 | .atomic => 4 | .image => 8

/-- The lowest free record ID (R334). -/
def Dev.freeRecord (d : Dev) : Nat := ((List.range 2048).find? fun i => !d.ctu.faults.any (·.id == i)).getD 0

/-- The fault queue is full (R336). -/
def Dev.faultsFull (d : Dev) : Bool :=
  decide (2048 ≤ d.ctu.faults.length) || (d.rd CTU_FQ_PTR_TAIL + 1) % 2 ^ d.rd CTU_FQ_BASE_LOG2 == d.rd CTU_FQ_PTR_HEAD

/-- A new record is posted: written into the fault ring, with vector 1; a leeward writes none (R335, R463, Table 11.7). -/
def Dev.postFault (d : Dev) (f : FaultRec) : Dev :=
  let seq := d.ctu.seqNo + 1
  let mig := match d.ctxSlot f.tag with
    | some s => if d.rd (CTU_CTX_MODE s) = 1 then 1 else 0
    | none => 0
  let tail := d.rd CTU_FQ_PTR_TAIL
  let n := 2 ^ d.rd CTU_FQ_BASE_LOG2
  let d := (d.updCtu fun u => { u with faults := u.faults ++ [f], seqNo := seq }).fqSync
  if d.isLeeward then d
  else
    let bs := leBytes 8 f.page ++ leBytes 8 f.mask.toNat ++ leBytes 2 f.tag ++ leBytes 2 f.id ++ leBytes 1 f.kind ++ leBytes 1 f.access.toNat
      ++ leBytes 1 f.level ++ leBytes 1 mig ++ leBytes 8 0 ++ leBytes 8 f.entry.toNat ++ leBytes 8 seq ++ leBytes 8 d.now ++ leBytes 8 0
    ((d.putRecord (d.rd CTU_FQ_BASE_ADDR * 4096 + tail % n * 64) bs).wr CTU_FQ_PTR_TAIL ((tail + 1) % n)).interrupt 1

/-- A translation raises a fault: merged, posted, refused on a full queue, or ended where nothing may be posted (R334–R336, R339, R374, R459). -/
def Dev.raiseFault (d : Dev) (r : CtuReq) (kind level : Nat) (entry : Word) : Dev :=
  let page := r.va.toNat / 4096 * 4096
  if (d.context? r.tag).any (·.dying.isSome) then d.ctuAnswer r (.ended .aborted)
  else if d.rd CTU_FQ_BASE_EN = 0 then d.ctuAnswer r (.ended (failStatus kind))
  else match d.twn.resolves.find? fun x => x.1 == r.tag && x.2.1 == page with
    | some x =>
      let d := { d with twn := { d.twn with resolves := d.twn.resolves.erase x } }
      if x.2.2 then d.ctuAnswer r (.ended (failStatus kind)) else d.updCtu fun u => { u with stalled := u.stalled ++ [r] }
    | none =>
      let bit : BitVec 64 := BitVec.ofNat 64 (2 ^ (r.port % 64))
      if d.ctu.faults.any fun f => f.tag == r.tag && f.page == page then
        let join := fun (f : FaultRec) => { f with mask := f.mask ||| bit, access := f.access ||| accMask r.acc, reqs := f.reqs ++ [r] }
        d.updCtu fun u => { u with faults := updWhere (fun f => f.tag == r.tag && f.page == page) join u.faults }
      else if d.faultsFull then (d.inc CTU_FQ_STATUS_OVERFLOW).updCtu fun u => { u with stalled := u.stalled ++ [r] }
      else d.postFault ⟨d.freeRecord, r.tag, page, kind, accMask r.acc, bit, level, entry, d.now, [r]⟩

/-! ### Lookups and walks (R315–R327, R332, R580) -/

/-- A leaf gives a request its answer: the address, with its lines counted in COUNTERS mode, an end, or a RIGHTS fault (R320–R322, R341). -/
def Dev.leafReply (d : Dev) (r : CtuReq) (leaf : Word) (level : Nat) : Dev :=
  match leafAnswer leaf level r.va.toNat r.acc with
  | .pa a =>
    let d := d.ctuAnswer r (.pa (BitVec.ofNat 64 a))
    let counts := leaf.getLsbD 6 && (match d.ctxSlot r.tag with | some s => d.rd (CTU_CTX_MODE s) == 2 | none => false)
    if counts then
      let page := r.va.toNat / levelSpan level * levelSpan level
      (d.ensureCounter r.tag page level).countLines r.tag page level r.lines
    else d
  | .ended st => d.ctuAnswer r (.ended st)
  | .waits => d.raiseFault r 2 level leaf

/-- The walk-cache entry from which a walk starts: the lowest level held for the address. -/
def Dev.walkStart (d : Dev) (tag va root : Nat) : Nat × Nat :=
  let held := fun (l : Nat) => d.ctu.walkCache.find? fun e => e.1 == tag && e.2.1 == l && e.2.2.1 == va / levelSpan l * levelSpan l
  match [1, 2, 3, 4].findSome? held with
  | some e => (e.2.1 - 1, fieldOf e.2.2.2 47 12 * 4096)
  | none => (4, root)

/-- A request is looked up: answered from an entry, joined to the walk of its page, or given a walk of its own (R315, R326, R327, R329). -/
def Dev.lookup (d : Dev) (r : CtuReq) : Dev :=
  let va := r.va.toNat
  match if 2 ^ 57 ≤ va then none else d.context? r.tag with
  | none => d.ctuAnswer r (.ended .rights)
  | some c =>
    match d.ctu.tlb.find? fun t => t.tag == r.tag && decide (t.vpage ≤ va) && decide (va < t.vpage + t.span) with
    | some t =>
      let d := d.updCtu fun u => { u with tlb := updWhere (· == t) (fun t => { t with used := true }) u.tlb }
      d.leafReply r (t.leaf + BitVec.ofNat 64 ((va - t.vpage) / levelSpan t.level * levelSpan t.level)) t.level
    | none =>
      let same := fun (w : Walk) => w.tag == r.tag && w.va.toNat / 4096 == va / 4096
      if d.ctu.walks.any same then
        d.updCtu fun u => { u with walks := updWhere same (fun w => { w with reqs := w.reqs ++ [r] }) u.walks }
      else if 64 ≤ d.ctu.walks.length then d.updCtu fun u => { u with stalled := u.stalled ++ [r] }
      else
        let (l, t) := d.walkStart r.tag va c.root
        (d.updCtu fun u => { u with walks := u.walks ++ [⟨u.nextId, r.tag, r.va, l, t, [r], false⟩], nextId := u.nextId + 1 }).fqSync

/-- The set of an entry in its array, and the array's ways (Table 11.4). -/
def tlbSet (level tag va : Nat) : Nat :=
  match level with
  | 0 => Nat.xor (va / 2 ^ 16 % 2 ^ 13) (tag % 2 ^ 13)
  | 1 => Nat.xor (va / 2 ^ 25 % 2 ^ 11) (tag % 2 ^ 11)
  | _ => Nat.xor (va / 2 ^ 34 % 2 ^ 8) (tag % 2 ^ 8)
def tlbWays (level : Nat) : Nat := if level = 0 then 12 else if level = 1 then 14 else 16

/-- An entry put into its set; a full set gives up an entry not recently used, which one being free (R325, DESIGN CHOICE, assumption 4). -/
def Dev.tlbInsert (d : Dev) (t : Tlb) : Dev :=
  let inSet := fun (x : Tlb) => x.level == t.level && tlbSet x.level x.tag x.vpage == tlbSet t.level t.tag t.vpage
  let d := d.updCtu fun u => { u with tlb := u.tlb.filter fun x => !(x.tag == t.tag && x.vpage == t.vpage && x.span == t.span) }
  let same := d.ctu.tlb.filter inSet
  if same.length < tlbWays t.level then d.updCtu fun u => { u with tlb := u.tlb ++ [t] }
  else
    let cold := same.filter (!·.used)
    let d := if cold.isEmpty then d.updCtu fun u => { u with tlb := updWhere inSet (fun x => { x with used := false }) u.tlb } else d
    let cands := if cold.isEmpty then same.map fun x => { x with used := false } else cold
    let (w, d) := d.free
    match cands[w.toNat % max 1 cands.length]? with
    | some v => d.updCtu fun u => { u with tlb := u.tlb.filter (· != v) ++ [t] }
    | none => d

/-- The attributes that the leaves of a group share (R319): CONT, REMOTE, RANK, CNT, RF, A, W, R. -/
def groupAttr (e : Word) : Nat × Nat × Nat × Nat := (fieldOf e 10 8, fieldOf e 63 48, fieldOf e 6 5, fieldOf e 3 1)

/-- The entry that a leaf at a table gives the CTU: the whole group when it is consistent, else the page, with the mismatch counted (R319). -/
def Dev.cacheLeaf (d : Dev) (w : Walk) (e : Word) : Dev :=
  let span := levelSpan w.level
  let n := fieldOf e 10 8
  let page : Tlb := ⟨w.tag, w.va.toNat / span * span, span, e, w.level, true⟩
  if n = 0 then d.tlbInsert page
  else
    let cnt := 2 ^ n
    let first := levelIndex w.level w.va.toNat / cnt * cnt
    let at_ := fun (i : Nat) => BitVec.ofNat 64 (d.natAt (w.table + 8 * (first + i)) 8)
    let p0 := fieldOf (at_ 0) 47 12
    let step := span / 4096
    let ok := p0 % (cnt * step) == 0 && !d.poisonIn (w.table + 8 * first) (8 * cnt) && (List.range cnt).all fun i =>
      (at_ i).getLsbD 0 && (at_ i).getLsbD 4 && groupAttr (at_ i) == groupAttr e && fieldOf (at_ i) 47 12 == p0 + i * step
    if ok then d.tlbInsert ⟨w.tag, w.va.toNat / (span * cnt) * (span * cnt), span * cnt, at_ 0, w.level, true⟩
    else (d.inc CTU_STATUS_CONT_MISMATCH).tlbInsert page

/-- A walk leaves the unit. -/
def Dev.endWalk (d : Dev) (id : Nat) : Dev := (d.updCtu fun u => { u with walks := u.walks.filter (·.id != id) }).fqSync

/-- WALK_READ_COMPLETE: the entry of a walk's level has been read (R318–R323, R332, R333, R580). -/
def execWalkReadComplete (walk : Nat) : State → Out := run fun d =>
  match d.ctu.walks.find? (·.id == walk) with
  | none => d
  | some w =>
    let a := w.table + 8 * levelIndex w.level w.va.toNat
    let d1 := d.endWalk walk
    if d.poisonAt a then w.reqs.foldl (fun d r => d.ctuAnswer r (.ended .poisonConsumed)) d1
    else
      let e := BitVec.ofNat 64 (d.natAt a 8)
      match walkEntry w.level e with
      | .next t =>
        let d := if w.noCache then d else
          let (x, d) := if 8192 ≤ d.ctu.walkCache.length then d.free else (0, d)
          d.updCtu fun u => { u with walkCache :=
            (if 8192 ≤ u.walkCache.length then u.walkCache.eraseIdx (x.toNat % u.walkCache.length) else u.walkCache)
              ++ [(w.tag, w.level, w.va.toNat / levelSpan w.level * levelSpan w.level, e)] }
        d.updCtu fun u => { u with walks := updWhere (·.id == walk) (fun w => { w with level := w.level - 1, table := t }) u.walks }
      | .leaf =>
        let d := if w.noCache ∨ !leafUsable e then d1 else d1.cacheLeaf w e
        w.reqs.foldl (fun d r => d.leafReply r e w.level) d
      | .notPresent => w.reqs.foldl (fun d r => d.raiseFault r 1 w.level e) d1
      | .malformed => w.reqs.foldl (fun d r => d.raiseFault r 3 w.level e) d1
      | .stream => (w.reqs.foldl (fun d r => d.tierResolve r) d1).tierSettle

/-- TRANSLATION_QUERY: a port's query reaches the CTU (R326). -/
def execTranslationQuery (port : Nat) (tag : Nat) (va : Word) (acc : Access) (lines : Nat) : State → Out := run fun d =>
  if 50 < port then d
  else
    let r : CtuReq := ⟨d.ctu.nextId, port, tag, va, acc, lines⟩
    (d.updCtu fun u => { u with nextId := u.nextId + 1 }).lookup r

/-- FAULT_RETRY: a request that was refused tries its translation again (R336). -/
def execFaultRetry (req : Nat) : State → Out := run fun d =>
  match d.ctu.stalled.find? (·.id == req) with
  | none => d
  | some r => (d.updCtu fun u => { u with stalled := u.stalled.filter (·.id != req) }).lookup r

/-! ### Resolving (R337, R338, R459) -/

/-- A pending record is freed. -/
def Dev.dropFault (d : Dev) (id : Nat) : Dev := (d.updCtu fun u => { u with faults := u.faults.filter (·.id != id) }).fqSync

/-- A pending record is resolved: its requests replay, or end (R337). -/
def Dev.resolveFault (d : Dev) (f : FaultRec) (fail : Bool) : Dev :=
  let d := d.dropFault f.id
  if fail then d.endReqs f.reqs (failStatus f.kind) else f.reqs.foldl (fun d r => d.lookup r) d

/-- CTU_FAULT_RESOLVE of an ID: a free ID is ignored, with an INFO event (R337, R581). -/
def Dev.resolveId (d : Dev) (id : Nat) (fail : Bool) : Dev :=
  match d.ctu.faults.find? (·.id == id) with
  | none => d.event 5 0 2 0 0 id 0
  | some f => d.tellDecision.resolveFault f fail

/-- The word of CTU_FAULT_RESOLVE for an ID and ACTION (Table 11.17). -/
def resolveWord (id action : Nat) : Word := BitVec.ofNat 64 (id % 2048 * 2 ^ 16 + action * 2 + 1)

/-- RETRY (R337). -/
def execCtuRetry (id : Nat) : State → Out := regCmd CTU_FAULT_RESOLVE_ID.reg (resolveWord id 0) fun d => d.resolveId (id % 2048) false

/-- FAIL (R337). -/
def execCtuFail (id : Nat) : State → Out := regCmd CTU_FAULT_RESOLVE_ID.reg (resolveWord id 1) fun d => d.resolveId (id % 2048) true

/-- FAULT_TIMEOUT: a record that nothing resolved is failed; a leeward waits for its windward to decide (R338, R459). -/
def execFaultTimeout (id : Nat) : State → Out := run fun d =>
  match d.ctu.faults.find? (·.id == id) with
  | none => d
  | some f =>
    if d.rd CTU_FAULT_CTRL_TIMEOUT = 0 ∨ d.isLeeward then d
    else (((d.inc CTU_FQ_STATUS_EXPIRED).event 5 2 1 f.tag f.page 0 0).tellDecision.resolveFault f true)

/-! ### Invalidations (R330–R332) -/

/-- The word of CTU_INV_CMD that starts an invalidation (Table 11.11). -/
def invWord (tag op size count : Nat) : Word :=
  BitVec.ofNat 64 (tag % 2 ^ 16 * 2 ^ 48 + count % 2 ^ 16 * 2 ^ 32 + size % 4 * 16 + op * 2 + 1)

/-- CTU_INV_CMD with GO: discarded while an invalidation from it runs; a command out of its table ends ABORTED; else the invalidation begins once the CTU has room (R330, Table 11.11). -/
def Dev.invCmd (d : Dev) (v : Word) : Option Dev :=
  if d.rd CTU_INV_CMD_GO = 1 then none
  else
    let tag := fieldOf v 63 48
    let d' := (d.plainWrite CTU_INV_CMD_GO.reg v).wr CTU_INV_CMD_GO 0
    let go := fun (r : Option (Nat × Nat)) => if d.invalRoom then (d'.wr CTU_INV_CMD_GO 1).startInval none tag r else d
    match fieldOf v 3 1 with
    | 1 => match invalRange (d.rd CTU_INV_VA_VA) (fieldOf v 5 4) (fieldOf v 47 32) with
      | none => some (d'.wr CTU_INV_CMD_STATUS 1)
      | some r => some (go (some r))
    | 2 => some (go none)
    | _ => some (d'.wr CTU_INV_CMD_STATUS 1)

/-- A write of CTU_INV_CMD as a command of its own: discarded, or done and told to the partner. -/
def Dev.invWrite (d : Dev) (v : Word) : Dev := d.orDiscard CTU_INV_CMD_GO.reg v ((d.invCmd v).map Dev.tellDecision)

/-- RANGE. -/
def execInvRange (tag : Nat) (va : Word) (size : Nat) (count : Nat) : State → Out := regCmd CTU_INV_CMD_GO.reg (invWord tag 1 size count) fun d =>
  (if d.rd CTU_INV_CMD_GO = 1 then d else d.wr CTU_INV_VA_VA va.toNat).invWrite (invWord tag 1 size count)

/-- TAG. -/
def execInvTag (tag : Nat) : State → Out := regCmd CTU_INV_CMD_GO.reg (invWord tag 2 0 0) fun d =>
  d.invWrite (invWord tag 2 (d.rd CTU_INV_CMD_SIZE) (d.rd CTU_INV_CMD_COUNT))

/-- INVALIDATION_COMPLETE: what was translated through a dropped entry has been performed (R331, R373, R374). -/
def execInvalidationComplete (inv : Nat) : State → Out := run fun d =>
  match d.ctu.invals.find? (·.id == inv) with
  | none => d
  | some i =>
    let d := d.updCtu fun u => { u with invals := u.invals.filter (·.id != inv) }
    let d := match i.src with
      | none => (d.wr CTU_INV_CMD_STATUS 0).wr CTU_INV_CMD_GO 0
      | some op => d.invalDone op
    let d := (d.fe.objects.filterMap (·.freeing)).foldl (fun d op => d.freeStep op) d
    (d.fe.contexts.filter (·.dying.isSome)).foldl (fun d c => d.destroyStep c.tag) d

/-! ### Counters, rings and the standby (R339, R341, R344–R346) -/

/-- COUNTER_HALVING: every counter is halved, unless PERIOD_MS is 0 (R341). -/
def execCounterHalving : State → Out := run fun d =>
  if d.rd CTU_CNT_CTRL_PERIOD_MS = 0 then d
  else d.updCtu fun u => { u with counters := u.counters.map fun c => { c with count := c.count / 2 } }

/-- A write of CTU_FQ_BASE or CTU_NQ_BASE: a fault ring that stops fails its pending records (R339). -/
def Dev.ctuRing (d : Dev) (fault : Bool) (v : Word) : Option Dev :=
  let off := if fault then CTU_FQ_BASE_EN.reg else CTU_NQ_BASE_EN.reg
  let p := d.plainWrite off v
  (ringWrite (d.word off) v (if fault then 11 else 8) (if fault then 64 else 16)).map fun
    | .same => d
    | .plain => p
    | .stop => if fault then d.ctu.faults.foldl (fun d f => d.resolveFault f true) p else p
    | .start => if fault then (p.wr CTU_FQ_PTR_HEAD 0).wr CTU_FQ_PTR_TAIL 0 else (p.wr CTU_NQ_PTR_HEAD 0).wr CTU_NQ_PTR_TAIL 0

/-- FAULT_RING_ENABLE: a write of CTU_FQ_BASE (R339, R576, R577, Table 11.13). -/
def execFaultRingEnable (v : Word) : State → Out := regCmd CTU_FQ_BASE_EN.reg v fun d =>
  d.orDiscard CTU_FQ_BASE_EN.reg v ((d.ctuRing true v).map Dev.tellDecision)

/-- Walks begin again from their roots, as the ports send their queries to the standby (R345). -/
def Ctu.rewalk (u : Ctu) (root : Nat → Option Nat) : Ctu :=
  { u with walkCache := [], walks := u.walks.map fun w => { w with level := 4, table := (root w.tag).getD w.table } }

/-- CTU_SWITCHOVER: the active CTU of a die fails; the standby takes over, or the coherent domain goes down (R345, R346, R498). -/
def execCtuSwitchover (die : Nat) : State → Out := run fun d =>
  if d.rd CTU_STATUS_ACTIVE ≠ die then d
  else if d.rd CTU_STATUS_STANDBY_OK = 1 then
    let root := fun t => (d.context? t).map (·.root)
    let d := ((d.wr CTU_STATUS_ACTIVE (1 - die)).setCtuStandby false).event 5 1 3 0 0 0 0
    (d.updCtu fun u => { u.rewalk root with hasStandby := false }).warn
  else d.domainDown (0x50 + die) 3

/-- STANDBY_CTU_FAILURE: the standby fails while it stands by (R345, R498). -/
def execStandbyCtuFailure : State → Out := run fun d =>
  if d.rd CTU_STATUS_STANDBY_OK = 0 then d
  else (((d.setCtuStandby false).event 5 1 3 0 0 0 0).updCtu fun u => { u with hasStandby := false }).warn

end Sys2Proof.Machine
end

