-- ==== Sys2Proof/Machine/Tier.lean ====
section
/-! DEFINITION. The tier engine: publishing, promotion, eviction, receive bindings, fills and deadlines (R255–R287). -/

namespace Sys2Proof.Machine

/-- A tier task of a code that the engine accepts next: tasks are accepted in the order of dispatch (R266). -/
def Dev.tierTask (d : Dev) (op code : Nat) : Option FeOp :=
  match d.ready? op 0x04 with
  | some o =>
    if entF o.entry 32 1 = code ∧ !d.fe.ops.any (fun p => p.opcode == 4 && p.phase == .dispatched && decide (p.id < op)) then some o else none
  | none => none

/-- The device with its tier state changed. -/
def Dev.updTier (d : Dev) (f : Tier → Tier) : Dev := { d with tier := f d.tier }

/-- A task that met an access which did not give data: it ends, or is tried again (R267). -/
def Dev.taskStop (d : Dev) (op : Nat) : Xlate → Dev
  | .ended st => d.conclude op st
  | _ => d

/-! ### Publishing (R262–R269, R494) -/

/-- The spare blocks of a Shelf package (R493). -/
def Dev.spareBlocks (d : Dev) (pkg : Nat) : Nat := 5888 - sget (fun _ => 0) d.nv.blocksRetired pkg

/-- PUBLISH_OPEN. -/
def execPublishOpen (op : Nat) : State → Out := run fun d =>
  match d.tierTask op 1 with
  | none => d
  | some o =>
    let e := o.entry
    let name := BitVec.ofNat 64 (entF e 40 8)
    let n := entF e 64 4
    if n = 0 ∨ 65535 < n then d.conclude op .aborted
    else match d.vnums o.tag (entF e 48 8) 8 n with
      | .error x => d.taskStop op x
      | .ok (d, segs) =>
        if d.nv.dir.any (·.name == name) ∨ !segsOk segs then d.conclude op .aborted
        else if 65536 ≤ d.nv.dir.length ∨ d.rd TIER_SHELF_STATUS_FREE_STRIPES < segs.sum / stripeBytes ∨
            (List.range 16).any (fun p => decide (d.spareBlocks p < 246)) then d.conclude op .busy
        else
          let i := ((List.range 65536).find? fun i => (d.dirent? i).isNone).getD 0
          let d := { d with nv := { d.nv with dir := d.nv.dir ++ [(⟨i, name, 1, segs, [], [], []⟩ : Dirent)] } }
          (d.tierSync).conclude op .ok 0 (BitVec.ofNat 32 i)

/-- The entry of an index in a state. -/
def Dev.direntIn (d : Dev) (i st : Nat) : Option Dirent := (d.dirent? i).bind fun e => if e.state = st then some e else none

/-- PUBLISH_WRITE: the data goes to the package sets; the stripes count as written once they are durable (R267). -/
def execPublishWrite (op : Nat) : State → Out := run fun d =>
  match d.tierTask op 2 with
  | none => d
  | some o =>
    let e := o.entry
    let i := entF e 36 4; let off := entF e 40 8; let len := entF e 56 8
    match d.direntIn i 1 with
    | none => d.conclude op .handleInvalid
    | some x =>
      if off % stripeBytes ≠ 0 ∨ len = 0 ∨ len % stripeBytes ≠ 0 ∨ x.segs.sum < off + len then d.conclude op .aborted 0x82
      else match d.vgather o.tag (entF e 48 8) len with
        | .error y => d.taskStop op y
        | .ok (d, bs) =>
          if bs.any (·.2) then d.conclude op .poisonConsumed
          else ((d.flashWrite i off (bs.map (·.1))).begin op).updTier fun t =>
            { t with publishes := t.publishes ++ [⟨op, i, off / stripeBytes, len / stripeBytes⟩] }

/-- PUBLISH_PROGRAM_COMPLETE: the stripes are durable, with their digests (R264, R267). -/
def execPublishProgramComplete (op : Nat) : State → Out := run fun d =>
  match d.tier.publishes.find? (·.op == op) with
  | none => d
  | some p =>
    let d := d.updTier fun t => { t with publishes := t.publishes.filter (·.op != op) }
    match d.direntIn p.index 1 with
    | none => d.finish op .handleInvalid
    | some _ =>
      let sts := (List.range p.count).map (p.first + ·)
      let digs := sts.map fun s => (s, digest256 (d.stripe p.index s))
      (d.updDirent p.index fun e => { e with
        written := e.written.filter (fun s => !sts.contains s) ++ sts
        digests := e.digests.filter (fun g => !sts.contains g.1) ++ digs }).finish op .ok

/-- The object digest: SHAKE256 over the stripe digests in stripe order (R264). -/
def Dirent.digest (e : Dirent) : BitVec 256 :=
  digest256 ((List.range e.stripes).flatMap fun s => leBytes 32 ((getKey e.digests s).getD 0).toNat)

/-- PUBLISH_SEAL (R267, R268). -/
def execPublishSeal (op : Nat) : State → Out := run fun d =>
  match d.tierTask op 3 with
  | none => d
  | some o =>
    let i := entF o.entry 36 4
    match d.direntIn i 1 with
    | none => d.conclude op .handleInvalid
    | some x =>
      if (List.range x.stripes).any fun s => !x.written.contains s then d.conclude op .aborted
      else match d.vput o.tag none (entF o.entry 48 8) ((leBytes 32 x.digest.toNat).map fun b => (b, false)) with
        | .error y => d.taskStop op y
        | .ok d => (d.updDirent i fun e => { e with state := 2 }).conclude op .ok

/-- DELETE: an OPEN entry is freed, a SEALED one becomes DELETING and loses its unreferenced copies (R269). -/
def execShelfDelete (op : Nat) : State → Out := run fun d =>
  match d.tierTask op 4 with
  | none => d
  | some o =>
    let i := entF o.entry 36 4
    match d.dirent? i with
    | none => d.conclude op .handleInvalid
    | some x =>
      match x.state with
      | 1 => ((d.freeDirent i).tierSettle).conclude op .ok
      | 2 =>
        let d := d.updDirent i fun e => { e with state := 3 }
        let d := (d.tier.copies.filter fun c => c.ident == i && c.refs.isEmpty).foldl (fun d c => d.freeCopy c.id) d
        (((d.closeDirent i).placeWaiting).tierSettle).conclude op .ok
      | _ => d.conclude op .handleInvalid

/-! ### Promotion and eviction (R272–R274) -/

/-- The streamed object that a task names; a T1 object's handle does not fit the field. -/
def Dev.streamed (d : Dev) (o : FeOp) : Option FeObject :=
  (d.handleObject o.tag (entF o.entry 36 4)).bind fun x => if x.tier = 0 then none else some x

/-- PROMOTE. -/
def execPromote (op : Nat) : State → Out := run fun d =>
  match d.tierTask op 5 with
  | none => d
  | some o =>
    match d.streamed o with
    | none => d.conclude op .handleInvalid
    | some x =>
      let seg := entF o.entry 64 4
      if x.segs.length ≤ seg then d.conclude op .aborted 0x82
      else ((d.begin op).promoteSeg o.tag x seg (entF o.entry 68 4) (some op)).tierSettle

/-- EVICT: the reference goes, its pending promotion ends ABORTED, and the task completes with the invalidation of its pages (R273, R274). -/
def execEvict (op : Nat) : State → Out := run fun d =>
  match d.tierTask op 6 with
  | none => d
  | some o =>
    match d.streamed o with
    | none => d.conclude op .handleInvalid
    | some x =>
      let seg := entF o.entry 64 4
      if x.segs.length ≤ seg then d.conclude op .aborted 0x82
      else match d.copyOf x.ident seg with
        | none => d.conclude op .ok
        | some c =>
          if !c.refs.contains o.tag then d.conclude op .ok
          else if !d.invalRoom then d
          else
            let ws := (d.waitersOf c).filter (·.tag == o.tag)
            let d := ws.foldl (fun d w => d.endWaiter w .aborted) d
            let d := ((d.begin op).dropRef o.tag c).tierSettle
            d.startInval (some op) o.tag (some (x.base + c.start, x.base + c.start + c.len))

/-! ### Receive bindings (R285–R287) -/

/-- BIND_RECV. -/
def execBindRecv (op : Nat) : State → Out := run fun d =>
  match d.tierTask op 7 with
  | none => d
  | some o =>
    let e := o.entry
    let win := entF e 72 2; let off := entF e 40 8; let len := entF e 56 8; let fh := entF e 76 4
    let fence := if fh = 0 then none else d.reloc o.tag 1 fh 0
    match d.handleObject o.tag (entF e 36 4) with
    | none => d.conclude op .handleInvalid
    | some x =>
      if fh ≠ 0 ∧ !(fence.bind d.fence?).any (fun f => f.signaller.isNone && !f.orphan) then d.conclude op .handleInvalid
      else if win < 256 ∨ 4095 < win ∨ x.tier ≠ 0 ∨ x.flags.getLsbD 9 = false ∨ off % 4096 ≠ 0 ∨ len % 4096 ≠ 0 ∨ len = 0 ∨ x.size < off + len then
        d.conclude op .aborted 0x82
      else if d.rd (NFP_WIN_W0_BOUND win) = 1 then d.conclude op .busy
      else (d.begin op).bindWin ⟨win, some op, none, o.tag, x.id, off, len, [], false, 0, false, entF e 48 8, fence, entF e 80 8⟩

/-- UNBIND: the window closes at once; the task that bound it ends ABORTED (R286). -/
def execUnbind (op : Nat) : State → Out := run fun d =>
  match d.tierTask op 8 with
  | none => d
  | some o =>
    let win := entF o.entry 72 2
    match d.binding? win with
    | none => if win < 256 ∨ 4095 < win then d.conclude op .aborted 0x82 else d.conclude op .ok
    | some b =>
      if b.fill.isSome ∨ b.tag ≠ o.tag then d.conclude op .aborted 0x82
      else
        let d := d.closeWin win
        (match b.op with
          | some p => d.finish p .aborted
          | none => d).conclude op .ok

/-! ### Fills (R276, R280, R284) -/

/-- The SHELF copy whose stripes are read next: the earliest deadline, ties to the older copy (R276). -/
def Dev.nextFill (d : Dev) : Option Copy :=
  let late := 2 ^ 64
  (d.tier.copies.filter fun c => !isRemote c.ident && c.state == 1 && c.stripes.any fun s => !c.got.contains s && !c.bad.contains s).foldl
    (fun m c => match m with
      | some x => if (d.copyDeadline c).getD late < (d.copyDeadline x).getD late then some c else m
      | none => some c) none

/-- A stripe from flash written to its place in a copy. -/
def Dev.fillStripe (d : Dev) (c : Copy) (s : Nat) : Dev := d.putBytes (c.paOf (s * stripeBytes - c.start)) (d.stripe c.ident s)

/-- The poisoned lines of a VALID copy's stripe rewritten from the Shelf (R284). -/
def Dev.rewriteLines (d : Dev) (c : Copy) (s : Nat) : Dev :=
  let a := c.paOf (s * stripeBytes - c.start)
  (List.range (stripeBytes / 64)).foldl (fun d i =>
    if d.poisonAt (a + 64 * i) then d.putBytes (a + 64 * i) ((List.range 64).map fun k => d.flashByte c.ident (s * stripeBytes + 64 * i + k)) else d) d

/-- SHELF_STRIPE_READ: a stripe read for a fill returns, or one that repairs a VALID copy. -/
def execShelfStripeRead (cp : Nat) (stripe : Nat) (bad : Bool) : State → Out := run fun d =>
  match d.copy? cp with
  | none => d
  | some c =>
    if isRemote c.ident ∨ !c.stripes.contains stripe then d
    else if c.state = 2 then (if bad then d else d.rewriteLines c stripe)
    else
      let next := c.stripes.find? fun s => !c.got.contains s && !c.bad.contains s
      if c.state ≠ 1 ∨ next ≠ some stripe ∨ d.nextFill.map (·.id) ≠ some cp then d
      else if bad then (d.makeBad cp stripe 0).tierSettle
      else
        let d := (d.fillStripe c stripe).updCopy cp fun c => { c with got := c.got ++ [stripe] }
        if c.stripes.all fun s => s == stripe || c.got.contains s then (d.makeValid cp).tierSettle else d.tierSync

/-- PROMOTION_DEADLINE: a promotion that is not complete ends TIER_LATE, with the accesses of its context that wait on the copy and its reference; a leeward waits for its windward to decide (R279, R459). -/
def execPromotionDeadline (wt : Nat) : State → Out := run fun d =>
  match d.tier.waiters.find? (·.id == wt) with
  | none => d
  | some w => if d.isLeeward then d else d.promotionLate w

/-- REFETCH_DEADLINE: a refetch that has not completed in time fails, and the copy stays BAD (R282). -/
def execRefetchDeadline (cp : Nat) : State → Out := run fun d =>
  match d.copy? cp with
  | none => d
  | some c =>
    if c.refetch.isNone then d
    else
      let d := (d.tier.bindings.filter (·.fill == some cp)).foldl (fun d b => d.closeWin b.win) d
      let d := (d.inc TIER_ERR_CNT_REFETCH_FAIL).updCopy cp fun c => { c with refetch := none }
      let s := c.bad.headD 0
      if c.state = 1 then (d.makeBad cp s 4).tierSettle
      else (((d.wr TIER_ERR_LOG_OBJ (tierSource c.ident)).wr TIER_ERR_LOG_STRIPE s).wr TIER_ERR_LOG_KIND 4).wr TIER_ERR_LOG_VALID 1

end Sys2Proof.Machine
end

