-- ==== Sys2Proof/Machine/LinkOps.lean ====
section
/-! DEFINITION. The shared operations of the link layers of ports, Strait and the twin link (R378–R385, R409–R411, R457, R476): bring-up, loss, lane repair. (DEDUCED, assumption 22) -/

namespace Sys2Proof.Machine

/-! ### Links 0–7 ports, 8 Strait, 9 twin link (Tables 13.9, 14.7, 16.9) -/

/-- The status fields of a link. -/
def lnState (k : Nat) : Fld := if k < 8 then NFP_PORT_STATUS_STATE k else if k = 8 then STR_LINK_STATUS_STATE else TWN_LINK_STATUS_STATE
def lnCrc (k : Nat) : Fld := if k < 8 then NFP_PORT_STATUS_CRC_ERR k else if k = 8 then STR_LINK_STATUS_CRC_ERR else TWN_LINK_STATUS_CRC_ERR
def lnReplays (k : Nat) : Fld := if k < 8 then NFP_PORT_STATUS_REPLAYS k else if k = 8 then STR_LINK_STATUS_REPLAYS else TWN_LINK_STATUS_REPLAYS
def lnLanes (k : Nat) : Fld := if k < 8 then NFP_PORT_STATUS_LANES k else if k = 8 then STR_LINK_STATUS_LANES else TWN_LINK_STATUS_LANES
def lnSpare (k : Nat) : Fld := if k < 8 then NFP_PORT_STATUS_SPARE_IN k else if k = 8 then STR_LINK_STATUS_SPARE_IN else TWN_LINK_STATUS_SPARE_IN

/-- The lanes of a link without its spare (R378, R408, R457). -/
def lnWidth (k : Nat) : Nat := if k = 9 then 8 else 4

/-- The last step of a link's bring-up (Tables 13.1, 14.1, 16.2; four in Ethernet mode, R381). -/
def Dev.lnSteps (d : Dev) (k : Nat) : Nat := if k = 8 then 4 else if k < 8 ∧ d.portEth k then 4 else 5

/-- Whether the receive agent of a port's control die is in service (R491). -/
def Dev.portServed (d : Dev) (p : Nat) : Bool := !d.nfp.rxDead.contains (p / 4)

/-- Whether a link is enabled: a port and the twin link by EN, Strait always. -/
def Dev.lnOn (d : Dev) (k : Nat) : Bool :=
  if k < 8 then d.rd (NFP_PORT_CTRL_EN k) == 1 else if k = 8 then true else d.rd TWN_CTRL_EN == 1

/-- Whether a link carries traffic: UP or DEGRADED. -/
def Dev.lnUp (d : Dev) (k : Nat) : Bool := d.rd (lnState k) == 2 || d.rd (lnState k) == 3

/-- The device with a link's layer changed. -/
def Dev.updLink (d : Dev) (k : Nat) (f : Link → Link) : Dev := d.setLink k (f (d.link k))

/-- Whether the spare lane that a link shares or owns is unused (R379, R409, R457). -/
def Dev.spareFree (d : Dev) (k : Nat) : Bool :=
  d.rd (lnSpare k) == 0 && (8 ≤ k || d.rd (lnSpare (Nat.xor k 1)) == 0)

/-- RAS_SUMMARY shows which spare lanes are unused (Table 17.6). -/
def Dev.spareSync (d : Dev) : Dev :=
  let m := [0, 1, 2, 3].foldl (fun m i => if d.spareFree (2 * i) then m + 2 ^ i else m) 0
  ((d.wr RAS_SUMMARY_NFP_SPARE m).wr RAS_SUMMARY_STR_SPARE (if d.spareFree 8 then 1 else 0)).wr RAS_SUMMARY_TWN_SPARE (if d.spareFree 9 then 1 else 0)

/-- The event of a link: class FABRIC for a port, HOST for Strait with its STATE, TWIN for the twin link (Table 18.2). -/
def Dev.linkEvent (d : Dev) (k ev sev lane : Nat) : Dev :=
  if k < 8 then d.event 8 sev ev k lane 0 0
  else if k = 8 then d.event 9 sev 1 0 0 (d.rd (lnState k)) 0
  else d.event 11 sev 1 0 d.twn.tseq (d.rd (lnState k)) 0

/-- A link starts its bring-up from step 1 (R381, R410, R457). -/
def Dev.startLink (d : Dev) (k : Nat) : Dev :=
  let d := (((d.wr (lnState k) 1).wr (lnLanes k) 0).wr (lnSpare k) 0).updLink k fun l => { ethLatch := l.ethLatch, step := 1 }
  d.spareSync

/-- What Strait's loss does: every outstanding request to the host ends RESOURCE_LOST (R411). -/
def Dev.straitLost (d : Dev) : Dev :=
  let rs := d.str.reqs
  let d := { d with str := { d.str with reqs := [] } }
  rs.foldl (fun d r =>
    let d := match r.op with
      | some op => d.finish op .resourceLost
      | none => d
    match r.core with
    | some c => d.endTask c .resourceLost
    | none => d) d

/-- A link goes DOWN, or FAILED: nothing of its retry buffer is kept (R380, R385, R411, R476, R477). -/
def Dev.linkDown (d : Dev) (k st : Nat) : Dev :=
  let d := (((d.wr (lnState k) st).wr (lnLanes k) 0).wr (lnSpare k) 0).updLink k fun l => { ethLatch := l.ethLatch, downAt := d.now }
  let d := (d.spareSync).linkEvent k 3 2 0
  if k < 8 then d.wr (NFP_PORT_STATUS_PARTNER k) 0
  else if k = 8 then d.straitLost
  else d.partnerLost 3

/-- SHAKE256 over the object digests of the SEALED entries in index order (R479). -/
def Dev.dirDigest (d : Dev) : BitVec 256 :=
  digest256 ((List.range 65536).flatMap fun i => match d.direntIn i 2 with
    | some e => leBytes 32 e.digest.toNat
    | none => [])

/-- The checks of LINKING, once the partner's identity is known: a failure ends PAIR with cause 9, else both modules are SEEDING (R479, R480). -/
def Dev.pairCheck (d : Dev) : Dev :=
  match d.twn.partnerId with
  | none => d
  | some (role, dig) =>
    if d.twState ≠ 1 then d
    else
      let mine := d.rd TWN_STATUS_ROLE
      let live := if mine = 1 then !d.fe.contexts.isEmpty else d.twn.partnerLive
      if role = mine ∨ dig ≠ d.dirDigest ∨ live then d.pairEnd .aborted 0 9
      else d.setTwin 2 0

/-- The identity that the partner sends at the end of the twin link's bring-up: its ROLE, its directory digest and whether it holds a live context, none of which this module decides (R457, R479, DESIGN CHOICE, assumption 4). -/
def Dev.twinIdentity (d : Dev) : Dev :=
  let (w, d) := d.free
  let dig := Config.freeLine d.fresh
  let d := { d with fresh := d.fresh + 1 }
  (d.updTwn fun t => { t with partnerId := some (w.toNat % 2, dig), partnerLive := w.getLsbD 1 }).pairCheck

/-- A link is UP at the end of its bring-up (R381, R410, R457). -/
def Dev.linkUp (d : Dev) (k : Nat) : Dev :=
  let spare := 8 ≤ k || d.rd (NFP_PORT_CTRL_SPARE_EN k) == 1
  let d := ((d.wr (lnState k) 2).wr (lnLanes k) (lnWidth k)).updLink k fun l =>
    { ethLatch := l.ethLatch, credits := [512, 512, 512, 512], spareTrained := spare }
  if k < 8 then (d.wr (NFP_PORT_STATUS_PARTNER k) (if d.portEth k then 2 else 1)).flushSqs
  else if k = 8 then { d with boot := { d.boot with straitUp := true } }.raiseInt 0
  else d.twinIdentity

/-- A link that has retrained carries traffic again and replays its retry buffer (R385). -/
def Dev.linkBack (d : Dev) (k : Nat) : Dev :=
  let d := d.wr (lnState k) (if d.rd (lnLanes k) = lnWidth k then 2 else 3)
  let l := d.link k
  let d := d.updLink k fun l => { l with step := 0, nakRun := 0 }
  let d := match l.retry with
    | [] => d
    | s :: _ => (d.send (.replay k s)).inc (lnReplays k)
  if k < 8 then d.flushSqs else d

/-- A link loses a lane that no spare replaces: DEGRADED on the rest, or DOWN after a second loss (R380, R409, R457). -/
def Dev.dropLane (d : Dev) (k lane : Nat) : Dev :=
  if d.rd (lnLanes k) < lnWidth k then d.linkDown k 5
  else
    let d := ((d.wr (lnLanes k) (lnWidth k - 1)).wr (lnState k) 3).linkEvent k 2 2 lane
    if k = 8 then d.raiseInt 0 else d

/-- EN of a port rises: its mode is latched and bring-up starts; an Ethernet port without a MAC address stays DISABLED (R378, R381). (DEDUCED, assumption 23) -/
def Dev.portOn (d : Dev) (p : Nat) : Dev :=
  if d.rd (NFP_PORT_CTRL_EN p) = 1 ∨ !d.portServed p then d
  else
    let eth := d.rd (NFP_PORT_CTRL_MODE p) == 1
    let d := (d.wr (NFP_PORT_CTRL_EN p) 1).setLink p { ethLatch := eth }
    if eth ∧ d.rd (NFP_ETH_MAC_ADDR p) = 0 then d.event 8 0 4 p 0 0 0 else d.startLink p

/-- EN of a port falls: the port is DISABLED (R381). -/
def Dev.portOff (d : Dev) (p : Nat) : Dev :=
  let d := ((((d.wr (NFP_PORT_CTRL_EN p) 0).wr (lnState p) 0).wr (lnLanes p) 0).wr (lnSpare p) 0).wr (NFP_PORT_STATUS_PARTNER p) 0
  (d.setLink p {}).spareSync

end Sys2Proof.Machine
end

