-- ==== Sys2Proof/Machine/CollOps.lean ====
section
/-! DEFINITION. The collectives engine: descriptors, the shard tree, contributions and results (R202–R204, R402–R407). -/

namespace Sys2Proof.Machine

/-! ### Descriptors (Table 13.7) -/

/-- Bytes of a descriptor. -/
def collF (c : BitVec 512) (off n : Nat) : Nat := c.toNat / 2 ^ (8 * off) % 2 ^ (8 * n)

/-- The bytes of an element; ALLGATHER and BROADCAST take them from TYPE too (DESIGN CHOICE, assumption 21). -/
def collBytes (c : BitVec 512) : Nat := if redWide (collF c 2 1) then 8 else 4

/-- Whether a descriptor keeps the values of Table 13.7; the manual names no other check of them (DESIGN CHOICE, assumption 21). -/
def collOk (c : BitVec 512) : Bool :=
  decide (collF c 0 1 < 4) && decide (collF c 1 1 < 2) && decide (collF c 2 1 < 4) && decide (collF c 3 1 < 3) &&
  decide (collF c 4 1 < 64) && decide (1 ≤ collF c 6 2) && decide (collF c 6 2 ≤ 32768) &&
  decide (1 ≤ collF c 8 4) && decide (collF c 8 4 ≤ 2 ^ 20) && collF c 56 4 != 0 && collF c 61 3 == 0

/-- What R404 compares: OP, MODE, TYPE, ROP, NRANKS, SHARDS, COLL_ID, COUNT. -/
def collKey (c : BitVec 512) : List Nat :=
  [collF c 0 1, collF c 1 1, collF c 2 1, collF c 3 1, collF c 6 2, collF c 8 4, collF c 20 4, collF c 24 8]

/-- Whether shard ranges are not empty, do not overlap and leave no shard out (R203). -/
def rangesOk (shards : Nat) (rs : List (Nat × Nat)) : Bool :=
  rs.all (fun r => decide (r.1 < r.2) && decide (r.2 ≤ shards)) && (rs.map fun r => r.2 - r.1).sum == shards &&
  rs.all fun r => r.1 == 0 || rs.any fun q => q.2 == r.1

/-- Elements in a chunk, and the chunk of an element (R403). -/
def chunkLen (c : BitVec 512) : Nat := (collF c 24 8 + collF c 6 2 - 1) / collF c 6 2
def chunkOf (c : BitVec 512) (e : Nat) : Nat := e / max 1 (chunkLen c)

/-! ### The shard tree (R202, R203) -/

/-- The levels of the pairwise tree over `n` shards. -/
def treeLevels (n : Nat) : Nat := if n ≤ 1 then 0 else (n - 1).log2 + 1

/-- The value of a node from shard values; none over no shard. -/
def nodeValue (ty op n : Nat) (f : Nat → Nat) : Nat → Nat → Option Nat
  | 0, i => if i < n then some (f i) else none
  | l + 1, i =>
    match nodeValue ty op n f l (2 * i), nodeValue ty op n f l (2 * i + 1) with
    | some a, some b => some (redOp ty op a b)
    | a, none => a
    | none, b => b

/-- The maximal nodes, by level and index, whose shards all lie in a range. -/
def maxNodes (n a b : Nat) : Nat → Nat → List (Nat × Nat)
  | 0, i => if a ≤ i ∧ i < b then [(0, i)] else []
  | l + 1, i =>
    let lo := i * 2 ^ (l + 1)
    let hi := min n ((i + 1) * 2 ^ (l + 1))
    if hi ≤ lo ∨ hi ≤ a ∨ b ≤ lo then []
    else if a ≤ lo ∧ hi ≤ b then [(l + 1, i)]
    else maxNodes n a b l (2 * i) ++ maxNodes n a b l (2 * i + 1)

/-- A node's value completed from the nodes received; none while one is missing. -/
def treeFrom (ty op n : Nat) (got : Nat → Nat → Option Nat) : Nat → Nat → Option Nat
  | 0, i => got 0 i
  | l + 1, i =>
    match got (l + 1) i with
    | some v => some v
    | none =>
      match treeFrom ty op n got l (2 * i) with
      | none => none
      | some a =>
        if n ≤ (2 * i + 1) * 2 ^ l then some a
        else (treeFrom ty op n got l (2 * i + 1)).map (redOp ty op a)

/-! ### Packets -/

/-- The payload of a collective packet: 0 a descriptor, 1 node values, 2 results, 3 gathered elements; COLL_ID; the first element; level and index; the data. The manual gives no layout (DESIGN CHOICE, assumption 21). -/
def collPayload (kind : Nat) (c : BitVec 512) (elem level idx : Nat) (data : List Byte) : List Byte :=
  leBytes 4 kind ++ leBytes 4 (collF c 20 4) ++ leBytes 8 elem ++ leBytes 4 level ++ leBytes 4 idx ++ data

/-- The collective of an operation. -/
def Dev.coll? (d : Dev) (op : Nat) : Option Collective := d.nfp.colls.find? (·.op == op)
def Dev.updColl (d : Dev) (op : Nat) (f : Collective → Collective) : Dev :=
  { d with nfp := { d.nfp with colls := updWhere (·.op == op) f d.nfp.colls } }

/-- The rank of this module in a collective. -/
def Dev.collSelf (d : Dev) (k : Collective) : Nat := d.rd (NFP_JOB_W0_RANK k.job)

/-- A packet of a collective to a rank: chunk `c` leaves by the ports of die c mod 2, or of the die whose engine is left (R402, R491). -/
def Dev.collSend (d : Dev) (k : Collective) (dst chunk : Nat) (payload : List Byte) : Dev :=
  let die := if !d.inService 0x36 then 1 else if !d.inService 0x37 then 0 else chunk % 2
  d.request (collF k.desc 4 1) (5 + 256 * (1 + die)) k.job (some k.op)
    ⟨false, false, dst, d.collSelf k, 0xFFFF, BitVec.ofNat 32 (d.rd (NFP_JOB_W0_EPOCH k.job)), 0, payload.length, 0,
      BitVec.ofNat 64 (d.rd (NFP_JOB_W1_TOKEN k.job)), 0, payload⟩

/-! ### Data (R403, R405, R406) -/

/-- Whether the ranks' descriptors agree and keep R203 and R404. -/
def Dev.collAgrees (d : Dev) (k : Collective) : Bool :=
  let dig := (k.descs.find? (·.1 == d.collSelf k)).map (·.2.2)
  let red := decide (collF k.desc 0 1 < 2)
  k.ranks.eraseDups.length == k.ranks.length && k.ranks.contains (d.collSelf k) &&
  k.descs.all (fun x => collKey x.2.1 == collKey k.desc && some x.2.2 == dig) &&
  (!red || rangesOk (collF k.desc 8 4) (k.descs.map fun x => (collF x.2.1 12 4, collF x.2.1 16 4)))

/-- What this rank contributes to an element of a reduction: node values in ORDERED mode, one fold in ARRIVAL mode. -/
def contributions (c : BitVec 512) (f : Nat → Nat) : List (Nat × Nat × Nat) :=
  let ty := collF c 2 1; let op := collF c 3 1; let n := collF c 8 4; let a := collF c 12 4; let b := collF c 16 4
  if collF c 1 1 = 0 then
    (maxNodes n a b (treeLevels n) 0).filterMap fun p => (nodeValue ty op n f p.1 p.2).map fun v => (p.1, p.2, v)
  else
    match (List.range (b - a)).foldl (fun m i => match m with
        | none => some (f (a + i))
        | some x => some (redOp ty op x (f (a + i)))) (none : Option Nat) with
    | some v => [(255, a, v)]
    | none => []

/-- This rank's values of one element go to their owner, or stay when it is the owner. -/
def Dev.sendElem (d : Dev) (k : Collective) (e : Nat) (vs : List (Nat × Nat × Nat)) : Dev :=
  let ch := chunkOf k.desc e
  let dst := k.ranks.getD ch 0
  vs.foldl (fun d v =>
    if dst = d.collSelf k then
      d.updColl k.op fun k => { k with nodes := k.nodes ++ [(e, v.1, v.2.1, dst, BitVec.ofNat 64 v.2.2)] }
    else d.collSend k dst ch (collPayload 1 k.desc e v.1 v.2.1 (leBytes (collBytes k.desc) v.2.2))) d

/-- An element of a gathering collective goes to every other rank. -/
def Dev.gatherElem (d : Dev) (k : Collective) (pos : Nat) (v : Nat) : Dev :=
  let me := d.collSelf k
  let d := d.updColl k.op fun k => { k with finals := putKey k.finals pos (BitVec.ofNat 64 v) }
  (k.ranks.filter (· != me)).foldl (fun d r => d.collSend k r (chunkOf k.desc pos) (collPayload 3 k.desc pos 0 0 (leBytes (collBytes k.desc) v))) d

/-- The input is read and this rank's part sent, once every descriptor has come and agrees (R404–R406); a page that waits leaves it for the next try. -/
def Dev.collMove (d : Dev) (op : Nat) : Dev :=
  match d.coll? op with
  | none => d
  | some k =>
    if k.moved ∨ k.descs.length < k.ranks.length then d
    else if !d.collAgrees k then d.collEnd op .aborted
    else
      let c := k.desc
      let n := collBytes c
      let count := collF c 24 8
      let rows := collF c 16 4 - collF c 12 4
      let me := d.collSelf k
      let pos := k.ranks.findIdx (· == me)
      let red := collF c 0 1 < 2
      let want := if red then rows * count else if collF c 0 1 = 2 ∨ pos = 0 then count else 0
      match d.vnums k.tag (collF c 32 8) n want with
      | .error (.ended st) => d.collEnd op st
      | .error _ => d
      | .ok (d, xs) =>
        let d := d.updColl op fun k => { k with moved := true }
        if red then
          (List.range count).foldl (fun d e =>
            d.sendElem k e (contributions c fun s => xs.getD ((s - collF c 12 4) * count + e) 0)) d
        else
          (xs.zip (List.range xs.length)).foldl (fun d x => d.gatherElem k ((if collF c 0 1 = 2 then pos * count else 0) + x.2) x.1) d

/-- An element of this rank's own chunk whose values have all come is complete, and an ALLREDUCE sends it to every rank (R405, R406). -/
def Dev.collElem (d : Dev) (op e : Nat) : Dev :=
  match d.coll? op with
  | none => d
  | some k =>
    let c := k.desc
    let me := d.collSelf k
    if 2 ≤ collF c 0 1 ∨ k.ranks.getD (chunkOf c e) 0 ≠ me ∨ (getKey k.finals e).isSome then d
    else
      let mine := k.nodes.filter (·.1 == e)
      let ty := collF c 2 1; let rop := collF c 3 1; let n := collF c 8 4
      let v := if collF c 1 1 = 0 then
          treeFrom ty rop n (fun l i => (mine.find? fun x => x.2.1 == l && x.2.2.1 == i).map (·.2.2.2.2.toNat)) (treeLevels n) 0
        else if k.ranks.all (fun r => mine.any (·.2.2.2.1 == r)) then
          foldSome (redOp ty rop) (mine.map fun x => some x.2.2.2.2.toNat)
        else none
      match v with
      | none => d
      | some v =>
        let d := d.updColl op fun k => { k with
          finals := putKey k.finals e (BitVec.ofNat 64 v), nodes := k.nodes.filter (·.1 != e) }
        if collF c 0 1 = 0 then
          (k.ranks.filter (· != me)).foldl (fun d r => d.collSend k r (chunkOf c e) (collPayload 2 c e 0 0 (leBytes (collBytes c) v))) d
        else d

/-- The elements that this rank writes (R403). -/
def Dev.collOut (d : Dev) (k : Collective) : List Nat :=
  let c := k.desc
  let count := collF c 24 8
  match collF c 0 1 with
  | 1 =>
    let ch := k.ranks.findIdx (· == d.collSelf k)
    (List.range (min (chunkLen c) (count - ch * chunkLen c))).map (ch * chunkLen c + ·)
  | 2 => List.range (k.ranks.length * count)
  | _ => List.range count

/-- A collective whose results have all come writes them and ends once its own sends are answered. -/
def Dev.collDone (d : Dev) (op : Nat) : Dev :=
  match d.coll? op with
  | none => d
  | some k =>
    let outs := d.collOut k
    if !k.moved ∨ !outs.all (fun e => (getKey k.finals e).isSome) ∨ d.nfp.reqs.any (·.op == some op) then d
    else
      let n := collBytes k.desc
      let bytes := outs.flatMap fun e => leBytes n ((getKey k.finals e).getD 0).toNat
      match d.vput k.tag (some op) (collF k.desc 40 8) (bytes.map fun b => (b, false)) (collF k.desc 60 1) with
      | .ok d => d.collEnd op .ok
      | .error (.ended st) => d.collEnd op st
      | .error _ => d

/-- Everything a collective can do now. -/
def Dev.collStep (d : Dev) (op : Nat) : Dev :=
  let d := d.collMove op
  let es : List Nat := match d.coll? op with
    | some k => (k.nodes.map (·.1)).eraseDups
    | none => []
  (es.foldl (fun d e => d.collElem op e) d).collDone op

end Sys2Proof.Machine
end

