-- ==== Sys2Proof/Machine/Nfp.lean ====
section
/-! DEFINITION. The node fabric: requests and answers (R386–R394), jobs and windows (R389–R395), fetches (R397), Ethernet (R401), collectives (R402–R407). (DEDUCED, assumption 22) -/

namespace Sys2Proof.Machine

/-! ### Incoming requests (R393, Table 13.5) -/

/-- A dropped packet is counted and logged (R393, Tables 13.16 and 13.17). -/
def Dev.dropPacket (d : Dev) (cnt : Fld) (check : Nat) (p : Packet) : Dev :=
  let d := ((d.inc cnt).wr NFP_DROP_LOG_EPOCH p.epoch.toNat).wr NFP_DROP_LOG_SRC_RANK p.src
  ((d.wr NFP_DROP_LOG_WIN p.win).wr NFP_DROP_LOG_CHECK check).wr NFP_DROP_LOG_VALID 1

/-- An answer to a request: its EPOCH and TAG, from the rank it went to (R386, R393). -/
def answerTo (p : Packet) (addr len : Nat) (token : Word) (pmask : BitVec 64) (payload : List Byte) : Packet :=
  ⟨false, false, p.src, p.dst, p.win, p.epoch, p.tag, len, addr, token, pmask, payload⟩

/-- A request that fails a check: dropped, counted, and answered NACK with a status (R393). -/
def Dev.nackRequest (d : Dev) (cnt : Fld) (check : Nat) (st : Status) (p : Packet) : Dev :=
  (d.dropPacket cnt check p).sendAnswer 11 (answerTo p 0 0 (BitVec.ofNat 64 (statusCode st)) 0 [])

/-- Whether a window gives the right that a TYPE needs: WR writes, RD reads, ATOM is atomic; a bind window takes WR only. -/
def Dev.winGives (d : Dev) (n kind : Nat) : Bool :=
  if 256 ≤ n then kind == 1
  else match kind with
    | 1 => d.rd (NFP_WIN_W0_W n) == 1
    | 2 => d.rd (NFP_WIN_W0_R n) == 1
    | 3 => d.rd (NFP_WIN_W0_A n) == 1
    | _ => false

/-- The open windows that hold the bytes of a request (check 3). -/
def Dev.winsFor (d : Dev) (p : Packet) : List Nat :=
  d.openWindows.filter fun n =>
    d.rd (NFP_WIN_W0_EPOCH n) == p.epoch.toNat &&
    if p.win = 0xFFFF then
      decide (n < 256) && decide (d.rd (NFP_WIN_RANGE_FIRST n) * frameBytes ≤ p.addr) &&
        decide (p.addr + p.len ≤ (d.rd (NFP_WIN_RANGE_LAST n) + 1) * frameBytes)
    else decide (256 ≤ n) && n == p.win && (d.binding? n).any fun b => decide (p.addr + p.len ≤ b.len)

/-- What the five checks give: the window, or the device after the drop. Of several export windows that hold the bytes, one that passes the later checks serves. -/
def Dev.checkRequest (d : Dev) (kind : Nat) (p : Packet) : Except Dev Nat :=
  match d.jobOf p.epoch.toNat with
  | none => .error (d.nackRequest NFP_DROP_CNT_STALE 1 .epochStale p)
  | some j =>
    if d.rd (NFP_JOB_W0_RANK j) ≠ p.dst then .error (d.nackRequest NFP_DROP_CNT_MISROUTED 2 .resourceLost p)
    else
      let ws := d.winsFor p
      let ts := ws.filter fun n => d.rd (NFP_WIN_W1_TOKEN n) == p.token.toNat
      if ws.isEmpty then .error (d.nackRequest NFP_DROP_CNT_CLOSED 3 .rights p)
      else if ts.isEmpty then .error (d.nackRequest NFP_DROP_CNT_TOKEN 4 .rights p)
      else match ts.find? fun n => d.winGives n kind with
        | none => .error (d.nackRequest NFP_DROP_CNT_RIGHTS 5 .rights p)
        | some n => .ok n

/-- Whether a packet reaches the receive agent of a port: the port is up, its agent lives, and the module takes the world in itself (R455, R491). -/
def Dev.receives (d : Dev) (port : Nat) : Bool := decide (port < 8) && d.portUp port && d.portServed port && !d.isLeeward

/-- A windward forwards what the world wrote; while it seeds, if the frame has been copied already, which before the copy's end a free value decides (R459, R480, DESIGN CHOICE, assumption 4). -/
def Dev.tellWorld (d : Dev) : Dev :=
  if d.isWindward then d.send (.twin d.fe.gdn 11 0)
  else if d.twState = 2 ∧ d.rd TWN_STATUS_ROLE = 0 then
    let (w, d) := d.free
    if d.twn.seedStop ∨ w.getLsbD 0 then d.send (.twin d.fe.gdn 11 0) else d
  else d

/-- A windward forwards what the world answered (R459). -/
def Dev.tellAnswer (d : Dev) : Dev := if d.isWindward then d.send (.twin d.fe.gdn 10 0) else d

/-- Every whole or part line of a written range takes the write's hint (R306, R307, R394). -/
def Dev.installRange (d : Dev) (a n hint : Nat) : Dev :=
  (List.range ((a % 64 + n + 63) / 64)).foldl (fun d i => d.install (a / 64 + i) hint) d

/-- NFP_WR: checked, written at its home or into its binding, acknowledged (R387, R393, R394, R396). -/
def execNfpWr (port : Nat) (p : Packet) : State → Out := run fun d =>
  if !d.receives port then d
  else match d.checkRequest 1 p with
    | .error d => d
    | .ok n =>
      let bs := p.payload.take p.len
      let d := if n < 256 then (d.putMasked p.addr bs p.pmask).installRange p.addr bs.length (d.rd (NFP_WIN_W0_HINT n))
        else d.bindWrite n p.addr bs p.pmask p.final
      d.tellWorld.sendAnswer 8 (answerTo p 0 0 0 0 [])

/-- NFP_RD: checked, and answered with RDATA that marks its poisoned lines (R393, R394). -/
def execNfpRd (port : Nat) (p : Packet) : State → Out := run fun d =>
  if !d.receives port then d
  else match d.checkRequest 2 p with
    | .error d => d
    | .ok _ => d.sendAnswer 9 (answerTo p p.addr p.len 0 (d.maskOf p.addr p.len) (d.bytesAt p.addr p.len))

/-- NFP_ATOM: checked, performed once at its home, and answered ATOMR; a resend that matches a held result gets that again (R187, R387, R388). An operation that Table 6.4 does not list changes nothing. -/
def execNfpAtom (port : Nat) (p : Packet) : State → Out := run fun d =>
  if !d.receives port then d
  else match d.checkRequest 3 p with
    | .error d => d
    | .ok _ =>
      let op := (p.payload.headD 0).toNat
      let wide := decide (128 ≤ op)
      let n := if wide then 8 else 4
      let answer := fun (d : Dev) (v : Nat) =>
        d.sendAnswer 10 (answerTo p p.addr n 0 (if d.poisonAt p.addr then 1 else 0) (leBytes n v))
      let held := d.nfp.held.find? fun h => h.1 == p.src && h.2.1 == p.tag && h.2.2.1 == p.epoch
      match p.retx, held with
      | true, some h => answer d h.2.2.2.1.toNat
      | _, _ =>
        let old := d.natAt p.addr n
        let a := leNat ((p.payload.drop 8).take n)
        let b := leNat ((p.payload.drop (8 + n)).take n)
        let bad := d.poisonAt p.addr
        let d := match atomResult (op % 128) wide old a b with
          | some v => (d.putBytes p.addr (leBytes n v) bad).tellWorld
          | none => d
        let rest := d.nfp.held.filter fun h => !(h.1 == p.src && h.2.1 == p.tag && h.2.2.1 == p.epoch)
        let hs := rest ++ [(p.src, p.tag, p.epoch, BitVec.ofNat 64 old, d.now)]
        answer { d with nfp := { d.nfp with held := hs.drop (hs.length - 4096) } } old

/-- FETCH: this module is no store; a FETCH passes no check of Table 13.5 beyond the fifth, since an export window gives it no right and a bind window takes WR only (R393, R397). -/
def execFetch (port : Nat) (p : Packet) : State → Out := run fun d =>
  if !d.receives port then d
  else match d.checkRequest 4 p with
    | .error d => d
    | .ok _ => d

/-- ATOMR_HOLD_EXPIRY: a held result is given up after 10 ms (R388). -/
def execAtomrHoldExpiry (src : Nat) (tag : Nat) (epoch : BitVec 32) : State → Out := run fun d =>
  { d with nfp := { d.nfp with held := d.nfp.held.filter fun h => !(h.1 == src && h.2.1 == tag && h.2.2.1 == epoch) } }

/-- MGMT: the identity that ends a port's bring-up, or a timed request that the reference of a domain answers on the same port (R209, R210, R381, R393). -/
def execMgmt (port : Nat) (p : Packet) : State → Out := run fun d =>
  if 7 < port then d
  else if d.rd (lnState port) = 1 then
    if !d.portEth port ∧ (d.link port).step = 5 then d.linkUp port else d
  else if !d.portUp port ∨ d.rd NFP_DOM_STATUS_STATE < 2 ∨ d.nfp.dom.ref ≠ d.rd NFP_DOM_CTRL_DRANK then d
  else if d.domRunning then { d with nfp := { d.nfp with mgmt := d.nfp.mgmt ++ [port] } }
  else if d.mute then d
  else d.portSend port 6 (answerTo p 0 0 0 0 [])

/-! ### Answers (R388, R393, R394, R397) -/

/-- The request that an answer is for; an answer of no valid job is dropped and counted, any other without a request discarded (R388, R393). -/
def Dev.answered (d : Dev) (kinds : List Nat) (p : Packet) (f : Dev → NfpReq → Dev) : Dev :=
  if (d.jobOf p.epoch.toNat).isNone then d.dropPacket NFP_DROP_CNT_STALE 1 p
  else match d.nfp.reqs.find? fun r => r.tag == p.tag && r.pkt.epoch == p.epoch && kinds.contains (r.kind % 256) with
    | none => d
    | some r => f d r

/-- A request was answered: it leaves the table, and a copy or collective that waited for it alone goes on. -/
def Dev.answeredOk (d : Dev) (r : NfpReq) : Dev :=
  let d := d.endReq r .ok
  match r.op with
  | none => d
  | some op =>
    match d.op? op with
    | some o =>
      if o.opcode = 3 ∧ o.phase = .running ∧ !d.nfp.reqs.any (·.op == some op) then d.finish op .ok
      else if o.opcode = 5 then d.collStep op
      else d
    | none => d

/-- ACK: a WR, FETCH or collective packet has been taken (R387, R397). -/
def execNfpAck (p : Packet) : State → Out := run fun d => d.answered [1, 4, 5] p fun d r => d.answeredOk r

/-- RDATA: read data returns, with its poison; its consumer takes it by a command of its own (R394). -/
def execRdata (p : Packet) : State → Out := run fun d => d.answered [2] p fun d r => d.tellAnswer.answeredOk r

/-- ATOMR: the value before an atomic returns (R387). -/
def execAtomr (p : Packet) : State → Out := run fun d => d.answered [3] p fun d r => d.tellAnswer.answeredOk r

/-- The statuses by code (Table 12.10). -/
def statusOf (n : Nat) : Status :=
  [Status.ok, .aborted, .fenceCycle, .fenceTimeout, .ringTorn, .handleInvalid, .faultUnresolved, .rights, .tierDataError, .tierLate,
    .barrierOrphan, .poisonConsumed, .resourceLost, .notPermitted, .busy, .targetReset, .epochStale, .tallyMismatch,
    .pairingRefused].getD n .aborted

/-- A FETCH that its store refuses makes the copy BAD, KIND 2 (R280, R397). -/
def Dev.fetchNack (d : Dev) (r : NfpReq) : Dev :=
  match (d.binding? r.pkt.win).bind (·.fill) with
  | none => d
  | some id =>
    match d.copy? id with
    | none => d
    | some c => (d.makeBad id ((c.start + leNat ((r.pkt.payload.drop 24).take 8)) / stripeBytes) 2).tierSettle

/-- NACK: a request ends with the status it names (R393, R397). -/
def execNack (p : Packet) : State → Out := run fun d => d.answered [1, 2, 3, 4, 5] p fun d r =>
  if r.kind = 4 then (d.endReq r .ok).fetchNack r
  else d.tellAnswer.endReq r (statusOf (p.token.toNat % 256))

/-- REQUEST_TIMEOUT: an unanswered request goes out again with RETX, or ends RESOURCE_LOST after RETRIES resends (R388). -/
def execRequestTimeout (tag : Nat) : State → Out := run fun d =>
  match d.nfp.reqs.find? (·.tag == tag) with
  | none => d
  | some r =>
    if d.rd NFP_CTRL_RETRIES ≤ r.resends then d.endReq r .resourceLost
    else
      let d := { d with nfp := { d.nfp with reqs := updWhere (·.tag == tag) (fun r => { r with resends := r.resends + 1, sentAt := d.now }) d.nfp.reqs } }
      let sq := if r.kind = 4 then d.rd NFP_CTRL_TIER_SQ
        else if r.kind % 256 = 5 then (r.op.bind d.coll?).elim (d.jobSq r.job) fun k => collF k.desc 4 1
        else d.jobSq r.job
      d.enqueueSq sq r.kind { r.pkt with retx := true }

/-! ### Jobs and windows (R389, R390, R392, R395) -/

/-- JOB_END: VALID of a job entry is cleared (R390). -/
def execJobEnd (j : Nat) : State → Out :=
  regCmd (NFP_JOB_W0_VALID j).reg 0 fun d => if 15 < j ∨ d.rd (NFP_JOB_W0_VALID j) = 0 then d else (d.endJob j).tellDecision

/-- Whether an export window's range may open: in HBM available to allocation, in order, and off every reserve frame (Table 13.15). -/
def Dev.rangeOpens (d : Dev) (n : Nat) : Bool :=
  let a := d.rd (NFP_WIN_RANGE_FIRST n)
  let b := d.rd (NFP_WIN_RANGE_LAST n)
  decide (a ≤ b) && inAlloc (a * frameBytes) ((b + 1 - a) * frameBytes)

/-- A write of word 0 of NFP_WIN[n]: discarded while the window is open unless it closes it; OPEN takes effect on an export window of a valid job whose range may open; none when it is discarded (R392, R395, Table 13.14). -/
def Dev.winWrite (d : Dev) (n : Nat) (v : Word) : Option Dev :=
  let off := (NFP_WIN_W0_OPEN n).reg
  let isOpen := d.rd (NFP_WIN_W0_OPEN n) == 1
  let bound := d.rd (NFP_WIN_W0_BOUND n)
  if isOpen ∧ (v.getLsbD 0 ∨ 256 ≤ n) then none
  else
    let d := ((d.plainWrite off v).wr (NFP_WIN_W0_OPEN n) 0).wr (NFP_WIN_W0_BOUND n) bound
    some (if v.getLsbD 0 ∧ n < 256 ∧ (d.jobOf (d.rd (NFP_WIN_W0_EPOCH n))).isSome ∧ d.rangeOpens n then d.wr (NFP_WIN_W0_OPEN n) 1 else d)

/-- A write of NFP_WIN[n] as a command of its own: discarded, or done and told to the partner. -/
def Dev.winCmd (d : Dev) (n : Nat) (v : Word) : Dev :=
  d.orDiscard (NFP_WIN_W0_OPEN n).reg v ((d.winWrite n v).map Dev.tellDecision)

/-- EXPORT_WINDOW_OPEN: a write of NFP_WIN[n] that sets OPEN. -/
def execExportWindowOpen (n : Nat) (v : Word) : State → Out :=
  regCmd (NFP_WIN_W0_OPEN n).reg v fun d => if 255 < n then d else d.winCmd n (v ||| 1)

/-- EXPORT_WINDOW_CLOSE: a write of NFP_WIN[n] that clears OPEN and keeps the rest. -/
def execExportWindowClose (n : Nat) : State → Out :=
  regCmd (NFP_WIN_W0_OPEN n).reg 0 fun d =>
    if 255 < n then d else d.winCmd n (withField (d.word (NFP_WIN_W0_OPEN n).reg) 0 0 0)

/-! ### Collectives (R402–R407) -/

/-- COLLECTIVE: the descriptors of all ranks are exchanged; given again while its input waits for a page, it goes on (R402, R404). -/
def execCollective (op : Nat) : State → Out := run fun d =>
  match d.ready? op 5 with
  | none => d.collStep op
  | some o =>
    let c : BitVec 512 := BitVec.ofNat 512 (leNat o.cb)
    let job := collF c 5 1
    if !collOk c then d.conclude op .aborted 0x82
    else match d.vnums o.tag (collF c 48 8) 2 (collF c 6 2) with
      | .error (.ended st) => d.conclude op st
      | .error _ => d
      | .ok (d, ranks) =>
        let dig := digest256 (ranks.flatMap (leBytes 2))
        let me := d.rd (NFP_JOB_W0_RANK job)
        let k : Collective := ⟨op, o.tag, job, c, ranks, false, [], [(me, c, dig)], []⟩
        let d := (d.begin op)
        let d := { d with nfp := { d.nfp with colls := d.nfp.colls ++ [k] } }
        let d := d.wr NFP_COLL_STATUS_INFLIGHT d.nfp.colls.length
        let others := (ranks.filter (· != me)).eraseDups
        let d := others.foldl (fun d r => d.collSend k r 0 (collPayload 0 c 0 0 0 (leBytes 64 c.toNat ++ leBytes 32 dig.toNat))) d
        if ranks.eraseDups.length ≠ ranks.length ∨ !ranks.contains me then d.collEnd op .aborted else d.collStep op

/-- COLL: a descriptor, node values, results or gathered elements of a collective in flight; anything else is late, dropped and counted; at a leeward the packet is what its windward forwards (R404–R407, R455). -/
def execColl (port : Nat) (p : Packet) : State → Out := run fun d =>
  if !d.isLeeward && !(decide (port < 8) && d.portUp port && d.portServed port) then d
  else match d.jobOf p.epoch.toNat with
    | none => d.nackRequest NFP_DROP_CNT_STALE 1 .epochStale p
    | some j =>
      if d.rd (NFP_JOB_W0_RANK j) ≠ p.dst then d.nackRequest NFP_DROP_CNT_MISROUTED 2 .resourceLost p
      else
        let f := fun off n => leNat ((p.payload.drop off).take n)
        match d.nfp.colls.find? fun k => k.job == j && collF k.desc 20 4 == f 4 4 with
        | none => d.inc NFP_DROP_CNT_COLL
        | some k =>
          let n := collBytes k.desc
          let e := f 8 8
          let vals := chunks n ((p.payload.length - 24) / n) (p.payload.drop 24)
          let take := fun (k : Collective) =>
            match f 0 4 with
            | 0 => { k with descs := if k.descs.any (·.1 == p.src) then k.descs
                                     else k.descs ++ [(p.src, BitVec.ofNat 512 (f 24 64), BitVec.ofNat 256 (f 88 32))] }
            | 1 => { k with nodes := k.nodes ++ (vals.zip (List.range vals.length)).map fun v => (e + v.2, f 16 4, f 20 4, p.src, BitVec.ofNat 64 v.1) }
            | _ => { k with finals := (vals.zip (List.range vals.length)).foldl (fun l v => putKey l (e + v.2) (BitVec.ofNat 64 v.1)) k.finals }
          ((d.updColl k.op take).sendAnswer 8 (answerTo p 0 0 0 0 [])).collStep k.op

/-- COLLECTIVE_TIMEOUT: contributions are missing at TIMEOUT_MS (R407). -/
def execCollectiveTimeout (op : Nat) : State → Out := run fun d => d.collEnd op .resourceLost

/-! ### Ethernet (R401) -/

/-- ETHERNET_FRAME: a frame is accepted, its packet being the next command, or dropped and counted (Table 13.6). -/
def execEthernetFrame (port : Nat) (dst : Nat) (etype : Nat) (vlans : Nat) (p : Packet) : State → Out := run fun d =>
  if 7 < port ∨ !d.portUp port ∨ !d.portEth port then d
  else
    let nfp := dst = d.rd (NFP_ETH_MAC_ADDR port) ∧ etype = d.rd NFP_CTRL_ETYPE ∧ p.payload.length ≤ 9216
    let ptp := dst = 0x011B19000000 ∧ etype = 0x88F7
    if vlans ≤ 1 ∧ (nfp ∨ ptp) then d else d.inc NFP_DROP_CNT_ETH

end Sys2Proof.Machine
end

