-- ==== Sys2Proof/Machine/Domain.lean ====
section
/-! DEFINITION. Deterministic domains: the domain clock and its states (R206–R211), the schedule tick (R212), slot tables (R214–R216, R400), coordinated throttling (R219–R222). (DEDUCED, assumption 24) -/

namespace Sys2Proof.Machine

/-! ### The domain's state -/

/-- The device with its domain changed. -/
def Dev.updDom (d : Dev) (f : Domain → Domain) : Dev := { d with nfp := { d.nfp with dom := f d.nfp.dom } }

/-- NFP_DOM_STATUS.STATE: 0 OFF, 1 COARSE, 2 FINE, 3 LOCKED, 4 RUNNING (Table 7.4). -/
def Dev.domState (d : Dev) : Nat := d.rd NFP_DOM_STATUS_STATE

/-- Whether this member is the reference. -/
def Dev.isRef (d : Dev) : Bool := d.nfp.dom.ref == d.rd NFP_DOM_CTRL_DRANK

/-- The ARITH divisor in force from now on (R547, Tables 7.11 and 20.9). -/
def Dev.setDiv (d : Dev) (v : Nat) : Dev :=
  if d.rd PWR_THROTTLE_DIV_NOW = v then d
  else ((d.wr PWR_THROTTLE_DIV_NOW v).wr NFP_DOM_STATUS_DIV_NOW v).inc PWR_THROTTLE_SWITCHES

/-- Whether a write of NFP_DOM_CTRL that sets ENABLE keeps R206. -/
def domCtrlOk (v : Word) : Bool :=
  let m := fieldOf v 31 22
  decide (1 ≤ m) && decide (m ≤ 512) && decide (fieldOf v 21 13 < m) && decide (fieldOf v 12 4 < m) &&
    decide (fieldOf v 46 32 + m ≤ 32768) && decide (16 ≤ fieldOf v 63 48)

/-- The member is OFF: its ticks and slot tables stop, and a domain launch loses its timing (R207). -/
def Dev.domOff (d : Dev) : Dev :=
  let d := if d.seq.launch.any (·.startTick.isSome) then d.tdLose 9 else d
  (((d.wr NFP_DOM_STATUS_STATE 0).wr NFP_DOM_TICK_TICK 0).updDom fun _ => {}).flushSqs

/-- A write of NFP_DOM_CTRL: none when it breaks R206 or leaves a field out of its range; ENABLE joins the domain in COARSE or leaves it (R206, R207, R576). -/
def Dev.domCtrl (d : Dev) (v : Word) : Option Dev :=
  let off := NFP_DOM_CTRL_ENABLE.reg
  let m := fieldOf v 31 22
  if m = 0 ∨ 512 < m ∨ fieldOf v 63 48 < 16 ∨ 32768 < fieldOf v 46 32 + m then none
  else if !v.getLsbD 0 then
    let d' := d.plainWrite off v
    some (if d.domState = 0 then d' else d'.domOff)
  else if d.domState ≠ 0 ∨ !domCtrlOk v then none
  else some (((d.plainWrite off v).wr NFP_DOM_STATUS_STATE 1).updDom fun m => { m with ref := fieldOf v 12 4 })

/-- NFP_DOM_CTRL_WRITE: discarded, or done and told to the partner. -/
def execNfpDomCtrlWrite (v : Word) : State → Out := regCmd NFP_DOM_CTRL_ENABLE.reg v fun d =>
  d.orDiscard NFP_DOM_CTRL_ENABLE.reg v ((d.domCtrl v).map Dev.tellDecision)

/-- A member enters FINE; the reference is LOCKED in the same cycle (R207, R208). -/
def Dev.enterFine (d : Dev) : Dev :=
  let d := (d.wr NFP_DOM_STATUS_STATE (if d.isRef then 3 else 2))
  d.updDom fun m => { m with within20 := 0, beyond1us := 0, ptpRun := 0 }

/-- The domain clock stepped by a whole number of SLOW cycles. -/
def Dev.stepClock (d : Dev) (n : Int) : Dev := d.updDom fun m => { m with clock := ((m.clock : Int) + n).toNat % 2 ^ 64 }

/-- PTP_MESSAGE: in COARSE, a Sync message steps the domain clock by the offset; the sixteenth in a row within 1 µs enters FINE (R207, R209). -/
def execPtpMessage (port : Nat) (isSync : Bool) (offsetNs : Int) : State → Out := run fun d =>
  if 7 < port ∨ !d.portUp port ∨ d.rd NFP_PTP_CTRL_ENABLE = 0 ∨ d.rd NFP_PTP_CTRL_PORTS / 2 ^ port % 2 = 0 ∨ d.domState ≠ 1 ∨ !isSync then d
  else
    let near := -1000 ≤ offsetNs ∧ offsetNs ≤ 1000
    let n := if near then d.nfp.dom.ptpRun + 1 else 0
    let d := (d.stepClock (-(offsetNs / 10))).updDom fun m => { m with ptpRun := n }
    if 16 ≤ n then d.enterFine else d

/-! ### Fine synchronisation (R210, R211) -/

/-- The mean of the offsets held. -/
def meanOf (l : List Int) : Int := if l.isEmpty then 0 else l.foldl (· + ·) 0 / l.length

/-- The trim of the root PLL moved one step towards a mean of 0, within ±200 ppm; at the bound it is held, with an event (R210). -/
def Dev.trimStep (d : Dev) (mean : Int) : Dev :=
  let t := sgn 32 (d.rd NFP_DOM_SYNC_TRIM)
  let t' := if 0 < mean then t + 1 else if mean < 0 then t - 1 else t
  let t'' := max (-20000) (min 20000 t')
  let atEnd := t'' = 20000 ∨ t'' = -20000
  let d := d.wr NFP_DOM_SYNC_TRIM (unsgn 32 t'')
  let d := if atEnd ∧ !d.nfp.dom.trimHeld then d.event 13 2 1 (d.rd NFP_DOM_CTRL_DRANK) (unsgn 64 mean) 0 0 else d
  d.updDom fun m => { m with trimHeld := decide atEnd }

/-- An exchange that gave an offset (R207, R210). -/
def Dev.measured (d : Dev) (off : Int) : Dev :=
  let offs := (off :: d.nfp.dom.offsets).take 8
  let mean := meanOf offs
  let d := (d.inc NFP_DOM_SYNC_MEASURES).wr NFP_DOM_STATUS_OFFSET (unsgn 16 (max (-32767) (min 32767 mean)))
  let in20 := -20000 ≤ mean ∧ mean ≤ 20000
  let out1 := mean < -1000000 ∨ 1000000 < mean
  let w := if in20 then d.nfp.dom.within20 + 1 else 0
  let b := if out1 then d.nfp.dom.beyond1us + 1 else 0
  let d := (d.updDom fun m => { m with offsets := offs, within20 := w, beyond1us := b, missed := 0 }).trimStep mean
  let d := if in20 then d else d.tdLose 6
  match d.domState with
  | 2 =>
    let d := d.stepClock (mean / 10000)
    if 8 ≤ w then d.wr NFP_DOM_STATUS_STATE 3 else d
  | _ => if 8 ≤ b then (d.wr NFP_DOM_STATUS_STATE 2).updDom fun m => { m with within20 := 0, beyond1us := 0, lateEntry := decide (d.rd NFP_DOM_START_START ≤ m.clock) } else d

/-- FINE_SYNC_EXCHANGE: an answer gives an offset; the eighth exchange in a row without one takes the next domain rank as reference (R210, R211). -/
def execFineSyncExchange (resp : Option SyncStamps) : State → Out := run fun d =>
  if d.domState < 2 ∨ d.isRef then d
  else match resp with
    | some s => d.measured (((s.t2 - s.t1) - (s.t4 - s.t3)) / 2)
    | none =>
      let n := d.nfp.dom.missed + 1
      if n < 8 then d.updDom fun m => { m with missed := n }
      else
        let r := (d.nfp.dom.ref + 1) % max 1 (d.rd NFP_DOM_CTRL_MEMBERS)
        let d := (d.updDom fun m => { m with missed := 0, ref := r }).tdLose 8
        let d := d.event 13 0 2 (d.rd NFP_DOM_CTRL_DRANK) (unsgn 64 (sgn 16 (d.rd NFP_DOM_STATUS_OFFSET))) r 0
        if d.isRef ∧ d.domState = 2 then d.wr NFP_DOM_STATUS_STATE 3 else d

/-! ### Ticks (R208, R212, R219–R222) -/

/-- The SLOW cycles of a tick at a divisor (R212). -/
def Dev.tickLen (d : Dev) (div : Nat) : Nat := d.rd NFP_DOM_CTRL_TICK_UNITS * div / 2

/-- A loaded bank becomes active at its switch tick, or late at the next boundary after it (R215). -/
def Dev.bankSwitch (d : Dev) (tick : Nat) : Dev :=
  let k := d.rd NFP_SCHED_SWITCH_TICK
  if d.rd NFP_SCHED_STATUS_LOADED = 0 ∨ k = 2 ^ 64 - 1 ∨ tick < k then d
  else
    let d := (d.wr NFP_SCHED_STATUS_ACTIVE (1 - d.rd NFP_SCHED_STATUS_ACTIVE)).wr NFP_SCHED_STATUS_LOADED 0
    if k < tick then d.wr NFP_SCHED_STATUS_LATE_SWITCH 1 else d

/-- The divisor that a member's limits want: 12 in an emergency (R219, R222, R550). -/
def Dev.divWanted (d : Dev) : Nat := if d.rd PWR_THROTTLE_EMERGENCY = 1 then 12 else d.rd PWR_THROTTLE_DIV_WANT

/-- The member's request at a tick boundary: raised at once, lowered only after the hold (R219). -/
def Dev.updRequest (d : Dev) : Dev :=
  let w := d.divWanted
  let hold := 2 ^ (d.rd NFP_DOM_CTRL_HOLD + 7)
  d.updDom fun m =>
    let c8 := if w ≤ 8 then m.upto8 + 1 else 0
    let c10 := if w ≤ 10 then m.upto10 + 1 else 0
    let r := if hold ≤ c8 then 8 else if hold ≤ c10 then min m.request 10 else m.request
    { m with upto8 := min c8 hold, upto10 := min c10 hold, request := max r w }

/-- The SYNC window of a tick: the domain word goes to the reference; the reference announces the largest request of the last tick for the next one (R219, R220). -/
def Dev.syncWindow (d : Dev) (announces : Bool) : Dev :=
  let me := d.rd NFP_DOM_CTRL_DRANK
  let req := d.nfp.dom.request
  if d.isRef then
    let tick := d.rd NFP_DOM_TICK_TICK + 1
    let div := d.nfp.dom.requests.foldl (fun m r => max m r.2) 8
    let start := d.nfp.dom.tickAt + d.tickLen d.nfp.dom.tickDiv
    let d := if announces then
        let d := (d.updDom fun m => { m with announced := m.announced ++ [(tick, div, start)] }).wr NFP_DOM_STATUS_DIV_NEXT div
        if d.mute ∨ d.rd NFP_DOM_CTRL_MEMBERS ≤ 1 then d else d.send (.announce div tick start)
      else d
    d.updDom fun m => { m with requests := putKey m.requests me req }
  else if d.mute then d
  else d.send (.domWord (d.rd NFP_DOM_CTRL_BASE_RANK + d.nfp.dom.ref) req)

/-- A member enters RUNNING at the start of a tick (R207, R208, R547). -/
def Dev.enterRunning (d : Dev) (tick start div : Nat) (late : Bool) : Dev :=
  let d := ((d.wr NFP_DOM_STATUS_STATE 4).wr NFP_DOM_TICK_TICK tick).setDiv div
  let d := d.updDom fun m => { m with tickAt := start, tickDiv := div, lateEntry := false
                                      announced := m.announced.filter fun a => decide (tick < a.1) }
  let d := if late then d.tdLose 6 else d
  (d.bankSwitch tick).updRequest.syncWindow (decide (0 < tick))

/-- DOMAIN_START: the domain clock reaches NFP_DOM_START; a LOCKED member is RUNNING from tick 0, any other enters late (R208). -/
def execDomainStart : State → Out := run fun d =>
  if d.domState = 0 ∨ d.domState = 4 ∨ d.nfp.dom.lateEntry ∨ d.nfp.dom.clock < d.rd NFP_DOM_START_START then d
  else if d.domState = 3 then d.enterRunning 0 (d.rd NFP_DOM_START_START) (d.rd PWR_THROTTLE_DIV_NOW) false
  else d.updDom fun m => { m with lateEntry := true }

/-- The next tick of a RUNNING member: at the divisor announced for it, or at the present one when that was missed (R212, R220–R222). -/
def Dev.nextTick (d : Dev) : Dev :=
  let tick := d.rd NFP_DOM_TICK_TICK + 1
  let m := d.nfp.dom
  let d := d.wr NFP_DOM_TICK_TICK tick
  let d := match m.announced.find? (·.1 == tick) with
    | some (_, div, start) =>
      let d := d.updDom fun m => { m with tickAt := start, tickDiv := div, announced := m.announced.filter fun a => decide (tick < a.1) }
      if d.rd PWR_THROTTLE_EMERGENCY = 1 then d else d.setDiv div
    | none =>
      let d := d.updDom fun x => { x with tickAt := m.tickAt + d.tickLen m.tickDiv }
      if tick < 2 then d else d.tdLose 5
  (d.bankSwitch tick).updRequest.syncWindow true

/-- TICK_BOUNDARY: a tick begins on a RUNNING member; a LOCKED one that is late enters with the tick that an announcement names, the reference at its own count (R208, R212). -/
def execTickBoundary : State → Out := run fun d =>
  let m := d.nfp.dom
  match d.domState with
  | 4 => d.nextTick
  | 3 =>
    if !m.lateEntry then d
    else if d.isRef then
      let div := d.rd PWR_THROTTLE_DIV_NOW
      let len := max 1 (d.tickLen div)
      let n := (m.clock - d.rd NFP_DOM_START_START) / len
      d.enterRunning n (d.rd NFP_DOM_START_START + n * len) div true
    else match m.announced.head? with
      | some (tick, div, start) => d.enterRunning tick start div true
      | none => d
  | _ => d

/-- DOMAIN_WORD: the reference takes a member's requested divisor (R219, R220). -/
def execDomainWord (rank : Nat) (div : Nat) : State → Out := run fun d =>
  let r := rank - d.rd NFP_DOM_CTRL_BASE_RANK
  if d.domState ≠ 4 ∨ !d.isRef ∨ rank < d.rd NFP_DOM_CTRL_BASE_RANK ∨ d.rd NFP_DOM_CTRL_MEMBERS ≤ r ∨ !([8, 10, 12].contains div) then d
  else d.updDom fun m => { m with requests := putKey m.requests r div }

/-- ANNOUNCEMENT: a member learns the divisor and the start of a tick to come (R208, R220, R221). -/
def execAnnouncement (div : Nat) (tick : Nat) (start : Nat) : State → Out := run fun d =>
  if d.domState < 3 ∨ d.isRef ∨ !([8, 10, 12].contains div) ∨ (d.domState = 4 ∧ tick ≤ d.rd NFP_DOM_TICK_TICK) then d
  else
    let rest := d.nfp.dom.announced.filter fun a => a.1 != tick && (d.domState == 4)
    (d.updDom fun m => { m with announced := rest ++ [(tick, div, start)] }).wr NFP_DOM_STATUS_DIV_NEXT div

/-! ### Slot tables (R214–R216, R400) -/

/-- The fields of a slot entry (Table 7.7). -/
def slotClass (e : Word) : Nat := fieldOf e 62 61
def slotStart (e : Word) : Nat := fieldOf e 31 16
def slotLen (e : Word) : Nat := fieldOf e 15 0

/-- The entries of a port in use: those before the first invalid one. -/
def slotsInUse (es : List Word) : List Word := es.takeWhile fun e => e.getLsbD 63

/-- The fault of an entry that follows units already taken up to `from_`: a code of ERR (Table 7.17). -/
def slotErr (units from_ last : Nat) (e : Word) : Nat :=
  if 2 ≤ slotClass e ∨ fieldOf e 39 32 ≠ 0 then 1
  else if slotStart e < 4 then 2
  else if slotStart e < from_ ∨ (last ≠ 0 ∧ slotStart e ≤ last) then 3
  else if units < slotStart e + slotLen e then 4
  else 0

/-- The first fault of a port's entries: its place and code. -/
def firstErr (units : Nat) : Nat → Nat → Nat → List Word → Option (Nat × Nat)
  | _, _, _, [] => none
  | i, from_, last, e :: r =>
    match slotErr units from_ last e with
    | 0 => firstErr units (i + 1) (slotStart e + slotLen e) (slotStart e) r
    | c => some (i, c)

/-- The entry of a bank. -/
def Dev.slot (d : Dev) (bank port e : Nat) : Word := sget (fun _ => 0) d.nfp.slots ((bank * 8 + port) * 256 + e)

/-- LOAD: the image at NFP_SCHED_ADDR is checked and copied into the inactive banks, or refused as a whole with its first failing entry (R215, Table 7.17). -/
def execSchedLoad : State → Out := regCmd NFP_SCHED_ADDR_LOAD.reg 1 fun d =>
  let a := d.rd NFP_SCHED_ADDR_ADDR * 2 ^ 14
  let d := d.wr NFP_SCHED_ADDR_LOAD 0
  let refuse := fun (d : Dev) (i c : Nat) => (d.wr NFP_SCHED_STATUS_ERR_INDEX i).wr NFP_SCHED_STATUS_ERR c
  if poolTop < a + 16384 ∨ d.poisonIn a 16384 then refuse d 0 5
  else
    let entries := fun p => (List.range 256).map fun e => BitVec.ofNat 64 (d.natAt (a + p * 2048 + e * 8) 8)
    let units := d.rd NFP_DOM_CTRL_TICK_UNITS
    match (List.range 8).findSome? fun p => (firstErr units 0 0 0 (slotsInUse (entries p))).map fun x => (p * 256 + x.1, x.2) with
    | some (i, c) => refuse d i c
    | none =>
      let bank := 1 - d.rd NFP_SCHED_STATUS_ACTIVE
      let lo := bank * 2048
      let fresh := (List.range 8).foldl (fun t p => ((entries p).zip (List.range 256)).foldl (fun t x =>
        sput (fun _ => 0) t ((bank * 8 + p) * 256 + x.2) x.1) t) (sclear d.nfp.slots lo (lo + 2048))
      (refuse { d with nfp := { d.nfp with slots := fresh } } 0 0).wr NFP_SCHED_STATUS_LOADED 1

/-- The active entries of a port in use. -/
def Dev.activeSlots (d : Dev) (p : Nat) : List Word :=
  slotsInUse ((List.range 256).map fun e => d.slot (d.rd NFP_SCHED_STATUS_ACTIVE) p e)

/-- The packets of a queue to a rank that a port may send within a budget of bytes on the line, in order; the rest, if any, waits. -/
def Dev.sendBudget (d : Dev) (p sq rank : Nat) : Nat → List (Nat × Nat × Packet) → Dev × Bool
  | _, [] => (d, false)
  | budget, q :: r =>
    if q.1 ≠ sq ∨ q.2.2.dst ≠ rank then
      d.sendBudget p sq rank budget r
    else
      let n := nfpFlits q.2.2 * 256
      if budget < n ∨ !d.portTakes p q.2.1 q.2.2 then (d, true)
      else
        let d := { d.portSend p q.2.1 q.2.2 with nfp := { (d.portSend p q.2.1 q.2.2).nfp with sqs := d.nfp.sqs.erase q } }
        d.sendBudget p sq rank (budget - n) r

/-- SCHEDULED_SLOT: the port sends from the entry's queue to its rank, up to 8,000 bytes of line time a unit, three quarters of it when DEGRADED; what is late or left over waits, and the slot overruns (R216, R400). -/
def execScheduledSlot (port : Nat) (entry : Nat) (lateData : Bool) : State → Out := run fun d =>
  match (d.activeSlots port)[entry]? with
  | none => d
  | some e =>
    if 7 < port ∨ !d.domRunning ∨ slotClass e ≠ 0 ∨ d.mute then d
    else
      let sq := fieldOf e 45 40
      let budget := slotLen e * 8000 * d.rd (lnLanes port) / 4
      let (d, left) := if d.portUp port then d.sendBudget port sq (fieldOf e 60 46) budget d.nfp.sqs
        else (d, d.nfp.sqs.any fun q => q.1 == sq && q.2.2.dst == fieldOf e 60 46)
      if left ∨ lateData then (d.inc NFP_SCHED_STATUS_OVERRUNS).tdLose 7 else d

/-- Whether some SCHEDULED entry of the active banks names a queue (R400). -/
def Dev.sqScheduled (d : Dev) (sq : Nat) : Bool :=
  (List.range 8).any fun p => (d.activeSlots p).any fun e => slotClass e == 0 && fieldOf e 45 40 == sq

/-- What waits in one send queue leaves by a port as far as the port takes it. -/
def Dev.drainSq (d : Dev) (p sq : Nat) : Dev :=
  (d.nfp.sqs.filter (·.1 == sq)).foldl (fun d q =>
    if (d.portsFor q.2.1 q.2.2.dst).contains p ∧ d.portTakes p q.2.1 q.2.2 then
      let e := d.portSend p q.2.1 q.2.2
      { e with nfp := { e.nfp with sqs := e.nfp.sqs.erase q, lastSq := putKey e.nfp.lastSq p sq } }
    else d) d

/-- OPEN_SLOT: answers first, then MGMT, then the queues that no schedule names, in turn from the one after the last served (R400). -/
def execOpenSlot (port : Nat) : State → Out := run fun d =>
  if 7 < port ∨ !d.domRunning ∨ !d.portUp port ∨ d.mute ∨ !(d.activeSlots port).any (fun e => slotClass e == 1) then d
  else
    let d := d.nfp.answers.foldl (fun d a =>
      if (d.portsFor a.1 a.2.dst).contains port ∧ d.portTakes port a.1 a.2 then
        let e := d.portSend port a.1 a.2
        { e with nfp := { e.nfp with answers := e.nfp.answers.erase a } }
      else d) d
    let empty : Packet := ⟨false, false, 0, 0, 0xFFFF, 0, 0, 0, 0, 0, 0, []⟩
    let d := (d.nfp.mgmt.filter (· == port)).foldl (fun d _ => d.portSend port 6 empty) d
    let d := { d with nfp := { d.nfp with mgmt := d.nfp.mgmt.filter (· != port) } }
    let last := (getKey d.nfp.lastSq port).getD 63
    ((List.range 64).map fun i => (last + 1 + i) % 64).foldl (fun d sq => if d.sqScheduled sq then d else d.drainSq port sq) d

end Sys2Proof.Machine
end

