-- ==== Sys2Proof/Machine/Links.lean ====
section
/-! DEFINITION. The commands of the link layers: enabling and training, lane loss and repair, flits and NAKs of ports, Strait and the twin link (R378–R385, R408–R410, R457). -/

namespace Sys2Proof.Machine

/-- PORT_ENABLE: the write that sets EN of a port (R381). -/
def execPortEnable (port : Nat) : State → Out :=
  regCmd (NFP_PORT_CTRL_EN port).reg 1 fun d => if 7 < port then d else (d.portOn port).tellDecision

/-- LINK_STEP_TIMEOUT: the bring-up starts again from step 1, or the link is FAILED after three attempts; a retrain that fails leaves it DOWN (R381, R385, R410, R457). -/
def execLinkStepTimeout (link : Nat) : State → Out := act fun d =>
  if 9 < link then d
  else match d.rd (lnState link) with
    | 1 =>
      if 2 ≤ (d.link link).attempt then d.linkDown link 6
      else d.updLink link fun l => { l with step := 1, attempt := l.attempt + 1 }
    | 4 => d.linkDown link 5
    | _ => d

/-- LINK_RESTART: a DOWN link that is enabled starts bring-up again (R380, R410). -/
def execLinkRestart (link : Nat) : State → Out := act fun d =>
  if 9 < link ∨ d.rd (lnState link) ≠ 5 ∨ !d.lnOn link then d else d.startLink link

/-- TRAINING_STEP_COMPLETE: the next step begins, the link is UP after the last one, or back after a retrain; a port in NFP mode ends step 5 with the identity of MGMT (R381, R385). -/
def execTrainingStepComplete (link : Nat) (ok : Bool) : State → Out := act fun d =>
  if 9 < link then d
  else
    let step := (d.link link).step
    match d.rd (lnState link), ok with
    | 1, true =>
      if step < d.lnSteps link then d.updLink link fun l => { l with step := step + 1 }
      else if link < 8 ∧ !d.portEth link then d
      else d.linkUp link
    | 1, false =>
      if 2 ≤ (d.link link).attempt then d.linkDown link 6
      else d.updLink link fun l => { l with step := 1, attempt := l.attempt + 1 }
    | 4, true => if step < 4 then d.updLink link fun l => { l with step := step + 1 } else d.linkBack link
    | 4, false => d.linkDown link 5
    | _, _ => d

/-- LANE_FAILURE: a lane loses lock or corrects too much; the spare is asked for, or the lane is dropped (R380, R409, R457). -/
def execLaneFailure (link : Nat) (lane : Nat) : State → Out := act fun d =>
  if 9 < link ∨ !d.lnUp link ∨ lnWidth link < lane then d
  else if link < 8 ∧ d.portEth link then d.linkDown link 5
  else
    let l := d.link link
    if lane = lnWidth link ∧ d.rd (lnSpare link) = 0 then d.updLink link fun l => { l with spareTrained := false }
    else if l.spareTrained ∧ d.spareFree link ∧ l.repair.isNone ∧ (8 ≤ link ∨ d.rd (NFP_PORT_CTRL_SPARE_EN link) = 1) then
      d.updLink link fun l => { l with repair := some lane }
    else d.dropLane link lane

/-- LANE_REPAIR: both ends move the failed lane's traffic onto the spare at the next flit boundary (R380). -/
def execLaneRepair (link : Nat) : State → Out := act fun d =>
  match (d.link link).repair with
  | none => d
  | some lane =>
    if 9 < link ∨ !d.lnUp link then d
    else
      let d := d.updLink link fun l => { l with repair := none }
      if d.spareFree link then ((d.wr (lnSpare link) 1).spareSync).linkEvent link 1 1 lane else d.dropLane link lane

/-- The retry buffer without the flits that an ACK covers (R384). -/
def ackRetry (retry : List Nat) (ack : Nat) : List Nat := retry.filter fun s => decide (2048 ≤ (ack + 4096 - s) % 4096)

/-- DATA_FLIT: a flit with a bad CRC or after a gap is discarded and answered with one NAK; else its ACK and credits apply and it is delivered (R382–R385, Table 13.2). -/
def execDataFlit (link : Nat) (hdr : Word) (crcOk : Bool) : State → Out := act fun d =>
  if 9 < link ∨ !d.lnUp link ∨ (link < 8 ∧ d.portEth link) then d
  else
    let l := d.link link
    let refuse := fun (d : Dev) => if l.discarding then d
      else (d.send (.nak link l.rxSeq)).updLink link fun l => { l with discarding := true }
    if !crcOk then refuse (d.inc (lnCrc link))
    else
      let ty := fieldOf hdr 63 60
      let vc := fieldOf hdr 59 58
      let cvc := fieldOf hdr 31 30
      let take := fun (d : Dev) =>
        let d := d.updLink link fun l => { l with
          retry := ackRetry l.retry (fieldOf hdr 43 32)
          credits := putAt l.credits cvc (l.credits.getD cvc 0 + fieldOf hdr 29 16) }
        if link < 8 then d.flushSqs else d
      match ty with
      | 0 => take d
      | 1 | 2 =>
        if fieldOf hdr 55 44 ≠ l.rxSeq then refuse d
        else
          let rx := if ty = 2 then l.rx else if fieldOf hdr 56 56 = 1 then l.rx.filter (· != vc) else l.rx ++ [vc]
          take (d.updLink link fun l => { l with rxSeq := (l.rxSeq + 1) % 4096, discarding := false, rx := rx })
      | _ => d

/-- NAK: the sender replays from the named SEQ; the eighth in a row that names it starts a retrain (R385). -/
def execLinkNak (link : Nat) (seq : Nat) : State → Out := act fun d =>
  if 9 < link ∨ !d.lnUp link ∨ (link < 8 ∧ d.portEth link) then d
  else
    let l := d.link link
    let n := if l.nakSeq = seq % 4096 ∧ l.nakRun ≠ 0 then l.nakRun + 1 else 1
    let d := d.updLink link fun l => { l with nakSeq := seq % 4096, nakRun := n }
    if n < 8 then (d.send (.replay link (seq % 4096))).inc (lnReplays link)
    else (d.wr (lnState link) 4).updLink link fun l => { l with nakRun := 0, step := 3 }

end Sys2Proof.Machine
end

