-- ==== Sys2Proof/Machine/MemOps.lean ====
section
/-! DEFINITION. The shared operations of the stacked memory: where a line lies under redirection (R227, R231), errors and soft repair (R243–R248), pseudo-channels taken out, returned and retired (R231–R234, R249–R254). (DEDUCED, assumption 17) -/

namespace Sys2Proof.Machine

/-- The device with its pool changed. -/
def Dev.updPool (d : Dev) (f : Pool → Pool) : Dev := { d with pool := f d.pool }

/-! ### Where a line lies (R227, R228, R231) -/

/-- MEM_PC_STATE.STATE: 0 IN, 1 LEAVING, 2 OUT, 3 RETURNING, 4 RETIRING, 5 RETIRED, 6 FAILED. -/
def Dev.pcState (d : Dev) (p : Nat) : Nat := d.rd (MEM_PC_STATE_STATE p)

/-- The reserve frames in ascending order (R229). -/
def reserveAt (i : Nat) : Nat := i * 95 / 2

/-- Pseudo-channel and byte offset in it of a pool address: its own place, or the reserve share that a redirect entry names (R227, R231). -/
def Dev.placeNow (d : Dev) (a : Nat) : Nat × Nat :=
  let p := placePc a
  match sget (fun _ => 0) d.pool.redirect (p * 196608 + a / 2 ^ 21) with
  | 0 => (p, placeOff a)
  | s + 1 => (s % 512, reserveAt (s / 512) * 4096 + placeOff a % 4096)

/-- A row: pseudo-channel, bank and row as one key (Table 18.2). -/
def rowKey (p bank row : Nat) : Nat := p * 2 ^ 32 + bank * 2 ^ 14 + row

/-- The bank and row of a byte offset in a pseudo-channel (R227). -/
def offBank (off : Nat) : Nat := off / 1024 % 48
def offRow (off : Nat) : Nat := off / 1024 / 48

/-- MEM_ERR_LOG takes an event (Table 8.10). -/
def Dev.memLog (d : Dev) (p off sym kind : Nat) : Dev :=
  let d := ((d.wr MEM_ERR_LOG_PC p).wr MEM_ERR_LOG_BANK (offBank off)).wr MEM_ERR_LOG_ROW (offRow off)
  let d := (d.wr MEM_ERR_LOG_BURST (off % 1024 / 32)).wr MEM_ERR_LOG_SYMBOLS (if 5 < sym then 15 else sym)
  (d.wr MEM_ERR_LOG_KIND kind).wr MEM_ERR_LOG_VALID 1

/-! ### Out of the interleave (R231–R234) -/

/-- The pseudo-channels in one of some states. -/
def Dev.pcsIn (d : Dev) (sts : List Nat) : List Nat := (List.range 512).filter fun p => sts.contains (d.pcState p)

/-- The pseudo-channels that are out of the interleave, or leave it. -/
def Dev.pcsOut (d : Dev) : List Nat := d.pcsIn [1, 2, 3, 4, 5]

/-- MEM_STATUS and HBM_ROOM show the pseudo-channels out (Tables 8.5 and 17.6). -/
def Dev.memSync (d : Dev) : Dev :=
  let r := (d.pcsIn [5]).length
  let n := (d.pcsIn [2, 3, 5]).length
  let d := (d.wr MEM_STATUS_RETIRED r).wr MEM_STATUS_OUT (d.pcsIn [2, 3]).length
  (d.wr MEM_STATUS_RSV_FREE (4096 * (512 - n) - 192512 * n)).wr RAS_SUMMARY_HBM_ROOM (10 - r)

/-- The elements of a rising list that a second rising list does not hold. -/
def riseDiff (used all : List Nat) : List Nat :=
  (all.foldl (fun (u, acc) x =>
    let u := u.dropWhile (· < x)
    if u.head? = some x then (u, acc) else (u, x :: acc)) (used, ([] : List Nat))).2.reverse

/-- The reserve shares that no entry names, in ascending order, without those on pseudo-channels that are retired or out (R231). -/
def Dev.freeShares (d : Dev) (skip : List Nat) : List Nat :=
  let used := ((d.pool.redirect.filter fun e => !(skip.contains ((e.2 - 1) % 512))).map fun e => e.2 - 1).mergeSort (· ≤ ·)
  riseDiff used ((List.range (4096 * 512)).filter fun s => !skip.contains (s % 512))

/-- The frames that are not reserve frames, in ascending order. -/
def plainFrames : List Nat := (List.range 196608).filter fun f => !reserveFrame f

/-- The copy of a pseudo-channel's shares has ended: every share has its target, and entries of other tables that named it have new ones (R231, R233, R234). -/
def Dev.redirectOut (d : Dev) (p : Nat) : Dev :=
  let free := d.freeShares (p :: d.pcsOut)
  let mine := (plainFrames.zip free).map fun x => (p * 196608 + x.1, x.2 + 1)
  let rest := free.drop plainFrames.length
  let (others, _) := d.pool.redirect.foldl (fun (acc, rest) e =>
      if (e.2 - 1) % 512 = p then (acc ++ [(e.1, rest.headD 0 + 1)], rest.drop 1) else (acc ++ [e], rest)) (([] : Sparse Nat), rest)
  let below := others.filter (·.1 < p * 196608)
  let above := others.filter (fun e => (p + 1) * 196608 ≤ e.1)
  d.updPool fun m => { m with redirect := below ++ mine ++ above }

/-- The shares of a pseudo-channel are its own again (R233). -/
def Dev.redirectIn (d : Dev) (p : Nat) : Dev :=
  d.updPool fun m => { m with redirect := sclear m.redirect (p * 196608) ((p + 1) * 196608) }

/-- A copy has written the poisoned lines of a pseudo-channel poisoned at their new places: the last of them stays in the log (R233, Table 8.10). -/
def Dev.copyLog (d : Dev) (p : Nat) : Dev :=
  match (d.pool.poison.filter fun e => placePc (e.1 * 64) == p).getLast? with
  | some e => d.memLog p (placeOff (e.1 * 64)) 0 1
  | none => d

/-! ### Commands and their results (R251, Tables 8.11 and 8.12) -/

/-- The result of a command (Table 8.12). -/
def Dev.mcResult (d : Dev) (st : Status) (op p kind : Nat) : Dev :=
  let d := ((d.wr MEM_MARGIN_RESULT_STATUS (statusCode st)).wr MEM_MARGIN_RESULT_PC p).wr MEM_MARGIN_RESULT_OP op
  (d.wr MEM_MARGIN_RESULT_KIND kind).wr MEM_MARGIN_RESULT_DONE 1

/-- The running command completes with a status (R251). -/
def Dev.mcDone (d : Dev) (st : Status) : Dev :=
  match d.pool.cmd with
  | none => d
  | some (op, p, kind) =>
    let d := ((d.mcResult st op p kind).wr MEM_PC_CMD_GO 0).updPool fun m => { m with cmd := none, sweepLeft := [] }
    d.leaveStep

/-! ### Retirement (R249, R250, R254) -/

/-- A pseudo-channel is RETIRED: entered in the record and reported (R249, R498). -/
def Dev.pcRetired (d : Dev) (p : Nat) : Dev :=
  let d := ((d.wr (MEM_PC_STATE_STATE p) 5).rasAppend 3 0 p 0).memSync
  let d := d.event 3 2 4 p (rowKey p 0 0) 0 0
  if 8 ≤ d.rd MEM_STATUS_RETIRED then d.warn else d

/-- A retirement that would be the eleventh is not made (R250). -/
def Dev.pcFailed (d : Dev) (p : Nat) : Dev :=
  ((d.wr (MEM_PC_STATE_STATE p) 6).wr MEM_STATUS_RSV_EXHAUSTED 1).event 3 2 6 p (rowKey p 0 0) 0 0

/-- A command that margins ends ABORTED, and what it took out returns (R254). -/
def Dev.endMargin (d : Dev) : Dev :=
  let d := d.mcDone .aborted
  ((d.pcsIn [1, 2]).foldl (fun d p => d.wr (MEM_PC_STATE_STATE p) 3) d).memSync

/-- The retirement of a pseudo-channel begins, or is not made (R249, R250, R252, R254). -/
def Dev.retirePc (d : Dev) (p : Nat) : Dev :=
  match d.pcState p with
  | 2 => d.pcRetired p
  | 4 | 5 | 6 => d
  | _ =>
    if 10 ≤ (d.pcsIn [4, 5]).length then d.pcFailed p
    else if d.pcState p = 1 then d.wr (MEM_PC_STATE_STATE p) 4
    else if d.pcState p = 3 then d.updPool fun m => { m with retireWait := m.retireWait ++ [p] }
    else if 10 ≤ d.pcsOut.length then
      (d.endMargin.wr (MEM_PC_STATE_STATE p) 4).updPool fun m => { m with retireWait := m.retireWait ++ [p] }
    else d.wr (MEM_PC_STATE_STATE p) 4

/-- A retirement that the device itself makes, when AUTO_RETIRE is 1 (R249). -/
def Dev.autoRetire (d : Dev) (p : Nat) : Dev := if d.rd MEM_RAS_CTRL_AUTO_RETIRE = 1 then d.retirePc p else d

/-- Retirements that waited for a return go on once there is room (R254). -/
def Dev.retireGo (d : Dev) : Dev :=
  d.pool.retireWait.foldl (fun d p =>
    if d.pcState p = 3 ∨ 10 < d.pcsOut.length then d
    else
      let d := d.updPool fun m => { m with retireWait := m.retireWait.filter (· != p) }
      if d.pcState p = 0 then d.retirePc p else d) d

/-! ### Line reads (R243, R247, Table 8.4) -/

/-- Device times of 1 ms, one hour and 24 hours in SLOW cycles (R8). -/
def msTicks : Nat := 100000
def hourTicks : Nat := 360000000000
def dayTicks : Nat := 8640000000000

/-- Soft post-package repair of a row, or, without a spare row, what R249 says (R247–R249). -/
def Dev.softRepair (d : Dev) (p off : Nat) : Dev :=
  let k := p * 48 + offBank off
  let used := sget (fun _ => 0) d.pool.spareRows k
  if used < 4 then
    let key := rowKey p (offBank off) (offRow off)
    let d := d.updPool fun m => { m with spareRows := sput (fun _ => 0) m.spareRows k (used + 1),
                                         ceLines := m.ceLines.filter (·.1 != key) }
    ((d.inc (MEM_PC_STATE_PPR p)).rasAppend 2 0 p (offBank off * 2 ^ 14 + offRow off)).event 3 1 3 p key 0 0
  else d.autoRetire p

/-- What a read of a line gives besides its data: corrected symbols are counted and written back, an uncorrectable line is poisoned and its row repaired (Table 8.4, R247, R249). (DEDUCED, assumption 18) -/
def Dev.lineRead (d : Dev) (a sym : Nat) : Dev :=
  let l := a / 64
  if !inPool a ∨ reserveFrame (a / 2 ^ 21) ∨ sym = 0 ∨ d.memPoison a then d
  else
    let (p, off) := d.placeNow a
    let key := rowKey p (offBank off) (offRow off)
    let now := d.now
    if sym < 4 then
      let d := (d.inc (MEM_PC_STATE_CE p)).event 3 1 1 p key 0 0
      let d := d.updPool fun m => { m with
        ceLines := (m.ceLines.filter fun e => decide (now < e.2.2 + dayTicks) && !(e.1 == key && e.2.1 == l)) ++ [(key, l, now)]
        ceTimes := (m.ceTimes.filter fun e => decide (now < e.2 + hourTicks)) ++ [(p, now)] }
      let two := d.pool.ceLines.any fun e => e.1 == key && e.2.1 != l
      let d := if two then d.softRepair p off else d
      if d.rd MEM_RAS_CTRL_CE_LIMIT ≤ (d.pool.ceTimes.filter (·.1 == p)).length then d.autoRetire p else d
    else
      let d := (d.inc (MEM_PC_STATE_UE p)).event 3 2 2 p key 0 0
      let d := (d.memLog p off sym 0).updPool fun m => { m with
        poison := sput (fun _ => false) m.poison l true
        ueTimes := (m.ueTimes.filter fun e => decide (now < e.2 + dayTicks)) ++ [(p, now)] }
      let spare := sget (fun _ => 0) d.pool.spareRows (p * 48 + offBank off)
      let d := d.softRepair p off
      let d := if spare < 4 then d.memLog p off sym 1 else d
      if d.rd MEM_RAS_CTRL_UE_LIMIT ≤ (d.pool.ueTimes.filter (·.1 == p)).length then d.autoRetire p else d

/-! ### Margining (R251–R253) -/

/-- Whether the life-cycle state permits margining: TEST, PROVISIONED, FIELD or RMA (Table 19.3). -/
def Dev.marginOpen (d : Dev) : Bool := let s := d.rd SEC_LC_STATE_STATE; decide (1 ≤ s) && decide (s ≤ 4)

/-- The runs of one channel of a sweep in order: the four data kinds of each pseudo-channel, then the command and address timing as kind 4 (R253). -/
def sweepRuns (chan : Nat) : List (Nat × Nat) :=
  ([0, 1, 2, 3].map fun k => (2 * chan, k)) ++ ([0, 1, 2, 3].map fun k => (2 * chan + 1, k)) ++ [(2 * chan, 4)]

/-- A run of a sweep that can be made: its pseudo-channel is OUT, or for the command and address timing either of the two is. -/
def Dev.runOpen (d : Dev) (r : Nat × Nat) : Bool :=
  if r.2 = 4 then d.pcState r.1 == 2 || d.pcState (r.1 + 1) == 2 else d.pcState r.1 == 2

/-- The sweep goes to the next channel with room, or ends (R253). -/
def Dev.sweepNext (d : Dev) : Nat → Dev
  | 0 => d.mcDone .ok
  | n + 1 =>
    match d.pool.sweepLeft with
    | [] => d.mcDone .ok
    | c :: rest =>
      let ps := [2 * c, 2 * c + 1].filter fun p => d.pcState p == 0
      if ps.isEmpty then (d.updPool fun m => { m with sweepLeft := rest }).sweepNext n
      else if 10 < d.pcsOut.length + 2 then d.mcDone .busy
      else ps.foldl (fun d p => d.wr (MEM_PC_STATE_STATE p) 1) d

/-- The first run of some that can be made starts; without one the channel returns, or the sweep goes on (R253). -/
def Dev.sweepRun (d : Dev) (c : Nat) (runs : List (Nat × Nat)) : Dev :=
  match runs.find? d.runOpen with
  | some (p, k) => d.updPool fun m => { m with cmd := some (5, p, k) }
  | none =>
    let out := [2 * c, 2 * c + 1].filter fun p => d.pcState p == 2
    if out.isEmpty then (d.updPool fun m => { m with sweepLeft := m.sweepLeft.drop 1 }).sweepNext 256
    else (out.foldl (fun d p => d.wr (MEM_PC_STATE_STATE p) 3) d).memSync

end Sys2Proof.Machine
end

