-- ==== Sys2Proof/Machine/Mem.lean ====
section
/-! DEFINITION. The commands of the stacked memory: line reads and writes, refresh and retraining, saturation, scrub, parity, and the commands of MEM_PC_CMD (R224–R254). -/

namespace Sys2Proof.Machine

/-- HBM_READ: the line is returned clean, corrected or poisoned, and counted (R243, Table 8.4). -/
def execHbmRead (addr symbols : Nat) : State → Out := run fun d => d.lineRead addr symbols

/-- HBM_WRITE: the line and its poison mark stand in the memory (R225, R244). -/
def execHbmWrite (addr : Nat) (data : BitVec 512) (poisoned : Bool) : State → Out := run fun d =>
  if inPool addr && !reserveFrame (addr / 2 ^ 21) then d.homeWrite (addr / 64) data poisoned else d

/-- PER_BANK_REFRESH: an idle pseudo-channel refreshes ahead or makes up; a refresh that falls due is covered by one made ahead, postponed behind a LAT read, or issued with those postponed (R240). -/
def execPerBankRefresh (pc : Nat) (latWaits idle : Bool) : State → Out := run fun d =>
  if 512 ≤ pc then d
  else
    let post := sget (fun _ => 0) d.pool.postponed pc
    let ahead := sget (fun _ => 0) d.pool.ahead pc
    let issue (n post ahead : Nat) : Dev := d.updPool fun m => { m with
      nextBank := sput (fun _ => 0) m.nextBank pc ((sget (fun _ => 0) m.nextBank pc + n) % 48)
      postponed := sput (fun _ => 0) m.postponed pc post
      ahead := sput (fun _ => 0) m.ahead pc ahead }
    if idle then (if 0 < post then issue 1 (post - 1) ahead else if ahead < 8 then issue 1 0 (ahead + 1) else d)
    else if 0 < ahead then issue 0 post (ahead - 1)
    else if latWaits && post < 8 then issue 0 (post + 1) 0
    else issue (post + 1) 0 0

/-- REFRESH_MANAGEMENT_REQUEST: an extra refresh of the named bank (R226). -/
def execRefreshManagementRequest (pc bank : Nat) : State → Out := run fun d =>
  if pc < 512 ∧ bank < 48 then
    d.updPool fun m => { m with extraRefresh := sput (fun _ => 0) m.extraRefresh (pc * 48 + bank) (sget (fun _ => 0) m.extraRefresh (pc * 48 + bank) + 1) }
  else d

/-- A channel's training has ended well, at its stack's present temperature (R241). -/
def Dev.chanTrained (d : Dev) (chan : Nat) : Dev :=
  let t := sgn 16 (d.rd (PWR_TEMP_NOW (6 + chan / 16)))
  d.updPool fun m => { m with trained := sput (fun _ => 0) m.trained chan d.now, trainTemp := putKey m.trainTemp chan t,
                              lost := m.lost.filter (· / 2 != chan) }

/-- A channel that cannot be trained: both pseudo-channels are retired, or give poisoned lines from then on (R246, R249, R250). -/
def Dev.chanLost (d : Dev) (chan : Nat) : Dev :=
  [2 * chan, 2 * chan + 1].foldl (fun d p =>
    let d := d.autoRetire p
    if d.pcState p = 0 ∨ d.pcState p = 6 then d.updPool fun m => { m with lost := if m.lost.contains p then m.lost else m.lost ++ [p] } else d) d

/-- CHANNEL_RETRAIN: a channel retrains at its offset (R241). -/
def execChannelRetrain (chan : Nat) (ok : Bool) : State → Out := run fun d =>
  if 256 ≤ chan then d else if ok then d.chanTrained chan else d.chanLost chan

/-- SATURATION_WINDOW_END: a saturated window is counted, and recorded when LOG is 1 (R238). -/
def execSaturationWindowEnd (pc fullCycles : Nat) : State → Out := run fun d =>
  if 512 ≤ pc ∨ fullCycles * 16 < d.rd MEM_SAT_CTRL_SAT_PCT * d.rd MEM_SAT_CTRL_WINDOW then d
  else
    let d := d.inc (MEM_PC_STATE_SAT pc)
    if d.rd MEM_SAT_CTRL_LOG = 1 then d.event 3 0 5 pc (rowKey pc 0 0) 0 0 else d

/-- SCRUB: one line is read and corrected or counted (R245). -/
def execScrub (addr symbols : Nat) : State → Out := run fun d =>
  d.lineRead addr symbols

/-- PARITY_ERROR: the command is retried; a second error within 1 ms retrains the channel, and a retraining that fails retires it (R246). -/
def execParityError (chan : Nat) (retrainOk : Bool) : State → Out := run fun d =>
  if 256 ≤ chan then d
  else match getKey d.pool.parityAt chan with
    | some t =>
      if d.now < t + msTicks then
        let d := d.updPool fun m => { m with parityAt := m.parityAt.filter (·.1 != chan) }
        if retrainOk then d.chanTrained chan else (d.memLog (2 * chan) 0 0 2).chanLost chan
      else d.updPool fun m => { m with parityAt := putKey m.parityAt chan d.now }
    | none => d.updPool fun m => { m with parityAt := putKey m.parityAt chan d.now }

/-! ### MEM_PC_CMD (R249, R251–R254) -/

/-- The word of MEM_PC_CMD that starts a command (Table 8.11). -/
def pcCmdWord (pc op kind all : Nat) : Word := BitVec.ofNat 64 (pc % 512 * 2 ^ 23 + op * 2 ^ 20 + kind % 16 * 2 ^ 16 + all * 2 ^ 15 + 1)

/-- A command of MEM_PC_CMD: BUSY while one runs, else what it starts (R251; DEDUCED, assumption 16). -/
def Dev.pcCmd (d : Dev) (pc op kind all : Nat) (margins : Bool) (f : Dev → Dev) : Dev :=
  let d := (((d.wr MEM_PC_CMD_PC pc).wr MEM_PC_CMD_OP op).wr MEM_PC_CMD_KIND kind).wr MEM_PC_CMD_ALL all
  if d.pool.cmd.isSome then d.mcResult .busy op pc kind
  else
    let d := (d.wr MEM_PC_CMD_GO 1).updPool fun m => { m with cmd := some (op, pc, kind) }
    if margins && !d.marginOpen then (d.accessRefused 0).mcDone .notPermitted else f d

/-- What TAKE_OUT starts (R232, R251). -/
def Dev.startTakeOut (d : Dev) (pc : Nat) : Dev := d.pcCmd pc 1 0 0 true fun d =>
  if d.pcState pc ≠ 0 ∨ 10 ≤ d.pcsOut.length ∨ !(d.pcsIn [1, 2, 3]).isEmpty then d.mcDone .busy
  else d.wr (MEM_PC_STATE_STATE pc) 1

/-- What RETURN starts (R251, R252). -/
def Dev.startReturn (d : Dev) (pc : Nat) : Dev := d.pcCmd pc 2 0 0 true fun d =>
  if d.pcState pc ≠ 2 then d.mcDone .busy else (d.wr (MEM_PC_STATE_STATE pc) 3).memSync

/-- What MARGIN starts; a KIND that the map does not list is discarded (R251, R576). -/
def Dev.startMargin (d : Dev) (pc kind : Nat) : Dev :=
  if 3 < kind % 16 then d.discard MEM_PC_CMD_GO.reg (pcCmdWord pc 3 kind 0)
  else d.pcCmd pc 3 (kind % 16) 0 true fun d => if d.pcState pc ≠ 2 then d.mcDone .busy else d

/-- What RETIRE starts: it completes when the copy ends, or at once where no copy is made (R249, R250). -/
def Dev.startRetire (d : Dev) (pc : Nat) : Dev := d.pcCmd pc 4 0 0 false fun d =>
  let d := d.retirePc pc
  if d.pcState pc = 4 ∨ d.pool.retireWait.contains pc then d else d.mcDone .ok

/-- What SWEEP starts: only in MAINTENANCE, with room for two (R253). -/
def Dev.startSweep (d : Dev) (stack : Nat) (all : Bool) : Dev := d.pcCmd (stack % 16 * 32) 5 0 all.toNat true fun d =>
  if d.svcState ≠ 2 ∨ 8 < d.pcsOut.length then d.mcDone .busy
  else
    let chans := if all then List.range 256 else (List.range 16).map (stack % 16 * 16 + ·)
    (d.updPool fun m => { m with sweepLeft := chans }).sweepNext 256

/-- TAKE_OUT (R232, R251). -/
def execTakeOut (pc : Nat) : State → Out :=
  regCmd MEM_PC_CMD_GO.reg (pcCmdWord pc 1 0 0) fun d => d.startTakeOut (pc % 512)

/-- RETURN (R251, R252). -/
def execMemReturn (pc : Nat) : State → Out :=
  regCmd MEM_PC_CMD_GO.reg (pcCmdWord pc 2 0 0) fun d => d.startReturn (pc % 512)

/-- MARGIN: a run starts on a pseudo-channel that is OUT (R251). -/
def execMargin (pc kind : Nat) : State → Out :=
  regCmd MEM_PC_CMD_GO.reg (pcCmdWord pc 3 kind 0) fun d => d.startMargin (pc % 512) kind

/-- RETIRE (R249). -/
def execRetire (pc : Nat) : State → Out :=
  regCmd MEM_PC_CMD_GO.reg (pcCmdWord pc 4 0 0) fun d => d.startRetire (pc % 512)

/-- SWEEP (R253). -/
def execSweep (stack : Nat) (all : Bool) : State → Out :=
  regCmd MEM_PC_CMD_GO.reg (pcCmdWord (stack % 16 * 32) 5 0 all.toNat) fun d => d.startSweep stack all

/-- TAKE_OUT_COPY_COMPLETE: the pseudo-channel is OUT or RETIRED (R233, R249). -/
def execTakeOutCopyComplete (pc : Nat) : State → Out := run fun d =>
  if 512 ≤ pc then d
  else match d.pcState pc with
    | 1 =>
      let d := (((d.redirectOut pc).copyLog pc).wr (MEM_PC_STATE_STATE pc) 2).memSync
      match d.pool.cmd with
      | some (1, p, _) => if p = pc then d.mcDone .ok else d
      | some (5, _, _) =>
        let c := d.pool.sweepLeft.headD 256
        if c = pc / 2 ∧ d.pcState (2 * c) ≠ 1 ∧ d.pcState (2 * c + 1) ≠ 1 then d.sweepRun c (sweepRuns c) else d
      | _ => d
    | 4 =>
      if d.pool.retireWait.contains pc then d
      else
        let d := ((d.redirectOut pc).copyLog pc).pcRetired pc
        match d.pool.cmd with
        | some (4, p, _) => if p = pc then d.mcDone .ok else d
        | some (1, p, _) => if p = pc then d.mcDone .aborted else d
        | some (5, _, _) =>
          let c := d.pool.sweepLeft.headD 256
          if c = pc / 2 ∧ d.pcState (2 * c) ≠ 1 ∧ d.pcState (2 * c + 1) ≠ 1 then d.sweepRun c (sweepRuns c) else d
        | _ => d
    | _ => d

/-- RETURN_COPY_COMPLETE: the pseudo-channel is IN again, and a retirement that waited goes on (R233, R254). -/
def execReturnCopyComplete (pc : Nat) : State → Out := run fun d =>
  if 512 ≤ pc ∨ d.pcState pc ≠ 3 then d
  else
    let d := (((d.copyLog pc).redirectIn pc).wr (MEM_PC_STATE_STATE pc) 0).memSync
    let d := match d.pool.cmd with
      | some (2, p, _) => if p = pc then d.mcDone .ok else d
      | some (5, _, _) =>
        let c := d.pool.sweepLeft.headD 256
        if c = pc / 2 ∧ d.pcState (2 * c) ≠ 3 ∧ d.pcState (2 * c + 1) ≠ 3 then
          (d.updPool fun m => { m with sweepLeft := m.sweepLeft.drop 1 }).sweepNext 256
        else d
      | _ => d
    d.retireGo

/-- MARGIN_RUN_COMPLETE: LEFT and RIGHT are reported, and a poor margin retires the pseudo-channel (R252, R253). -/
def execMarginRunComplete (left right : Nat) : State → Out := run fun d =>
  let show_ (d : Dev) : Dev := (d.wr MEM_MARGIN_RESULT_LEFT (min left 255)).wr MEM_MARGIN_RESULT_RIGHT (min right 255)
  let poor := decide (left + right < d.rd MEM_RAS_CTRL_MARGIN_MIN)
  match d.pool.cmd with
  | some (3, p, _) =>
    let d := show_ d
    (if poor then d.autoRetire p else d).mcDone .ok
  | some (5, p, k) =>
    let c := p / 2
    if !d.runOpen (p, k) then d
    else
      let d := show_ d
      let ps := if k = 4 then [p, p + 1].filter (fun q => d.pcState q == 2) else [p]
      let d := if poor then ps.foldl (fun d q => d.autoRetire q) d else d
      d.sweepRun c ((sweepRuns c).dropWhile (· != (p, k)) |>.drop 1)
  | _ => d

end Sys2Proof.Machine
end

