-- ==== Sys2Proof/Machine/MeterCmds.lean ====
section
/-! DEFINITION. The sealed meter: its register and pulses, its log, the frame to the module and the readout port (R553–R558). (DEDUCED, assumption 31) -/

namespace Sys2Proof.Machine

/-- The CRC-32 of IEEE 802.3 of a byte string, bit by bit (R558, PRESUMED, assumption 44). -/
def crcBits : Nat → Nat → Nat
  | 0, c => c
  | n + 1, c => crcBits n (if c % 2 = 1 then Nat.xor (c / 2) 0xEDB88320 else c / 2)
def crc32 (bs : List Byte) : Nat := Nat.xor (bs.foldl (fun c b => crcBits 8 (Nat.xor c b.toNat)) 0xFFFFFFFF) 0xFFFFFFFF

/-- An answer of the readout port: CMD, RESULT, LEN, data and the CRC-32 (Table 20.6). -/
def meterFrameBytes (cmd result : Nat) (data : List Byte) : List Byte :=
  let body := leBytes 1 cmd ++ leBytes 1 result ++ leBytes 2 data.length ++ data
  body ++ leBytes 4 (crc32 body)

/-- The meter answers a request; without supply it does not (R554, R558). -/
def Meter.answer (m : Meter) (cmd result : Nat) (data : List Byte) : Meter :=
  if m.powered then { m with answers := m.answers ++ [meterFrameBytes cmd result data] } else m

/-- A log entry, the oldest overwritten when 1,024 are held; the log counter counts it (R554). -/
def Meter.logEntry (m : Meter) (ev : Nat) : Meter :=
  { m with log := (⟨m.count + 1, (Config.meterEvent ev).toNat, m.energy⟩ :: m.log).take 1024, count := m.count + 1 }

/-- An effect on the meter alone: nothing on the module reaches it (R556). -/
def meterAct (f : Meter → Meter) (s : State) : Out := .next { s with meter := f s.meter }

/-- METER_FRAME: a valid frame updates the non-legal copy, and the copy is not stale (R556). -/
def execMeterFrame (s : State) : Out :=
  .next (if s.dev.live && s.meter.powered then
    { s with dev := (((s.dev.wr PWR_METER_COPY_ENERGY s.meter.energy.toNat).wr PWR_METER_INFO_CHECKSUM s.meter.checksum.toNat).wr
        PWR_METER_INFO_SERIAL s.meter.serial.toNat).wr PWR_STATUS_METER_STALE 0 }
    else s)

/-- METER_PULSE: another 0.1 Wh is registered, and the pulse output closes once (R553, R557). -/
def execMeterPulse : State → Out := meterAct fun m =>
  if m.powered then { m with energy := m.energy + 100, pulses := m.pulses + 1 } else m

/-- METER_SUPPLY_CHANGE: the meter's supply comes or goes, and the log takes an entry (R554). -/
def execMeterSupplyChange (up : Bool) : State → Out := meterAct fun m =>
  if m.powered = up then m else { (m.logEntry (if up then 0 else 1)) with powered := up }

/-- COVER_OPENING: the seal is broken, and the log takes an entry (R554). -/
def execCoverOpening : State → Out := meterAct fun m =>
  if m.powered then { (m.logEntry 2) with sealed := false } else { m with sealed := false }

/-- READ_ENERGY (Table 20.6). -/
def execReadEnergy (_index : Nat) : State → Out := meterAct fun m => m.answer 1 0 (leBytes 8 m.energy.toNat)

/-- READ_IDENT: serial, "NL-M1.00" and the checksum (R555, Table 20.6). -/
def execReadIdent (_index : Nat) : State → Out := meterAct fun m =>
  m.answer 2 0 (leBytes 4 m.serial.toNat ++ [0x4E, 0x4C, 0x2D, 0x4D, 0x31, 0x2E, 0x30, 0x30] ++ leBytes 4 m.checksum.toNat)

/-- READ_LOG: one entry, the newest at INDEX 0; an INDEX without an entry is out of range (Table 20.6). -/
def execReadLog (index : Nat) : State → Out := meterAct fun m =>
  match m.log[index]? with
  | some e => m.answer 3 0 (leBytes 4 e.seq.toNat ++ leBytes 1 e.event ++ [0, 0, 0] ++ leBytes 8 e.energy.toNat)
  | none => m.answer 3 2 []

/-- READ_STATUS: log counter, seal and error flags (Table 20.6). -/
def execReadStatus (_index : Nat) : State → Out := meterAct fun m =>
  m.answer 4 0 (leBytes 4 m.count.toNat ++ [if m.sealed then 1 else 0, m.errors])

/-- METER_UNKNOWN_CMD: a CMD not in Table 20.6 is answered with RESULT 1. -/
def execMeterUnknownCmd (cmd : BitVec 8) : State → Out := meterAct fun m =>
  if 1 ≤ cmd.toNat ∧ cmd.toNat ≤ 4 then m else m.answer cmd.toNat 1 []

end Sys2Proof.Machine
end

