-- ==== Sys2Proof/Machine/Narrows.lean ====
section
/-! DEFINITION. Narrows and the package: links and modules (R431–R436, R444), discovery (R439–R445), clocks (R446–R449), the reset of a control die (R450–R452). (DEDUCED, assumption 32) -/

namespace Sys2Proof.Machine

/-- The device with its Narrows state changed. -/
def Dev.updNrw (d : Dev) (f : Narrows → Narrows) : Dev := { d with nrw := f d.nrw }

/-! ### Links (R432–R436) -/

/-- The dies of a link, accelerator dies first, and its modules (Table 15.2). -/
def nrwDies (l : Nat) : Nat × Nat := [(0, 1), (2, 3), (0, 2), (1, 3), (0, 4), (1, 4), (2, 5), (3, 5), (4, 5)].getD l (0, 0)
def nrwModules (l : Nat) : Nat := if l < 4 then 12 else if l < 8 then 4 else 2

/-- Whether a link carries traffic. -/
def Dev.nrwUp (d : Dev) (l : Nat) : Bool := let s := d.rd (NRW_LINK_STATE l); decide (l < 9) && (s == 2 || s == 3)

/-- A link comes up on every module with an empty retry buffer and full credits (R435, R441). -/
def Dev.nrwStart (d : Dev) (l : Nat) : Dev :=
  ((d.wr (NRW_LINK_STATE l) 2).wr (NRW_LINK_MODULES l) (2 ^ nrwModules l - 1)).setLink (10 + l) { credits := [2048, 2048, 2048, 2048] }

/-- A link has no module left: it is lost, and the dies it touches with it; the C0–C1 link counts as the loss of C1 (R433, R453). -/
def Dev.nrwLost (d : Dev) (l : Nat) : Dev :=
  let (a, b) := nrwDies l
  let d := d.wr (NRW_LINK_STATE l) 6
  if l = 8 then d.dieLost 5 else (d.dieLost a).dieLost b

/-- A module is taken out of its link (R433). -/
def Dev.moduleOut (d : Dev) (l m : Nat) : Dev :=
  let ms := d.rd (NRW_LINK_MODULES l)
  if nrwModules l ≤ m ∨ ms / 2 ^ m % 2 = 0 then d
  else
    let left := ms - 2 ^ m
    let d := ((d.wr (NRW_LINK_MODULES l) left).wr (NRW_LINK_STATE l) 3).inc RAS_SUMMARY_NRW_OUT
    let d := (d.event 10 2 1 l m 0 0).updNrw fun n => { n with idle := n.idle.filter (· != (l, m)) }
    if left = 0 then d.nrwLost l else d

/-- The retry buffer of a link is replayed from its oldest flit (R433, R436). -/
def Dev.nrwReplay (d : Dev) (l : Nat) : Dev :=
  match (d.link (10 + l)).retry with
  | [] => d
  | s :: _ => (d.send (.replay (10 + l) s)).inc (NRW_LINK_REPLAYS l)

/-- MODULE_TAKE_OUT: both ends move to the modules left, and what was on it is replayed (R433). -/
def execModuleTakeOut (link m : Nat) : State → Out := act fun d =>
  if !d.nrwUp link ∨ d.rd (NRW_LINK_MODULES link) / 2 ^ m % 2 = 0 then d
  else
    let d := d.moduleOut link m
    if d.nrwUp link then d.nrwReplay link else d

/-- The packet types of Table 15.5. -/
def nrwTypeOk (t : Nat) : Bool :=
  decide (t ≤ 0x0A) || (decide (0x10 ≤ t) && decide (t ≤ 0x12)) || (decide (0x18 ≤ t) && decide (t ≤ 0x1A)) ||
    [0x20, 0x21, 0x28, 0x29, 0x30].contains t

/-- The number in ascending order of the module on which a flit of a sequence number goes (R432). -/
def Dev.nrwModuleOf (d : Dev) (l seq : Nat) : Nat :=
  let ms := (List.range (nrwModules l)).filter fun m => d.rd (NRW_LINK_MODULES l) / 2 ^ m % 2 = 1
  ms.getD (seq % max 1 ms.length) 0

/-- NARROWS_FLIT: a flit with a bad CRC or after a gap is answered with one NAK and discarded; else its ACK and credits apply and its packets go on; a packet of an unknown type is discarded with an INFO event (R434–R438). -/
def execNarrowsFlit (link : Nat) (hdr : Word) (crcOk : Bool) (ptype : Nat) : State → Out := act fun d =>
  if !d.nrwUp link then d
  else
    let k := 10 + link
    let l := d.link k
    let refuse := fun (d : Dev) => if l.discarding then d
      else (d.send (.nak k l.rxSeq)).setLink k { l with discarding := true }
    if !crcOk then refuse (d.inc (NRW_LINK_CRC_ERR link))
    else
      let cvc := fieldOf hdr 35 34
      let take := fun (d : Dev) (l : Link) => (d.setLink k { l with
        retry := l.retry.filter fun s => decide (2048 ≤ (fieldOf hdr 47 36 + 4096 - s) % 4096)
        credits := putAt l.credits cvc (l.credits.getD cvc 0 + fieldOf hdr 33 22) }).updNrw fun n =>
          { n with idle := if fieldOf hdr 63 60 = 0 then n.idle else n.idle.filter (·.1 != link) }
      match fieldOf hdr 63 60 with
      | 0 => take d l
      | 1 | 2 =>
        if fieldOf hdr 59 48 ≠ l.rxSeq then refuse d
        else
          let d := take d { l with rxSeq := (l.rxSeq + 1) % 4096, discarding := false }
          if fieldOf hdr 63 60 = 1 ∧ fieldOf hdr 21 18 ≠ 15 ∧ !nrwTypeOk ptype then
            d.event 10 0 6 link (d.nrwModuleOf link l.rxSeq) ptype 0
          else d
      | _ => d

/-- NARROWS_NAK: the sender replays from the named SEQ; the eighth in a row retrains the link, takes out the modules that fail it, and replays (R436). -/
def execNarrowsNak (link : Nat) (seq : Nat) (failed : List Nat) : State → Out := act fun d =>
  if !d.nrwUp link then d
  else
    let k := 10 + link
    let l := d.link k
    let n := if l.nakSeq = seq % 4096 ∧ l.nakRun ≠ 0 then l.nakRun + 1 else 1
    let d := d.setLink k { l with nakSeq := seq % 4096, nakRun := n }
    if n < 8 then (d.send (.replay k (seq % 4096))).inc (NRW_LINK_REPLAYS link)
    else
      let d := (d.setLink k { l with nakSeq := seq % 4096, nakRun := 0 }).event 10 1 2 link 0 0 0
      let d := failed.foldl (fun d m => d.moduleOut link m) d
      if d.nrwUp link then d.nrwReplay link else d

/-- MODULE_IDLE: at level 2 with IDLE_PD set, outside a RUNNING domain, a module with nothing outstanding enters L1 (R444). -/
def execModuleIdle (link m : Nat) : State → Out := act fun d =>
  if !d.nrwUp link ∨ d.rd NRW_DISC_STATUS_LEVEL < 2 ∨ d.rd NRW_CTRL_IDLE_PD = 0 ∨ !(d.link (10 + link)).retry.isEmpty ∨
      d.rd NFP_DOM_STATUS_STATE = 4 ∨ d.rd (NRW_LINK_MODULES link) / 2 ^ m % 2 = 0 ∨ d.nrw.idle.contains (link, m) then d
  else d.updNrw fun n => { n with idle := n.idle ++ [(link, m)] }

/-! ### Discovery (R439–R445) -/

/-- Discovery ends REFUSED (4) or FAILED (5) with a cause, start-up with it; Strait is brought up so that the cause can be read (R441, R443, R445, R572). -/
def Dev.discFail (d : Dev) (st cause die : Nat) : Dev :=
  let d := ((d.wr NRW_DISC_STATUS_STATE st).wr NRW_DISC_STATUS_CAUSE cause).wr NRW_DISC_STATUS_CAUSE_DIE die
  let d := if st = 4 then d.wr GLB_STATUS_PAIRING_REFUSED 1 else d
  (d.startFail (if st = 4 then 2 else 1) die).startLink 8

/-- The release of the die resets starts discovery on every die (R441, R562). -/
def Dev.discStart (d : Dev) : Dev :=
  let d := (d.wr GLB_STATUS_STEP 2).wr NRW_DISC_STATUS_STATE 1
  let d := (List.range 6).foldl (fun d i => d.wr (NRW_DIE_STATE i) 1) d
  let d := (List.range 9).foldl (fun d l => d.wr (NRW_LINK_STATE l) 1) d
  { (d.updNrw fun n => { clocksRun := n.clocksRun }) with boot := { released := some d.now } }

/-- DISCOVERY_STEP_TIMEOUT: the step repeats, and after its third attempt discovery ends FAILED: link training before any identity, a die or leader that does not answer after (R441). -/
def execDiscoveryStepTimeout (die : Nat) : State → Out := act fun d =>
  let st := d.rd NRW_DISC_STATUS_STATE
  if 6 ≤ die ∨ (st ≠ 1 ∧ st ≠ 2) then d
  else if d.nrw.attempt < 2 then d.updNrw fun n => { n with attempt := n.attempt + 1 }
  else d.discFail 5 (if st = 1 then 4 else 2) die

/-- NRW_DIE shows a die's identity (Table 15.11). -/
def Dev.showDie (d : Dev) (die : Nat) (i : DieIdentity) : Dev :=
  ((((d.wr (NRW_DIE_REV die) i.rev).wr (NRW_DIE_FEAT die) i.feat).wr (NRW_DIE_MINPAIR die) i.minpair).wr (NRW_DIE_KIND die) i.kind)

/-- IDENTITY: a die's identity reaches the leader; the first ends training. A wrong kind, no leader or an unlocked root of C0 ends discovery (R439, R440, R442). -/
def execIdentity (die : Nat) (idn : DieIdentity) : State → Out := act fun d =>
  let st := d.rd NRW_DISC_STATUS_STATE
  if 6 ≤ die ∨ (st ≠ 1 ∧ st ≠ 2) ∨ (getKey d.nrw.ids die).isSome then d
  else
    let d := if st = 1 then
        let d := (List.range 9).foldl (fun d l => d.nrwStart l) (d.wr NRW_DISC_STATUS_STATE 2)
        d.updNrw fun n => { n with attempt := 0 }
      else d
    let d := (d.showDie die idn).updNrw fun n => { n with ids := n.ids ++ [(die, idn)] }
    if idn.kind ≠ (if die < 4 then 0 else 1) then d.discFail 5 3 die
    else if die = 4 ∧ !idn.romPass then d.discFail 5 2 4
    else if die = 4 ∧ !idn.rootLocked then d.discFail 5 5 4
    else d

/-- CONFIGURATION: the leader fixes the level, or the dies do not pair (R443). -/
def execConfiguration : State → Out := act fun d =>
  if d.rd NRW_DISC_STATUS_STATE ≠ 2 ∨ d.nrw.ids.length < 6 ∨ d.nrw.configured then d
  else
    let level := d.nrw.ids.foldl (fun m x => min m x.2.feat) 255
    let pair := d.nrw.ids.foldl (fun m x => max m x.2.minpair) 0
    let d := d.wr NRW_DISC_STATUS_MINPAIR pair
    if level < pair then
      let die := ((List.range 6).find? fun i => (getKey d.nrw.ids i).any (·.minpair == pair)).getD 0xFF
      d.discFail 4 1 die
    else (d.wr NRW_DISC_STATUS_LEVEL level).updNrw fun n => { n with configured := true, attempt := 0 }

/-- CONFIRM: with the last confirmation discovery is DONE, the dies are ACTIVE, the clock roots have their roles, and Strait leaves its reset (R441, R442, R562). -/
def execConfirm (die : Nat) : State → Out := act fun d =>
  if 6 ≤ die ∨ !d.nrw.configured ∨ d.rd NRW_DISC_STATUS_STATE ≠ 2 ∨ d.nrw.confirms.contains die then d
  else
    let d := d.updNrw fun n => { n with confirms := n.confirms ++ [die] }
    if d.nrw.confirms.length < 6 then d
    else
      let d := (d.wr NRW_DISC_STATUS_STATE 3).wr GLB_STATUS_STEP 3
      let d := (List.range 6).foldl (fun d i => d.wr (NRW_DIE_STATE i) 2) d
      let warm := decide (d.rd GLB_STATUS_KIND = 2)
      let locked := (getKey d.nrw.ids 5).any (·.rootLocked)
      let d := if warm then d
        else if locked then d.setClkStandby true
        else (d.setClkStandby false).event 10 2 4 0 0 0 0
      ({ d with boot := { d.boot with discovered := true } } : Dev).startLink 8

/-! ### Clocks (R446–R449) -/

/-- CLOCK_MASTER_FAILURE: the standby takes over, or every clock stops (R447, R448, R498). -/
def execClockMasterFailure : State → Out := act fun d =>
  if d.rd NRW_CLK_STATUS_STANDBY_OK = 1 then
    (((d.wr NRW_CLK_STATUS_MASTER (1 - d.rd NRW_CLK_STATUS_MASTER)).setClkStandby false).event 10 1 4 0 0 0 0).warn
  else d.updNrw fun n => { n with clocksRun := false }

/-- STANDBY_ROOT_FAILURE (R448, R498). -/
def execStandbyRootFailure : State → Out := act fun d =>
  if d.rd NRW_CLK_STATUS_STANDBY_OK = 0 then d else ((d.setClkStandby false).event 10 1 4 0 0 0 0).warn

/-- REFERENCE_LOSS (R449). -/
def execReferenceLoss : State → Out := act fun d =>
  if d.rd NRW_CLK_STATUS_REF_OK = 0 then d else (d.wr NRW_CLK_STATUS_REF_OK 0).event 10 2 5 0 0 0 0

/-- REFERENCE_RETURN (R449). -/
def execReferenceReturn : State → Out := act fun d => d.wr NRW_CLK_STATUS_REF_OK 1

/-! ### The reset of a control die (R451, R452) -/

/-- The links and ports of C1. -/
def c1Links : List Nat := [6, 7, 8]
def c1Ports : List Nat := [4, 5, 6, 7]

/-- The operations that run on C1's engines end TARGET_RESET: core tasks, copies on C1.0 and C1.1, collectives and publish work; promotions wait for their stripes (R451, R452). -/
def Dev.endC1 (d : Dev) : Dev :=
  let mine := fun (o : FeOp) => !o.ended && o.phase != .dispatched &&
    ((o.opcode == 6 && decide (33 ≤ o.unit) && decide (o.unit < 66)) || (o.opcode == 3 && (o.unit == 18 || o.unit == 19)) ||
      o.opcode == 5 || d.tier.publishes.any (·.op == o.id))
  (d.fe.ops.filter mine).foldl (fun d o => d.abortOp o.id .targetReset 0) d

/-- Draining of C1 (R452 step 1). -/
def Dev.drainC1 (d : Dev) : Dev :=
  let d := (d.wr (NRW_DIE_STATE 5) 3).moveQueues fun f => decide (8 ≤ f)
  let d := d.endC1
  let d := c1Ports.foldl (fun d p => if d.rd (NFP_PORT_STATUS_STATE p) = 0 then d else d.linkDown p 5) d
  let d := if d.rd TWN_LINK_STATUS_STATE = 0 then d else d.linkDown 9 5
  let d := (d.setCtuStandby false).wr TDM_STATUS_SHADOW_OK 0
  (List.range 9).foldl (fun d q => if d.agentState (16 + q) = 0 then d.wr (COH_AGENT_STATE (16 + q)) 1 else d) d

/-- A command of NRW_DIE_CMD ends with a status (Table 15.14). -/
def Dev.dieCmdEnd (d : Dev) (st : Status) : Dev := (d.wr NRW_DIE_CMD_STATUS (statusCode st)).wr NRW_DIE_CMD_GO 0

/-- The word of NRW_DIE_CMD that resets a die. -/
def dieWord (die : Nat) : Word := BitVec.ofNat 64 (die % 8 * 2 ^ 16 + 2 ^ 5 + 1)

/-- What OP RESET starts (R452); a DIE that Table 15.4 does not code is discarded (R576). -/
def Dev.startDieReset (d : Dev) (die : Nat) : Dev :=
  if 5 < die then d.discard NRW_DIE_CMD_GO.reg (dieWord die)
  else if d.nrw.resetDie.isSome then d.wr NRW_DIE_CMD_STATUS (statusCode .busy)
  else
    let d := (d.wr NRW_DIE_CMD_DIE die).wr NRW_DIE_CMD_OP 1
    if die ≠ 5 ∨ d.rd CTU_STATUS_ACTIVE = 1 ∨ d.rd NRW_CLK_STATUS_MASTER = 1 ∨ d.rd (NRW_DIE_STATE 5) ≠ 2 then d.dieCmdEnd .busy
    else ((d.wr NRW_DIE_CMD_GO 1).updNrw fun n => { n with resetDie := some die }).drainC1

/-- DIE_RESET: NRW_DIE_CMD with OP RESET and GO (R452). -/
def execDieReset (die : Nat) : State → Out := regCmd NRW_DIE_CMD_GO.reg (dieWord die) fun d => d.startDieReset (die % 8)

/-- DIE_DRAIN_COMPLETE: C1's caches are clean, links 6, 7 and 8 close, and the die is held in reset (R309, R310, R452 step 2). -/
def execDieDrainComplete : State → Out := run fun d =>
  if d.rd (NRW_DIE_STATE 5) ≠ 3 then d
  else
    let d := (List.range 9).foldl (fun d q => if d.agentState (16 + q) = 1 then d.clusterClean (16 + q) else d) d
    let d := d.evictAll [67]
    let d := c1Links.foldl (fun d l => d.wr (NRW_LINK_STATE l) 5) d
    (d.wr (NRW_DIE_STATE 5) 4).inc (NRW_DIE_RESETS 5)

/-- DIE_RESET_HOLD_END: the die starts to rejoin (R452 step 3). -/
def execDieResetHoldEnd : State → Out := run fun d =>
  if d.rd (NRW_DIE_STATE 5) ≠ 4 then d
  else c1Links.foldl (fun d l => d.wr (NRW_LINK_STATE l) 1) (d.wr (NRW_DIE_STATE 5) 5)

/-- A control die that rejoined takes up the copy of the record that it missed (R484). -/
def Dev.copyBack (d : Dev) : Dev := ({ d with nv := { d.nv with copies := [true, true] } } : Dev).persistSync

/-- DIE_REJOIN_COMPLETE: the die is ACTIVE when its identity fits, and stays out REFUSED otherwise (R452 step 3). -/
def execDieRejoinComplete (idn : DieIdentity) : State → Out := run fun d =>
  if d.rd (NRW_DIE_STATE 5) ≠ 5 then d
  else
    let level := d.rd NRW_DISC_STATUS_LEVEL
    let ok := idn.kind == d.rd (NRW_DIE_KIND 5) && idn.rev == d.rd (NRW_DIE_REV 5) && decide (level ≤ idn.feat) && decide (idn.minpair ≤ level)
    let d := d.updNrw fun n => { n with resetDie := none }
    if !ok then ((d.wr (NRW_DIE_STATE 5) 7).event 10 2 3 21 0 7 0).dieCmdEnd .aborted
    else
      let d := c1Links.foldl (fun d l => d.nrwStart l) ((d.wr (NRW_DIE_STATE 5) 2).showDie 5 idn)
      let d := (List.range 9).foldl (fun d q => if d.agentState (16 + q) = 2 then d.wr (COH_AGENT_STATE (16 + q)) 0 else d) d
      let d := c1Ports.foldl (fun d p => if d.rd (NFP_PORT_CTRL_EN p) = 1 then d.startLink p else d) d
      (d.copyBack.wr TDM_STATUS_SHADOW_OK 1).dieCmdEnd .ok

/-- STANDBY_CTU_COPY_COMPLETE: the standby CTU shadows again (R345, R452). -/
def execStandbyCtuCopyComplete : State → Out := run fun d =>
  if d.rd (NRW_DIE_STATE 5) ≠ 2 ∨ d.rd CTU_STATUS_STANDBY_OK = 1 ∨ !d.ctu.hasStandby then d
  else d.setCtuStandby true

end Sys2Proof.Machine
end

