-- ==== Sys2Proof/Machine/PowerOps.lean ====
section
/-! DEFINITION. The shared operations of power: power-off and what survives it (R544, R545), the wanted divisor and emergencies (R548–R552), temperatures. (DEDUCED, assumption 30) -/

namespace Sys2Proof

/-- The bit of PWR_THROTTLE.CAUSE of a limit (Table 20.9); none for a limit that never wants a divisor. -/
def LimitKind.bit : LimitKind → Option Nat
  | .accDie _ => some 0 | .hbmStack _ => some 1 | .ctrlDie _ => none | .inlet => some 2 | .outlet => some 3
  | .power1ms => some 4 | .power100us => some 5 | .current => some 6 | .voltage => some 7

/-- SOURCE of a POWER event (R559). -/
def LimitKind.source : LimitKind → Nat
  | .accDie n => n + 1 | .hbmStack n => n + 16 | .ctrlDie n => n + 5 | .inlet => 32 | .outlet => 33
  | _ => 0

/-- The index of PWR_TEMP of a temperature (Table 20.12). -/
def LimitKind.tempIx : LimitKind → Option Nat
  | .accDie n => some n | .ctrlDie n => some (n + 4) | .hbmStack n => some (n + 6) | .inlet => some 22 | .outlet => some 23
  | _ => none

/-- Whether a limit names a die or stack that exists. -/
def LimitKind.ok : LimitKind → Bool
  | .accDie n => decide (n < 4) | .hbmStack n => decide (n < 16) | .ctrlDie n => decide (n < 2) | _ => true

/-- The thresholds of a temperature in 0.1 °C: wants 10, wants 12, emergency, trip, and the SLOW cycles that the trip must hold; an inlet limit is exceeded one step above its figure (Table 20.4). -/
def LimitKind.temps : LimitKind → Option (Nat × Nat × Nat × Nat × Nat)
  | .accDie _ => some (950, 1000, 1050, 1150, 100000)
  | .hbmStack _ => some (900, 950, 1000, 1050, 100000)
  | .ctrlDie _ => some (10000, 10000, 10000, 1150, 100000)
  | .inlet => some (401, 451, 10000, 10000, 0)
  | .outlet => some (10000, 10000, 620, 700, 1000000)
  | _ => none

/-- The cause and source of the power-off that a trip makes (Tables 20.4 and 20.11). -/
def LimitKind.trip : LimitKind → Nat × Nat
  | .accDie n => (3, n) | .ctrlDie n => (3, n + 4) | .hbmStack n => (4, n + 16) | .outlet => (8, 0xFF) | .current => (7, 0xFF)
  | _ => (5, 0xFF)

end Sys2Proof

namespace Sys2Proof.Machine

/-- The device with its power state changed. -/
def Dev.updPw (d : Dev) (f : Power → Power) : Dev := { d with pw := f d.pw }

/-- Every rail is off: what is left is what survives power-off, the cause among it; the rest is as before the converters start (R544, R545, Table 20.11). -/
def Dev.powerOff (d : Dev) (cause source : Nat) (trip : Bool := false) : Dev :=
  { nv := { d.nv with offCause := cause, offSource := source }, fresh := d.fresh, out := d.out
    tdm := { shelfDump := d.tdm.shelfDump }
    pw := { modEn := d.pw.modEn, inputOk := d.pw.inputOk, tripped := d.pw.tripped || trip,
            modEnLowSince := if trip then none else d.pw.modEnLowSince } }

/-- The ROM step of every start: kind and step of start-up, the module serial, the cause of the last power-off, and the state of the rails (R560, R562, Tables 20.7, 20.11, 21.3). -/
def Dev.romStep (d : Dev) (kind : Nat) : Dev :=
  let d := (d.wr GLB_STATUS_KIND kind).wr GLB_STATUS_STEP 1
  let d := (d.wr (GLB_SERIAL_BYTES 0) (d.nv.serial.toNat % 2 ^ 64)).wr (GLB_SERIAL_BYTES 1) (d.nv.serial.toNat / 2 ^ 64)
  let d := ((d.wr PWR_LAST_OFF_CAUSE d.nv.offCause).wr PWR_LAST_OFF_SOURCE d.nv.offSource).wr PWR_LAST_OFF_POWER_ONS d.nv.powerOns
  d.wr PWR_STATUS_RAILS_OK (if d.pw.rails.length = 13 then 1 else 0)

/-- A condition with release: it begins above its threshold, goes on until released (R549). -/
def holds (held begins released : Bool) : Bool := begins || (held && !released)

/-- A limit wants a divisor, or no longer does (R548). -/
def Dev.setWant (d : Dev) (k : LimitKind) (div : Nat) (on : Bool) : Dev :=
  d.updPw fun p => { p with wants := (p.wants.filter (· != (k, div))) ++ (if on then [(k, div)] else []) }

/-- An emergency condition holds or is clear; a new one records its event (R549, R552). -/
def Dev.setEmergency (d : Dev) (k : LimitKind) (on : Bool) (reading : Nat) : Dev :=
  let was := d.pw.emergencies.contains k
  if on = was then d
  else if on then
    let d := (d.updPw fun p => { p with emergencies := p.emergencies ++ [k] }).wr PWR_THROTTLE_EMERGENCY 1
    d.event 14 2 2 k.source reading (d.rd PWR_THROTTLE_DIV_NOW) 0
  else d.updPw fun p =>
    let l := p.emergencies.filter (· != k)
    { p with emergencies := l, emergencyClear := if l.isEmpty then d.now else p.emergencyClear }

/-- Whether a trip condition has held for its time; none holds when it does not hold now. -/
def Dev.setOver (d : Dev) (k : LimitKind) (on : Bool) (ticks : Nat) : Dev × Bool :=
  if !on then (d.updPw fun p => { p with trips := p.trips.filter (·.1 != k) }, false)
  else match d.pw.trips.find? (·.1 == k) with
    | some (_, t) => (d, decide (t + ticks ≤ d.now))
    | none => (d.updPw fun p => { p with trips := p.trips ++ [(k, d.now)] }, false)

/-- PWR_TEMP takes a reading in 0.1 °C (Table 20.12). -/
def Dev.setTemp (d : Dev) (n : Nat) (t : Int) : Dev :=
  let first := !d.pw.seen.contains n
  let max' := if first then t else max t (sgn 16 (d.rd (PWR_TEMP_MAX n)))
  ((d.wr (PWR_TEMP_NOW n) (unsgn 16 t)).wr (PWR_TEMP_MAX n) (unsgn 16 max')).updPw fun p =>
    if first then { p with seen := p.seen ++ [n] } else p

/-- PWR_THROTTLE shows what the limits want after a sample: DIV_WANT with its event, CAUSE, and an emergency that has been clear for 1 ms ends (R548, R549, R552). -/
def Dev.wantSync (d : Dev) (k : LimitKind) (reading : Nat) : Dev :=
  let want := d.pw.wants.foldl (fun m w => max m w.2) 8
  let bits := (d.pw.wants.map (·.1) ++ d.pw.emergencies).filterMap LimitKind.bit
  let d := d.wr PWR_THROTTLE_CAUSE (bits.foldl (fun m b => Nat.lor m (2 ^ b)) 0)
  let d := if d.rd PWR_THROTTLE_EMERGENCY = 1 ∧ d.pw.emergencies.isEmpty ∧ d.pw.emergencyClear + 100000 ≤ d.now then
      d.wr PWR_THROTTLE_EMERGENCY 0 else d
  if d.rd PWR_THROTTLE_DIV_WANT = want then d
  else (d.wr PWR_THROTTLE_DIV_WANT want).event 14 0 1 k.source reading (d.rd PWR_THROTTLE_DIV_NOW) 0

/-- A temperature sample (R242, R548, R549). -/
def Dev.tempSample (d : Dev) (k : LimitKind) (n : Nat) (th : Nat × Nat × Nat × Nat × Nat) (t : Int) : Dev :=
  let (a, b, e, trip, ticks) := th
  let has (div : Nat) : Bool := d.pw.wants.contains (k, div)
  let upd (held : Bool) (x : Nat) : Bool := holds held (decide ((x : Int) ≤ t)) (decide (t ≤ (x : Int) - (if k = .inlet then 51 else 50)))
  let r := unsgn 64 t
  let d := d.setTemp n t
  let em := upd (d.pw.emergencies.contains k) e
  let d := (((d.setWant k 10 (upd (has 10) a)).setWant k 12 (upd (has 12) b)).setEmergency k em r)
  let d := match k with
    | .ctrlDie _ => if 1050 ≤ t then d.event 14 2 3 k.source r (d.rd PWR_THROTTLE_DIV_NOW) 0 else d
    | _ => d
  let (d, tripped) := d.setOver k (decide ((trip : Int) ≤ t)) ticks
  if tripped then d.powerOff k.trip.1 k.trip.2 true else d.wantSync k r

/-- The mean of the first `n` of some readings exceeds a bound; false while there are fewer. -/
def meanAbove (l : List Nat) (n bound : Nat) : Bool := decide (n ≤ l.length) && decide (n * bound < (l.take n).sum)

/-- An input sample (R542, R544, R548, R549). -/
def Dev.inputSample (d : Dev) (k : LimitKind) (x : Nat) : Dev :=
  match k with
  | .power1ms =>
    let d := d.wr PWR_INPUT_POWER_1MS (min x 65535)
    let d := d.updPw fun p => { p with means := (x :: p.means).take 15,
                                       belowLow := if x < d.rd PWR_CAP_LOW_W then p.belowLow + 1 else 0 }
    let released := decide (d.rd PWR_CAP_LOWER_MS ≤ d.pw.belowLow)
    let cap := d.rd PWR_CAP_CAP_W
    let all15 := decide (15 ≤ d.pw.means.length) && d.pw.means.all (fun m => decide (cap < m))
    let d := d.setWant k 10 (holds (d.pw.wants.contains (k, 10)) (meanAbove d.pw.means 10 cap) released)
    (d.setWant k 12 (holds (d.pw.wants.contains (k, 12)) all15 released)).wantSync k x
  | .power100us =>
    ((d.wr PWR_INPUT_POWER_100US (min x 65535)).setEmergency k (decide (4100 < x)) x).wantSync k x
  | .current =>
    let d := d.updPw fun p => { p with amps := (x :: p.amps).take 10 }
    let d := d.wr PWR_INPUT_CURRENT (min (d.pw.amps.sum / d.pw.amps.length / 10) 65535)
    let d := d.setEmergency k (decide (110000 < x)) x
    let (d, tripped) := d.setOver k (decide (130000 < x)) 100000
    if tripped then d.powerOff 7 0xFF true else d.wantSync k x
  | _ =>
    let d := (d.wr PWR_INPUT_VOLTAGE (min (x / 10) 65535)).wr PWR_STATUS_INPUT_LOW (if x < 42000 then 1 else 0)
    if x < 38000 then ({ d with pw := { d.pw with inputOk := false } } : Dev).powerOff 1 0xFF
    else if 63000 < x then ({ d with pw := { d.pw with inputOk := false } } : Dev).powerOff 2 0xFF
    else (d.setWant k 10 (holds (d.pw.wants.contains (k, 10)) (decide (x < 42000)) (decide (43000 ≤ x)))).wantSync k x

/-- A limit is sampled (R548). -/
def Dev.limitSample (d : Dev) (k : LimitKind) (reading : Int) : Dev :=
  if !k.ok then d
  else match k.tempIx, k.temps with
    | some n, some th => d.tempSample k n th reading
    | _, _ => d.inputSample k reading.toNat

end Sys2Proof.Machine
end

