-- ==== Sys2Proof/Machine/PowerCmds.lean ====
section
/-! DEFINITION. The commands of the module's power: converters and rails, power-down, limits and the divisor, the leak trace, the copy of the meter (R537, R543–R552, R556). -/

namespace Sys2Proof.Machine

/-- LEAK: LEAK is set and a CONTAINED event recorded; nothing stops (R537, R559). -/
def execLeak : State → Out := act fun d => (d.wr PWR_STATUS_LEAK 1).event 14 2 5 34 0 (d.rd PWR_THROTTLE_DIV_NOW) 0

/-- CONVERTER_START: with MOD_EN high and the input valid for 10 ms the rails rise in the order of Table 20.3; a rail that does not reach its value makes them fall with cause 5 (R543, R545). (DESIGN CHOICE, assumption 7) -/
def execConverterStart (railFail : Option Nat) : State → Out := pin fun d =>
  if d.pw.on ∨ (d.pw.tripped ∧ d.pw.modEnLowSince.isNone) then d
  else
    let d := d.updPw fun p => { p with modEn := true, inputOk := true, tripped := false, modEnLowSince := none }
    match railFail with
    | some r => if r < 13 then d.powerOff 5 r else d
    | none =>
      { d with pw := { d.pw with on := true, rails := List.range 13 }, nrw := { d.nrw with clocksRun := false } }

/-- PWR_GOOD: every rail is up, the roots lock and every divider starts; the power-on start-up is at its ROM step with the device time counter at 0 (R543, R546, R562, R564). -/
def execPwrGood : State → Out := pin fun d =>
  if !d.pw.on ∨ d.pw.pwrGood then d
  else
    let d := { d with pw := { d.pw with pwrGood := true }, nrw := { d.nrw with clocksRun := true }
                      nv := { d.nv with powerOns := min (2 ^ 32 - 1) (d.nv.powerOns + 1) } }
    (d.romStep 0).wr NRW_CLK_STATUS_REF_OK 1

/-- MOD_EN_FALL: a power-down starts, at any point of a start-up too (R539, R544, R561). -/
def execModEnFall : State → Out := pin fun d =>
  let low := fun (d : Dev) => d.updPw fun p => { p with modEn := false, modEnLowSince := some d.now }
  if d.pw.on then low (d.powerOff 6 0xFF) else low d

/-- INPUT_LOSS: the rails are held for 2 ms while each flash program in flight completes, and then fall (R545). -/
def execInputLoss : State → Out := pin fun d =>
  let d := d.updPw fun p => { p with inputOk := false }
  if d.pw.on then d.powerOff 0 0xFF else d

/-- RAIL_FAULT: a rail other than VDD_ACC leaves its bounds, and a power-down with cause 5 starts (R544). -/
def execRailFault (rail : Nat) : State → Out := pin fun d =>
  if !d.pw.on ∨ 13 ≤ rail ∨ (4 ≤ rail ∧ rail ≤ 7) then d else d.powerOff 5 rail

/-- VDD_ACC_FAULT: the rail is switched off alone, and its die is lost (R453, R544, R559). -/
def execVddAccFault (die : Nat) : State → Out := act fun d =>
  if 4 ≤ die ∨ !d.pw.rails.contains (die + 4) then d
  else
    let d := (d.updPw fun p => { p with rails := p.rails.filter (· != die + 4) }).wr PWR_STATUS_RAILS_OK 0
    (d.event 14 3 6 (die + 1) 0 (d.rd PWR_THROTTLE_DIV_NOW) 0).dieLost die

/-- LIMIT_SAMPLE: the wanted divisor, an emergency or a trip follows the sample (R544, R548, R549, R552). -/
def execLimitSample (lim : LimitKind) (reading : Int) : State → Out := act fun d => d.limitSample lim reading

/-- STACK_TEMPERATURE_READ: a stack's temperature goes to the thermal limits (R242, R548). -/
def execStackTemperatureRead (stack : Nat) (tenths : Int) : State → Out := act fun d =>
  if 16 ≤ stack then d else d.limitSample (.hbmStack stack) tenths

/-- DIVISOR_CHANGE: at an alignment point the divisor wanted comes into force outside a RUNNING domain; in one only an emergency's 12 does, with the loss of timing of R222 (R547, R550). -/
def execDivisorChange : State → Out := act fun d =>
  if d.domState ≠ 4 then d.setDiv d.divWanted
  else if d.rd PWR_THROTTLE_EMERGENCY = 1 ∧ d.rd PWR_THROTTLE_DIV_NOW ≠ 12 then (d.setDiv 12).tdLose 4
  else d

/-- METER_STALE: no valid frame for 1 s (R556, R559). -/
def execMeterStale : State → Out := act fun d =>
  (d.wr PWR_STATUS_METER_STALE 1).event 14 2 4 40 0 (d.rd PWR_THROTTLE_DIV_NOW) 0

end Sys2Proof.Machine
end

