-- ==== Sys2Proof/Machine/Reef.lean ====
section
/-! DEFINITION. The commands of the Reef as a whole: split (R76, R78, R293), rotation and tile tests (R89–R95), hand-over between contexts (R96–R100). -/

namespace Sys2Proof.Machine

/-! ### Split -/

/-- SPLIT_CHANGE: on an idle Reef, the launch that asks for a new split has every tile's L1 walked first (R76). -/
def execSplitChange (op : Nat) : State → Out := run fun d =>
  match d.tiles.splitNext with
  | some (o, _, _) =>
    if o ≠ op ∨ d.tiles.splitWalk ∨ d.seq.launch.isSome ∨ !d.thr.launches.isEmpty ∨ d.handing then d
    else ((List.range 640).foldl (fun d t => d.l1Walk t) d).updTiles fun t => { t with splitWalk := true }
  | none => d

/-- The split of a launch is set on all tiles once the last walk has ended (R76, R159). -/
def Dev.splitStep (d : Dev) : Dev :=
  match d.tiles.splitNext with
  | some (_, ls, ps) =>
    if d.tiles.splitWalk ∧ d.tiles.l1Busy.isEmpty then
      (d.updTiles fun t => { t with split := ls, pool := ps, splitNext := none, splitWalk := false }).wr REEF_STATUS_LS_SEGS ls
    else d
  | none => d

/-- L1_INVALIDATE_ALL_COMPLETE: the tile's lines are written back and gone; the launches and the split that waited go on (R182, R293). -/
def execL1InvalidateAllComplete (tile : Nat) : State → Out := run fun d =>
  if !d.tiles.l1Busy.contains tile then d
  else match d.walkDone tile with
    | none => d
    | some d => d.splitStep.thrSettle

/-- A write of REEF_SRAM_LIMIT: none for inconsistent limits (R78). -/
def Dev.sramLimit (d : Dev) (v : Word) : Option Dev :=
  let lo := fieldOf v 3 0
  let hi := fieldOf v 7 4
  if 2 ≤ lo ∧ lo ≤ hi ∧ hi ≤ 14 then some (d.plainWrite 0x6000108 v) else none

/-- REEF_SRAM_LIMIT_WRITE: inconsistent limits are discarded with an event (R78). -/
def execReefSramLimitWrite (v : Word) : State → Out := regCmd 0x6000108 v fun d =>
  d.orDiscard 0x6000108 v ((d.sramLimit v).map Dev.tellDecision)

/-! ### Rotation and tile tests -/

/-- TILE_SELF_TEST_END: a tile in test passes (UNIT 0) or fails (R93, R485). -/
def execTileSelfTestEnd (die q unit : Nat) : State → Out := run fun d =>
  if d.tiles.testing.any (·.1 == die * 192 + q) then d.tileTested die q unit else d

/-- FIRMWARE_ROTATION: a rotation slot on chosen dies while no array program runs and no save or restore is in progress (R94, R100). -/
def execFirmwareRotation (dies : BitVec 4) : State → Out := run fun d =>
  if d.seq.launch.isSome ∨ d.handing then d else d.rotate ((List.range 4).filter fun i => dies.getLsbD i)

/-- SPARE_RETEST_DUE: a spare is tested again in place (R94). -/
def execSpareRetestDue (die q : Nat) : State → Out := run fun d =>
  if d.pts die q = 2 ∧ die < 4 ∧ q < 168 then d.testInPlace die q else d

/-! ### Hand-over -/

/-- SLICE_EXPIRY: a hand-over is due when another context waits and hand-over is on; without an array program it begins at once (R97). -/
def execSliceExpiry : State → Out := run fun d =>
  if d.tiles.handover ≠ .idle ∨ d.tiles.waiting.isEmpty ∨ d.rd REEF_HANDOVER_SLICE = 0 ∨ d.rd REEF_STATUS_OWNER_VALID = 0 then d
  else (d.updTiles fun t => { t with handover := .due, dueAt := d.now }).handStep

/-- YIELD_WAIT_EXPIRY: the hand-over falls at the next array-operation boundary, except in a domain launch (R97). -/
def execYieldWaitExpiry : State → Out := run fun d =>
  if d.tiles.handover ≠ .due ∨ d.seq.launch.any (·.startTick.isSome) then d
  else (d.updTiles fun t => { t with handover := .dueBoundary }).handStep

/-- Whether a local-store key lies in a byte range of its tile. -/
def inRange (lo len unit k : Nat) : Bool :=
  let a := k % (2 ^ 21 / unit)
  decide (lo / unit ≤ a) && decide (a * unit < lo + len)

/-- Whether an accumulator key lies in one of some banks. -/
def inBanks (banks : BitVec 2) (k : Nat) : Bool := banks.getLsbD (k / 8192 % 2)

/-- What a save takes of the owner's Reef state (R98). -/
def Dev.savedOf (d : Dev) (tag : Nat) : Saved :=
  let (lo, len) := d.seq.yldRange
  let b := d.seq.yldBanks
  let t := d.tiles
  { tag := tag, seq := d.seq, split := t.split, pool := t.pool, lo := lo, len := len, banks := b
    ls := t.ls.filter fun p => inRange lo len 1 p.1
    lsPoison := t.lsPoison.filter fun p => inRange lo len 64 p.1
    acc := t.acc.filter fun p => inBanks b p.1
    accPoison := t.accPoison.filter fun p => inBanks b p.1
    sat := t.sat.filter fun p => b.getLsbD (p.1 % 2)
    thr := d.thr }

/-- Every tile's L1 written back and invalidated; none while a write-back waits (R98 step 2). -/
def Dev.cleanL1 (d : Dev) : Option Dev :=
  (d.tiles.l1.map (·.tile)).eraseDups.foldl (fun (r : Option Dev) t => r.bind fun d => d.walkDone t) (some d)

/-- REEF_SAVE_COMPLETE: once the threads' requests are complete and the L1s clean, the owner's state is saved and the restore of the new owner begins; the state of an owner with no work left is not kept (R98, R100, Table 3.13). -/
def execReefSaveComplete (cycles : Nat) : State → Out := run fun d =>
  match d.tiles.handover with
  | .saving w =>
    if !d.thr.accs.isEmpty then d
    else match d.cleanL1 with
      | none => d
      | some d =>
        let tag := d.rd REEF_STATUS_OWNER_TAG
        let keep := d.resident
        let s := d.savedOf tag
        let d := d.updTiles fun t => { t with
          saved := if keep then t.saved.filter (·.tag != tag) ++ [s] else t.saved
          waiting := if keep then t.waiting ++ [tag] else t.waiting
          handover := .restoring w }
        let d := { d with thr := { nextAcc := d.thr.nextAcc }
                          seq := { faultAt := d.seq.faultAt, nextOp := d.seq.nextOp } }
        (((d.wr REEF_HO_STATUS_LAST_SAVE (min cycles (2 ^ 32 - 1))).wr REEF_STATUS_OWNER_VALID 0).wr REEF_STATUS_STATE 4).tdSync
  | _ => d

/-- A table with the entries that satisfy `p` replaced. -/
def sreplace {α : Type} [DecidableEq α] (dflt : Nat → α) (t : Sparse α) (p : Nat → Bool) (new : Sparse α) : Sparse α :=
  new.foldl (fun m e => sput dflt m e.1 e.2) (t.filter fun e => !p e.1)

/-- The tiles with a saved state written back (R98). -/
def Tiles.restored (t : Tiles) (s : Saved) : Tiles :=
  { t with
    ls := sreplace (fun _ => 0) t.ls (inRange s.lo s.len 1) s.ls
    lsPoison := sreplace (fun _ => false) t.lsPoison (inRange s.lo s.len 64) s.lsPoison
    acc := sreplace (fun _ => 0) t.acc (inBanks s.banks) s.acc
    accPoison := sreplace (fun _ => false) t.accPoison (inBanks s.banks) s.accPoison
    sat := sreplace (fun _ => false) t.sat (fun k => s.banks.getLsbD (k % 2)) s.sat
    split := s.split, pool := s.pool, saved := t.saved.filter (·.tag != s.tag) }

/-- Instruction memory reloaded from the image of the launch that a restored state holds (R109). -/
def Dev.reloadImage (d : Dev) : Except Xlate Dev :=
  match d.seq.launch with
  | none => .ok d
  | some l =>
    if !l.loaded then .ok d
    else
      let n := d.seq.imem.length
      match d.vgather l.tag (l.image.toNat + 64) (8 * n) .image with
      | .ok (d, ib) =>
        let d := d.updSeq fun s => { s with imem := (chunks 8 n (ib.map (·.1))).map (BitVec.ofNat 64) }
        .ok (if ib.any (·.2) then d.seqErr .poisonConsumed 0xFF d.seq.pc else d)
      | .error (.ended st) => .ok (d.seqErr st 0xFF d.seq.pc)
      | .error x => .error x

/-- REEF_RESTORE_COMPLETE: the new owner has its saved state and split, where it has one, and its operations may issue (R98). -/
def execReefRestoreComplete : State → Out := run fun d =>
  match d.tiles.handover with
  | .restoring w =>
    let d0 := (d.updTiles fun t => { t with handover := .idle, ownerSince := d.now }).inc REEF_HO_STATUS_HANDOVERS
    if (d.context? w).isNone then (d0.wr REEF_STATUS_OWNER_VALID 1).ownerStep
    else
      let d1 := ((d0.wr REEF_STATUS_OWNER_TAG w).wr REEF_STATUS_OWNER_VALID 1).wr REEF_STATUS_STATE 1
      match d.tiles.saved.find? (·.tag == w) with
      | none => d1
      | some s =>
        let d1 := d1.updTiles fun t => t.restored s
        let d1 := { d1 with seq := { s.seq with faultAt := d.seq.faultAt, stallAt := d.tick }
                            thr := { s.thr with nextAcc := d.thr.nextAcc } }
        match ((d1.wr REEF_STATUS_LS_SEGS s.split).tdSync).reloadImage with
        | .ok d => (d.wr REEF_SEQ_STATUS_PC d.seq.pc).seqStep
        | .error _ => d
  | _ => d

end Sys2Proof.Machine
end

