-- ==== Sys2Proof/Machine/SecOps.lean ====
section
/-! DEFINITION. The shared operations of the security unit: fuses and transitions (R514–R518), keys and the identity window (R522–R525, R531), patches (R527–R529), commands (R533). (DEDUCED, assumption 51) -/

namespace Sys2Proof.Machine

/-- The device with its security state changed. -/
def Dev.updSec (d : Dev) (f : Sec → Sec) : Dev := { d with sec := f d.sec }

/-- The life-cycle state in force: 0 BLANK, 1 TEST, 2 PROVISIONED, 3 FIELD, 4 RMA, 5 END (Table 19.1). -/
def Dev.lcState (d : Dev) : Nat := d.rd SEC_LC_STATE_STATE

/-- Whether an entropy source is in service (R521). -/
def Dev.entropyOk (d : Dev) : Bool := d.rd SEC_ENTROPY_OK_C0 == 1 || d.rd SEC_ENTROPY_OK_C1 == 1

/-! ### Fuses (R514, R516, R530) -/

/-- The state that the fuses of the two control dies give: the later one (R514). -/
def Otp.state (o : Otp) : Nat := max o.lc0.toNat o.lc1.toNat

/-- The anti-rollback count: the greater of the two (R530). -/
def Otp.count (o : Otp) : Nat := max o.count0 o.count1

/-- The state fuses of both dies burnt up to a state; fuses never go back (R514, R516). -/
def Otp.burn (o : Otp) (st : Nat) : Otp :=
  let v := BitVec.ofNat 3 (max o.state st)
  { o with lc0 := v, lc1 := v, intent := none }

/-- The count raised on both dies; it never falls (R530). -/
def Otp.raise (o : Otp) (v : Nat) : Otp := { o with count0 := max o.count v, count1 := max o.count v }

/-- SEC_LC_STATE as start-up sets it from the fuses (Table 19.6). -/
def Dev.showLc (d : Dev) (o : Otp) : Dev :=
  let d := ((d.wr SEC_LC_STATE_STATE o.state).wr SEC_LC_STATE_ROLLBACK o.count).wr SEC_LC_STATE_INTENT o.intent.isSome.toNat
  d.wr SEC_LC_STATE_PENDING (match o.intent with | some t => t.toNat | none => o.state)

/-! ### Keys, challenge, measurements (R517, R522–R525, R531) -/

/-- A fresh challenge from the entropy source (R517, DESIGN CHOICE, assumption 4). -/
def Dev.newChallenge (d : Dev) : Dev := let (w, d) := d.free; d.wr SEC_CHALLENGE_VALUE w.toNat

/-- The bytes of SEC_ID_WIN: public key and certificate (Table 19.13). -/
def Dev.idBytes (d : Dev) : List Byte :=
  let pub := match d.nv.idKey with
    | some g => (List.range 1793).map (Config.keyByte g)
    | none => []
  let cert := d.nv.cert.getD []
  pub ++ List.replicate (4096 - pub.length) 0 ++ cert ++ List.replicate (4096 - cert.length) 0

/-- SEC_ID_WIN shows the key and the certificate. -/
def Dev.idSync (d : Dev) : Dev :=
  if d.nv.idKey.isNone ∧ d.nv.cert.isNone then d
  else
    let bs := d.idBytes
    (List.range 1024).foldl (fun d i => d.wr (SEC_ID_WIN_BYTES i) (leNat ((bs.drop (8 * i)).take 8))) d

/-- The Shelf keys are generated anew and the directory starts empty (R531, R532, Table 19.1). -/
def Dev.newShelfKeys (d : Dev) : Dev :=
  ({ d with nv := { d.nv with keyGen := d.nv.keyGen + 1, shelfKeys := some d.nv.keyGen, dir := [], flash := [] } } : Dev).tierSync

/-- The identity key is generated (R522). -/
def Dev.newIdKey (d : Dev) : Dev :=
  ({ d with nv := { d.nv with keyGen := d.nv.keyGen + 1, idKey := some d.nv.keyGen } } : Dev).idSync

/-- What entry to RMA or END erases; END also clears the staged patch (R518). -/
def Dev.eraseAll (d : Dev) (target : Nat) : Dev :=
  let d := { d with nv := { d.nv with idKey := none, shelfKeys := none, patch := if target = 5 then none else d.nv.patch } }
  let d := (List.range 225).foldl (fun d i => d.wr (SEC_ID_WIN_BYTES i) 0) d
  let d := d.zeroFill 0 poolTop
  let d := { d with tdm := { d.tdm with shelfDump := none, spill := [], dump := none }
                    coh := { d.coh with lines := [], dups := [] } }
  if target = 5 then (d.wr SEC_PATCH_STATUS_STAGED 0).wr SEC_PATCH_STATUS_LEVEL 0 else d

/-- Step 2 of a transition: key generation at entry to PROVISIONED, erasure at entry to RMA or END (R516, R518, R522). -/
def Dev.lcStep2 (d : Dev) (target : Nat) : Dev :=
  if target = 2 then d.newIdKey.newShelfKeys
  else if target = 4 ∨ target = 5 then (d.eraseAll target).updSec fun x => { x with locked := true }
  else d

/-- Steps 2 and 3 of a transition (R516, R534). -/
def lcFinish (target : Nat) (s : State) : State :=
  let d := ((s.dev.lcStep2 target).wr SEC_LC_STATE_INTENT 0).event 15 0 1 0 target 0 0
  { s with dev := d, otp := s.otp.burn target }

/-- A measurement register as bytes. -/
def Dev.mr (d : Dev) (i : Nat) : List Byte := (List.range 4).flatMap fun k => leBytes 8 (d.rd (SEC_MR_BYTES i k))

/-- A measurement register extended with a 32-byte value (R525). -/
def Dev.mrExtend (d : Dev) (i : Nat) (v : List Byte) : Dev :=
  let x := (digest256 (d.mr i ++ v)).toNat
  (List.range 4).foldl (fun d k => d.wr (SEC_MR_BYTES i k) (x / 2 ^ (64 * k))) d

/-- Bytes padded with zeros to a length. -/
def padTo (n : Nat) (bs : List Byte) : List Byte := bs ++ List.replicate (n - bs.length) 0

/-- The digest's 32 bytes of a message. -/
def digestBytes (m : List Byte) : List Byte := leBytes 32 (digest256 m).toNat

/-- MR0 to MR3 extended at start-up (R525). -/
def Dev.measure (d : Dev) : Dev :=
  let d := (List.range 6).foldl (fun d i => d.mrExtend 0 (leBytes 32 (Config.romDigest i).toNat)) d
  let d := d.mrExtend 1 (match d.sec.loaded with | some b => digestBytes b | none => List.replicate 32 0)
  let d := d.mrExtend 2 (padTo 32 (leBytes 1 d.lcState ++ leBytes 1 (d.rd SEC_LC_STATE_ROLLBACK) ++ leBytes 1 (d.rd NRW_DISC_STATUS_LEVEL) ++
    leBytes 4 (d.rd SEC_PATCH_STATUS_VERSION)))
  (List.range 6).foldl (fun d i => match getKey d.nrw.ids i with
    | some x => d.mrExtend 3 (padTo 32 (leBytes 16 x.serial.toNat ++ leBytes 1 x.rev ++ leBytes 1 x.feat ++ leBytes 1 x.minpair))
    | none => d) d

/-! ### Patches (R527–R529) -/

/-- A little-endian field of a byte string. -/
def fieldAt (bs : List Byte) (off n : Nat) : Nat := leNat ((bs.drop off).take n)

/-- The bytes of a blob whose header is given. -/
def blobLen (h : List Byte) : Nat := 64 + 16 * fieldAt h 16 2 + fieldAt h 20 4 + 1280

/-- Whether a patch table keeps R528: hooks 0x00–0xDF, no two alike, each entry within the code. -/
def patchTableOk (b : List Byte) : Bool :=
  let es := (List.range (fieldAt b 16 2)).map fun i => (fieldAt b (64 + 16 * i) 2, fieldAt b (64 + 16 * i + 4) 4, fieldAt b (64 + 16 * i + 8) 4)
  es.all (fun e => decide (e.1 ≤ 0xDF) && decide (e.2.1 + e.2.2 ≤ fieldAt b 20 4)) && decide ((es.map (·.1)).Nodup)

/-- Why a blob does not verify: REASON of Table 19.10, 0 when it does (R528). -/
def Dev.patchReason (d : Dev) (o : Otp) (b : List Byte) : Nat :=
  if fieldAt b 0 4 ≠ 0x4E504231 ∨ fieldAt b 4 2 ≠ 1 ∨ 256 < fieldAt b 16 2 ∨ 262144 < fieldAt b 20 4 ∨ 32 < fieldAt b 6 1 ∨
      b.length ≠ blobLen b then 1
  else if fieldAt b 12 4 ≠ Config.romId then 2
  else if fieldAt b 24 16 ≠ 0 ∧ fieldAt b 24 16 ≠ d.nv.serial.toNat then 3
  else if d.lcState < 1 ∨ 4 < d.lcState ∨ fieldAt b 7 1 / 2 ^ d.lcState % 2 = 0 then 4
  else if fieldAt b 6 1 < o.count then 5
  else if !patchTableOk b then 6
  else if !Config.falconVerifies (Config.romKey 2) (digestBytes (b.take (b.length - 1280))) (b.drop (b.length - 1280)) then 7
  else 0

/-- The staged blob is verified and loaded at start-up (R529). -/
def Dev.loadPatch (d : Dev) (o : Otp) : Dev :=
  match d.nv.patch with
  | none => d
  | some b =>
    let d := (d.wr SEC_PATCH_STATUS_STAGED 1).wr SEC_PATCH_STATUS_LEVEL (fieldAt b 6 1)
    match d.patchReason o b with
    | 0 =>
      let d := (d.wr SEC_PATCH_STATUS_LOADED 1).wr SEC_PATCH_STATUS_VERSION (fieldAt b 8 4)
      (d.event 15 0 3 0 0 0 0).updSec fun x => { x with loaded := some b }
    | r => (d.wr SEC_PATCH_STATUS_REASON r).event 15 2 2 0 0 r 0

/-! ### Commands (R533) -/

/-- A command ends with a status; a GO written meanwhile then leaves STATUS BUSY (R533). -/
def Dev.secEnd (d : Dev) (st : Status) : Dev :=
  let st := if d.sec.busyWrite then Status.busy else st
  ((d.wr SEC_CMD_STATUS (statusCode st)).wr SEC_CMD_GO 0).updSec fun x => { x with cmd := none, busyWrite := false }

/-- A command refused with a status, and one SECURITY event: 5 for an access of Table 19.3, 7 for another refusal (R519, R534). -/
def Dev.secRefuse (d : Dev) (ev op : Nat) (st : Status) : Dev := (d.event 15 0 ev 0 op 0 0).secEnd st

/-- A GO of SEC_CMD: ignored while a command runs, else the command's fields stand and it starts (R533). -/
def Dev.secGo (d : Dev) (op param : Nat) (f : Dev → Dev) : Dev :=
  if d.sec.cmd.isSome then d.updSec fun x => { x with busyWrite := true }
  else
    let d := ((d.wr SEC_CMD_PARAM param).wr SEC_CMD_OP op).wr SEC_CMD_GO 1
    f (d.updSec fun x => { x with cmd := some (op, param) })

/-- The word of SEC_CMD that starts a command. -/
def secWord (op param : Nat) : Word := BitVec.ofNat 64 (param % 2 ^ 16 * 2 ^ 16 + op * 2 ^ 8 + 1)

/-- The bytes of the command's buffer, when it lies aligned in HBM available to allocation and holds no poison (Table 19.8). -/
def Dev.secBuf (d : Dev) (n : Nat) : Option (List Byte) :=
  let a := d.rd SEC_CMD_ADDR_ADDR
  if a % 64 = 0 ∧ inAlloc a n ∧ !d.poisonIn a n then some (d.bytesAt a n) else none

/-- Whether the twin state makes a command BUSY (R533). -/
def Dev.twinBusy (d : Dev) : Bool := let s := d.twState; s == 2 || s == 3 || s == 4

/-- Whether the gate of a transition to RMA or END holds: MAINTENANCE, and the twin OFF or FENCED (Table 19.2). -/
def Dev.lcGate (d : Dev) : Bool := d.svcState == 2 && (d.twState == 0 || d.twState == 8)

/-- Whether an RMA token is valid (R517). -/
def Dev.tokenOk (d : Dev) (t : List Byte) : Bool :=
  fieldAt t 0 8 == d.rd SEC_CHALLENGE_VALUE && fieldAt t 8 16 == d.nv.serial.toNat && fieldAt t 24 1 == 4 && fieldAt t 25 7 == 0 &&
    Config.falconVerifies (Config.romKey 0) (digestBytes (t.take 32)) (t.drop 32)

/-- What LC_TRANSITION to a target meets before it starts: none when it may (R515, R517, Table 19.2). -/
def Dev.lcCheck (d : Dev) (target confirm : Nat) : Option Status :=
  let st := d.lcState
  if d.twinBusy then some .busy
  else match st, target with
    | 1, 2 => if d.entropyOk then none else some .busy
    | 2, 3 => none
    | 2, 4 | 3, 4 =>
      if !d.lcGate then some .busy
      else match d.secBuf 1312 with
        | none => some .aborted
        | some t => if d.tokenOk t then none else some .notPermitted
    | _, 5 =>
      if st = 0 ∨ st = 5 ∨ confirm ≠ 0xA5 then some .notPermitted
      else if d.lcGate then none else some .busy
    | _, _ => some .notPermitted

/-- Whether a certificate checks out (R524). -/
def Dev.certOk (d : Dev) (c : List Byte) : Bool :=
  fieldAt c 0 4 == 0x43455254 && fieldAt c 4 2 == 1 && fieldAt c 6 2 == 0 && fieldAt c 1833 7 == 0 && fieldAt c 8 16 == d.nv.serial.toNat &&
    d.nv.idKey.any (fun g => (c.drop 40).take 1793 == (List.range 1793).map (Config.keyByte g)) &&
    Config.falconVerifies (Config.romKey 1) (digestBytes (c.take 1840)) (c.drop 1840)

/-- A crypto-erase ends: new keys and an empty directory (R532). -/
def Dev.eraseKeys (d : Dev) : Dev :=
  let d := d.newShelfKeys
  ({ d with nv := { d.nv with erasing := false } } : Dev).event 15 0 6 0 7 0 0

end Sys2Proof.Machine
end

