-- ==== Sys2Proof/Machine/Sec.lean ====
section
/-! DEFINITION. The commands of the security unit and of the test access port (R514–R534). -/

namespace Sys2Proof.Machine

/-! ### Commands of SEC_CMD -/

/-- LC_TRANSITION starts: a transition that Table 19.2 does not list or whose gate fails ends at once, else the intent fuse is burnt (R515, R516). -/
def startLc (target confirm : Nat) (s : State) : State :=
  let d := s.dev
  if d.sec.cmd.isSome then { s with dev := d.secGo 1 0 id }
  else
    let d := d.secGo 1 (confirm % 256 * 256 + target % 8) id
    match d.lcCheck (target % 8) (confirm % 256) with
    | some .notPermitted => { s with dev := (d.secRefuse 7 (target % 8) .notPermitted).newChallenge }
    | some st => { s with dev := (d.secEnd st).newChallenge }
    | none =>
      { s with dev := (d.wr SEC_LC_STATE_INTENT 1).wr SEC_LC_STATE_PENDING (target % 8)
               otp := { s.otp with intent := some (BitVec.ofNat 3 (target % 8)) } }

/-- A register write that may change the fuses. -/
def regCmdS (off : Nat) (v : Word) (f : State → State) (s : State) : Out :=
  .next (if s.dev.live && !s.dev.down then
      (match s.dev.regGate off v with
       | some d => { s with dev := d }
       | none => f s)
    else s)

/-- LC_TRANSITION. -/
def execLcTransition (target confirm : Nat) : State → Out :=
  regCmdS SEC_CMD_GO.reg (secWord 1 (confirm % 256 * 256 + target % 8)) (startLc target confirm)

/-- What QUOTE starts (R526, Table 19.3). -/
def Dev.startQuote (d : Dev) (mask : Nat) : Dev := d.secGo 2 mask fun d =>
  if d.lcState ≠ 2 ∧ d.lcState ≠ 3 then d.secRefuse 5 2 .notPermitted
  else if mask = 0 ∨ (d.secBuf 2048).isNone then d.secEnd .aborted
  else if !d.entropyOk then d.secEnd .busy
  else d

/-- QUOTE. -/
def execQuote (mask : BitVec 16) : State → Out := regCmd SEC_CMD_GO.reg (secWord 2 mask.toNat) fun d => d.startQuote mask.toNat

/-- What MR_EXTEND starts: MR5 to MR15 alone (R525). -/
def Dev.startMrExtend (d : Dev) (i : Nat) : Dev := d.secGo 3 i fun d =>
  if i < 5 ∨ 15 < i ∨ (d.secBuf 32).isNone then d.secEnd .aborted else d

/-- MR_EXTEND. -/
def execMrExtend (i : Nat) : State → Out := regCmd SEC_CMD_GO.reg (secWord 3 i) fun d => d.startMrExtend (i % 65536)

/-- The blob at SEC_CMD_ADDR, when its buffer may be read. -/
def Dev.blobAt (d : Dev) : Option (List Byte) :=
  match d.secBuf 64 with
  | none => none
  | some h => if 256 < fieldAt h 16 2 ∨ 262144 < fieldAt h 20 4 then some h else d.secBuf (blobLen h)

/-- What PATCH_STAGE starts (R528, R533, Table 19.3). -/
def Dev.startPatchStage (d : Dev) : Dev := d.secGo 4 0 fun d =>
  if d.lcState = 0 ∨ d.lcState = 5 then d.secRefuse 5 4 .notPermitted
  else if d.twinBusy then d.secEnd .busy
  else if d.blobAt.isNone then d.secEnd .aborted
  else d

/-- PATCH_STAGE. -/
def execPatchStage : State → Out := regCmd SEC_CMD_GO.reg (secWord 4 0) fun d => d.startPatchStage

/-- What PATCH_CLEAR starts (R528). -/
def Dev.startPatchClear (d : Dev) : Dev := d.secGo 5 0 id

/-- PATCH_CLEAR. -/
def execPatchClear : State → Out := regCmd SEC_CMD_GO.reg (secWord 5 0) fun d => d.startPatchClear

/-- What ROLLBACK_ADVANCE starts (R530). -/
def Dev.startRollback (d : Dev) (v : Nat) : Dev := d.secGo 6 v fun d =>
  if v ≤ d.rd SEC_LC_STATE_ROLLBACK ∨ 32 < v ∨ d.sec.loaded.any (fun b => decide (fieldAt b 6 1 < v)) ∨
      d.nv.patch.any (fun b => decide (fieldAt b 6 1 < v)) then d.secEnd .aborted
  else d

/-- ROLLBACK_ADVANCE. -/
def execRollbackAdvance (v : Nat) : State → Out := regCmd SEC_CMD_GO.reg (secWord 6 v) fun d => d.startRollback (v % 65536)

/-- What CRYPTO_ERASE starts (R532, R533). -/
def Dev.startCryptoErase (d : Dev) (confirm : Nat) : Dev := d.secGo 7 (confirm % 256 * 256) fun d =>
  if d.lcState ≠ 2 ∧ d.lcState ≠ 3 then d.secRefuse 7 7 .notPermitted
  else if confirm % 256 ≠ 0xA5 then d.secEnd .aborted
  else if d.twinBusy ∨ d.svcState ≠ 2 ∨ d.rd FE_STATUS_LIVE_CTX ≠ 0 ∨ !d.entropyOk then d.secEnd .busy
  else { d with nv := { d.nv with erasing := true } }

/-- CRYPTO_ERASE. -/
def execCryptoErase (confirm : Nat) : State → Out := regCmd SEC_CMD_GO.reg (secWord 7 (confirm % 256 * 256)) fun d => d.startCryptoErase confirm

/-- What INSTALL_CERT starts (R524). -/
def Dev.startInstallCert (d : Dev) : Dev := d.secGo 8 0 fun d =>
  if d.lcState ≠ 2 then d.secRefuse 7 8 .notPermitted
  else match d.secBuf 3120 with
    | none => d.secEnd .aborted
    | some c => if d.certOk c then d else d.secRefuse 7 8 .notPermitted

/-- INSTALL_CERT. -/
def execInstallCert : State → Out := regCmd SEC_CMD_GO.reg (secWord 8 0) fun d => d.startInstallCert

/-- A quote (Table 19.4). -/
def Dev.quoteBytes (d : Dev) (mask : Nat) (nonce : List Byte) (qseq : Nat) : List Byte :=
  let regs := (List.range 16).filter fun i => mask / 2 ^ i % 2 = 1
  let body := leBytes 4 0x514F5445 ++ leBytes 2 1 ++ leBytes 1 d.lcState ++ leBytes 1 (d.rd SEC_LC_STATE_ROLLBACK) ++
    leBytes 16 d.nv.serial.toNat ++ leBytes 4 (d.rd SEC_PATCH_STATUS_VERSION) ++ leBytes 2 mask ++ leBytes 2 0 ++
    leBytes 8 d.now ++ leBytes 8 qseq ++ nonce ++ regs.flatMap d.mr
  body ++ (List.range 1280).map (Config.signatureByte (d.nv.idKey.getD 0) (digestBytes body))

/-- SEC_COMMAND_COMPLETE: the running command has its effect, STATUS is set and GO cleared (R533). -/
def secComplete (s : State) : State :=
  let d := s.dev
  match d.sec.cmd with
  | none => s
  | some (1, param) =>
    let t := lcFinish (param % 8) s
    { t with dev := (t.dev.secEnd .ok).newChallenge }
  | some (2, mask) =>
    match d.secBuf 2048 with
    | none => { s with dev := d.secEnd .aborted }
    | some b =>
      let n := d.sec.qseq + 1
      let d := d.putBytes (d.rd SEC_CMD_ADDR_ADDR) (d.quoteBytes mask ((b.drop 48).take 32) n)
      { s with dev := (d.updSec fun x => { x with qseq := n }).secEnd .ok }
  | some (3, i) =>
    match d.secBuf 32 with
    | none => { s with dev := d.secEnd .aborted }
    | some v => { s with dev := (d.mrExtend i v).secEnd .ok }
  | some (4, _) =>
    match d.blobAt with
    | none => { s with dev := d.secEnd .aborted }
    | some b =>
      match d.patchReason s.otp b with
      | 0 =>
        let d := ((d.wr SEC_PATCH_STATUS_STAGED 1).wr SEC_PATCH_STATUS_LEVEL (fieldAt b 6 1)).wr SEC_PATCH_STATUS_REASON 0
        { s with dev := ({ d with nv := { d.nv with patch := some b } } : Dev).secEnd .ok }
      | r => { s with dev := (d.wr SEC_PATCH_STATUS_REASON r).secRefuse 2 4 .notPermitted }
  | some (5, _) =>
    let d := (d.wr SEC_PATCH_STATUS_STAGED 0).wr SEC_PATCH_STATUS_LEVEL 0
    { s with dev := ({ d with nv := { d.nv with patch := none } } : Dev).secEnd .ok }
  | some (6, v) => { s with dev := (d.wr SEC_LC_STATE_ROLLBACK v).secEnd .ok, otp := s.otp.raise v }
  | some (7, _) => { s with dev := d.eraseKeys.secEnd .ok }
  | some (_, _) =>
    match d.secBuf 3120 with
    | none => { s with dev := d.secEnd .aborted }
    | some c =>
      if d.certOk c then { s with dev := (({ d with nv := { d.nv with cert := some c } } : Dev).idSync).secEnd .ok }
      else { s with dev := d.secRefuse 7 8 .notPermitted }

/-- SEC_COMMAND_COMPLETE. -/
def execSecCommandComplete (s : State) : Out := .next (if s.dev.live && !s.dev.down then secComplete s else s)

/-! ### The test access port (R519, R520) -/

/-- A TAP instruction in force: 0 IDCODE, 1 BYPASS, 2 SAMPLE/PRELOAD, 3 EXTEST, 4 CLAMP, 5 HIGHZ, 6 LC_ADVANCE. -/
def Dev.tap (d : Dev) (ir : Nat) : Dev := d.updSec fun x => { x with tapIr := ir }

/-- An instruction that the life-cycle state closes acts as BYPASS, with one SECURITY event (R519). -/
def Dev.tapClosed (d : Dev) : Dev := (d.tap 1).accessRefused 0

/-- Whether the state opens EXTEST, CLAMP and HIGHZ: BLANK, TEST and RMA (Table 19.3). -/
def Dev.tapOpen (d : Dev) : Bool := let s := d.lcState; s == 0 || s == 1 || s == 4

/-- What an instruction captures goes out on TDO: the manual gives no value of it (DESIGN CHOICE, assumption 4). -/
def Dev.tapOut (d : Dev) : Dev := let (w, d) := d.free; d.send (.tap w)

/-- LC_ADVANCE: BLANK to TEST, or TEST to PROVISIONED with a healthy entropy source; closed in any other state (R515, R516). -/
def lcAdvance (s : State) : State :=
  let d := s.dev
  if d.sec.cmd.isSome then s
  else match d.lcState with
    | 0 => lcFinish 1 { s with dev := (d.tap 6).wr SEC_LC_STATE_PENDING 1 }
    | 1 => if d.entropyOk then lcFinish 2 { s with dev := (d.tap 6).wr SEC_LC_STATE_PENDING 2 } else { s with dev := d.tap 6 }
    | _ => { s with dev := d.tapClosed }

/-- LC_ADVANCE. -/
def execLcAdvance (s : State) : Out := .next (if s.dev.live then lcAdvance s else s)

/-- BYPASS. -/
def execTapBypass : State → Out := act fun d => d.tap 1

/-- IDCODE. -/
def execTapIdcode : State → Out := act fun d => (d.tap 0).tapOut

/-- SAMPLE/PRELOAD. -/
def execTapSamplePreload : State → Out := act fun d => (d.tap 2).tapOut

/-- EXTEST. -/
def execTapExtest : State → Out := act fun d => if d.tapOpen then (d.tap 3).tapOut else d.tapClosed

/-- CLAMP. -/
def execTapClamp : State → Out := act fun d => if d.tapOpen then d.tap 4 else d.tapClosed

/-- HIGHZ. -/
def execTapHighz : State → Out := act fun d => if d.tapOpen then d.tap 5 else d.tapClosed

/-- ESCAPE_SEQUENCE: the mode of the TAP.7 controller (R520). -/
def execTapEscape (mode : TapMode) : State → Out := act fun d => d.updSec fun x => { x with tapMode := mode }

/-- ENTROPY_HEALTH_FAILURE: the die's source is failed until the next reset (R521). -/
def execEntropyHealthFailure (die : Nat) : State → Out := act fun d =>
  match die with
  | 0 => ((d.wr SEC_ENTROPY_OK_C0 0).inc SEC_ENTROPY_FAIL_C0).event 15 2 4 0 0 0 0
  | 1 => ((d.wr SEC_ENTROPY_OK_C1 0).inc SEC_ENTROPY_FAIL_C1).event 15 2 4 1 0 0 0
  | _ => d

end Sys2Proof.Machine
end

