-- ==== Sys2Proof/Machine/TdmOps.lean ====
section
/-! DEFINITION. The shared operations of Tidemark: snapshots (R505–R507), numbering and merging (R499, R504), the spill region (R500, R503), freeing (R508). (DEDUCED, assumption 29) -/

namespace Sys2Proof.Machine

/-- The device with its recorder changed. -/
def Dev.updTdm (d : Dev) (f : Tidemark → Tidemark) : Dev := { d with tdm := f d.tdm }

/-! ### Snapshots (R506) -/

/-- The die of an agent of Table 10.6 among clusters, engines and homes, where one die alone bears it. -/
def agentDie (a : Nat) : List Nat :=
  if a < 0x10 then [4] else if a < 0x20 then [5]
  else if a < 0x30 then [(a - 0x20) / 4] else if a < 0x32 then [4] else if a < 0x34 then [5]
  else if a = 0x34 ∨ a = 0x36 ∨ a = 0x38 ∨ a = 0x39 then [4]
  else if a = 0x35 ∨ a = 0x37 ∨ a = 0x3A then [5]
  else if 0x58 ≤ a ∧ a ≤ 0x5B then [a - 0x58] else [0, 1, 2, 3, 4, 5]

/-- The dies on which a snapshot slot lies: absent when none of them answers (R506, Table 1.4). -/
def slotDies (off : Nat) : List Nat :=
  let o := off % 2 ^ 24
  match off / 2 ^ 24 with
  | 3 => if 0x1000 ≤ o then [(o - 0x1000) / 8 / 128] else [0, 1, 2, 3]
  | 5 =>
    if 0x1000 ≤ o then agentDie ((o - 0x1000) / 8)
    else if 0x100 ≤ o ∧ o < 0x130 then [(o - 0x100) / 8] else [0, 1, 2, 3, 4, 5]
  | 6 =>
    if 0x500 ≤ o ∧ o < 0x520 then [(o - 0x500) / 8] else [0, 1, 2, 3]
  | 8 => [4]
  | 9 => if 0x100 ≤ o ∧ o < 0x130 then [(o - 0x100) / 8] else [0, 1, 2, 3, 4, 5]
  | 10 => [5]
  | 13 =>
    if 0x100 ≤ o ∧ o < 0x130 then [(o - 0x100) / 8]
    else if 0x130 ≤ o ∧ o < 0x1B0 then [(o - 0x130) / 8 / 4] else [4, 5]
  | 14 => [0, 1, 2, 3, 4, 5]
  | _ => [4, 5]

/-- Whether a die is in reset, out of the package or lost. -/
def Dev.dieAway (d : Dev) (die : Nat) : Bool := let s := d.rd (NRW_DIE_STATE die); s == 4 || s == 6 || s == 7

/-- What a snapshot slot of a class reads for a SOURCE: none when it could not be read (R506, Table 18.11). -/
def Dev.snapSlot (d : Dev) (cls i source : Nat) : Option Word :=
  let blk := d.rd (TDM_SNAPSEL_BLOCK cls i)
  let base := d.rd (TDM_SNAPSEL_OFFSET cls i)
  let dieSlot := cls == 10 && blk == 9 && decide (0x100 ≤ base) && decide (base < 0x130)
  let idx := d.rd (TDM_SNAPSEL_IDX cls i) == 1
  if idx ∧ dieSlot ∧ source < 16 then none
  else
    let n := if !idx then 0 else if dieSlot then source - 16 else source
    let off := blk * 2 ^ 24 + base + n * d.rd (TDM_SNAPSEL_STRIDE cls i)
    if off / 2 ^ 24 ≠ blk ∨ off % 8 ≠ 0 ∨ (regMapAt off).isNone ∨ (slotDies off).all d.dieAway ∨ (d.discStopped ∧ !blockOpen blk) then none
    else some (d.readReg off)

/-- The snapshot of a class: the slots up to the first with VALID 0 (R507). -/
def Dev.snapshot (d : Dev) (cls source : Nat) : List (Option Word) :=
  (((List.range 10).takeWhile fun i => d.rd (TDM_SNAPSEL_VALID cls i) == 1)).map fun i => d.snapSlot cls i source

/-! ### Records (Table 18.1) -/

/-- The 128 bytes of a record. -/
def TRec.bytes (r : TRec) : List Byte :=
  let snap := (List.range 10).flatMap fun i => leBytes 8 (r.snap.getD i 0).toNat
  leBytes 8 r.seq ++ leBytes 1 r.cls ++ leBytes 1 r.sev ++ leBytes 2 r.event ++ leBytes 2 r.repeats ++ leBytes 2 r.source ++
    leBytes 8 r.arg0 ++ leBytes 8 r.arg1 ++ leBytes 8 r.arg2 ++ leBytes 1 r.snap.length ++ [0] ++ leBytes 2 r.absent.toNat ++
    leBytes 4 0 ++ snap

/-- Bytes of the spill region or dump area written straight to the HBM controllers (R500). -/
def Dev.rawWrite (d : Dev) (a : Nat) (bs : List Byte) : Dev :=
  { d with pool := { d.pool with hbm := hbmWrite d.pool.hbm a bs, poison := poisonWrite d.pool.poison a bs.length false } }

/-- A slot of the spill region takes a record, or zeros (R500, R508). -/
def Dev.spillSet (d : Dev) (slot : Nat) (r : Option TRec) : Dev :=
  let rest := d.tdm.spill.filter (·.1 != slot)
  let l := match r with
    | some x => rest.filter (·.1 < slot) ++ [(slot, x)] ++ rest.filter (fun e => slot < e.1)
    | none => rest
  let bs := match r with
    | some x => x.bytes
    | none => List.replicate 128 0
  (d.updTdm fun t => { t with spill := l }).rawWrite (spillBase + slot * 128) bs

/-- TDM_STATUS shows the spill region (Table 18.6). -/
def Dev.tdmSync (d : Dev) : Dev :=
  let n := d.tdm.spill.length
  (d.wr TDM_STATUS_USED n).wr TDM_STATUS_FULL (if 524288 ≤ n then 1 else 0)

/-- The record that a new one of a severity may overwrite: the lowest severity present, then the lowest SEQ, never a FATAL one (R503). -/
def victim (rs : List TRec) (sev : Nat) : Option TRec :=
  let low := rs.foldl (fun (m : Option TRec) r => match m with
    | some x => if r.sev < x.sev ∨ (r.sev = x.sev ∧ r.seq < x.seq) then some r else m
    | none => some r) none
  match low with
  | some r => if r.sev ≤ sev ∧ r.sev < 3 then some r else none
  | none => none

/-- A new record joins the on-die buffer; a full buffer takes it only over a victim (R500, R503). -/
def Dev.bufferRec (d : Dev) (r : TRec) : Dev :=
  let b := d.tdm.buffer
  if b.length < 2048 then d.updTdm fun t => { t with buffer := t.buffer ++ [r] }
  else match victim b r.sev with
    | some v => d.updTdm fun t => { t with buffer := t.buffer.filter (·.seq != v.seq) ++ [r] }
    | none => d.inc TDM_STATUS_DROPPED

/-- Whether a report repeats a record (R504). -/
def TReport.repeats (p : TReport) (r : TRec) : Bool :=
  r.cls == p.cls && r.event == p.event && r.sev == p.sev && r.source == p.source && r.arg0 == p.arg0 && decide (r.repeats < 65535)

/-- A report reaches the unit: a repeat of its class's last record, or a new record with its snapshot; a new CONTAINED or FATAL record raises vector 0 (R424, R499, R504, R506). -/
def Dev.takeReport (d : Dev) (p : TReport) : Dev :=
  let lastSeq := getKey d.tdm.last p.cls
  let hit := fun (r : TRec) => lastSeq == some r.seq && p.repeats r
  let bump := fun (r : TRec) => { r with repeats := r.repeats + 1 }
  match d.tdm.buffer.find? hit, d.tdm.spill.find? (fun e => hit e.2) with
  | some r, _ => (d.updTdm fun t => { t with buffer := updWhere (·.seq == r.seq) bump t.buffer }).inc TDM_STATUS_REPEATS
  | none, some e => (d.spillSet e.1 (some (bump e.2))).inc TDM_STATUS_REPEATS
  | none, none =>
    let seq := d.rd TDM_SEQ_SEQ + 1
    let d := d.wr TDM_SEQ_SEQ seq
    let snap := d.snapshot p.cls p.source
    let absent := (List.range snap.length).foldl (fun m i => if (snap.getD i none).isNone then m + 2 ^ i else m) 0
    let r : TRec := ⟨seq, p.cls, p.sev, p.event, 0, p.source, p.arg0, p.arg1, p.arg2, BitVec.ofNat 10 absent, snap.map (·.getD 0), false⟩
    let d := (d.bufferRec r).updTdm fun t => { t with last := putKey t.last p.cls seq }
    if 2 ≤ p.sev then d.raiseInt 0 else d

/-- The keys under which reports of one cycle are numbered (R499). -/
def TReport.le (a b : TReport) : Bool :=
  let k := fun (p : TReport) => [p.cls, p.source, p.event, p.sev, p.arg0]
  decide (k a ≤ k b)

/-- The oldest buffered record drains to the lowest free slot, or over a victim (R500, R503, R508). -/
def Dev.drainOne (d : Dev) : Dev :=
  match d.tdm.buffer with
  | [] => d
  | r :: rest =>
    let d := d.updTdm fun t => { t with buffer := rest }
    if r.freed then d
    else
      let used := d.tdm.spill.map (·.1)
      let free := (riseFree used 0)
      if free < 524288 then (d.spillSet free (some r)).tdmSync
      else match victim (d.tdm.spill.map (·.2)) r.sev with
        | some v =>
          match d.tdm.spill.find? (·.2.seq == v.seq) with
          | some e => (d.spillSet e.1 (some r)).tdmSync
          | none => d
        | none => d.inc TDM_STATUS_DROPPED
where
  /-- The lowest number that a rising list does not hold. -/
  riseFree : List Nat → Nat → Nat
    | [], n => n
    | x :: r, n => if x = n then riseFree r (n + 1) else n

/-- Every buffered record drains. -/
def Dev.drainAll (d : Dev) : Dev := (List.range d.tdm.buffer.length).foldl (fun d _ => d.drainOne) d

/-- Whether a write of TDM_ACK covers a record (R508). -/
def TRec.covered (r : TRec) (fatal : Bool) (seq : Nat) : Bool := decide (r.seq ≤ seq) && (decide (r.sev < 3) || fatal)

/-- Records freed: slots become zeros, buffered records when they drain (R508). -/
def Dev.ackRecords (d : Dev) (fatal : Bool) (seq : Nat) : Dev :=
  let d := (d.tdm.spill.filter fun e => e.2.covered fatal seq).foldl (fun d e => d.spillSet e.1 none) d
  (d.updTdm fun t => { t with buffer := t.buffer.map fun r => if r.covered fatal seq then { r with freed := true } else r }).tdmSync

/-- A write of TDM_OPEN: refused where the life-cycle state closes it (R513, R519). -/
def Dev.tdmOpen (d : Dev) (dump spill : Bool) : Dev :=
  let s := d.rd SEC_LC_STATE_STATE
  if s = 0 ∨ s = 5 then (d.wr TDM_OPEN_STATUS (statusCode .notPermitted)).accessRefused 0
  else ((d.wr TDM_OPEN_DUMP dump.toNat).wr TDM_OPEN_SPILL spill.toNat).wr TDM_OPEN_STATUS (statusCode .ok)

/-- A held dump is released with both Shelf copies (R513). -/
def Dev.dumpRelease (d : Dev) : Dev :=
  if d.rd TDM_DUMP_VALID = 0 then d
  else
    let d := ((((d.wr TDM_DUMP_VALID 0).wr TDM_DUMP_STATE 0).wr TDM_DUMP_KEPT 0).wr TDM_DUMP_SOURCE 0).wr TDM_DUMP_LEN_LENGTH 0
    d.updTdm fun t => { t with dump := none, shelfDump := none }

/-! ### The dump (R509–R512) -/

/-- The header of a dump (Table 18.3); its DIGEST covers structure images that the manual does not lay out, a free value (DESIGN CHOICE, assumption 4). -/
def Dump.header (p : Dump) (level serial digest : Nat) (shelf : Bool) : List Byte :=
  leBytes 4 0x54444D50 ++ leBytes 2 1 ++ leBytes 2 (p.complete.toNat + 4 * p.second.toNat + 8 * shelf.toNat) ++ leBytes 8 p.seq ++
    leBytes 8 p.time ++ leBytes 1 p.agent ++ leBytes 1 p.cause ++ leBytes 1 p.die ++ leBytes 1 level ++ leBytes 4 (if shelf then 3 else 8) ++
    leBytes 8 p.len ++ leBytes 16 serial ++ leBytes 8 0 ++ leBytes 32 digest ++ leBytes 32 0

/-- A dump stands in the dump area, as TDM_DUMP shows it. -/
def Dev.showDump (d : Dev) (p : Dump) (state : Nat) (restored : Bool) : Dev :=
  let dig := (Config.freeLine d.fresh).toNat
  let d := { d with fresh := d.fresh + 1 }
  let d := ((d.wr TDM_DUMP_STATE state).wr TDM_DUMP_SOURCE restored.toNat).wr TDM_DUMP_VALID 1
  (d.wr TDM_DUMP_LEN_LENGTH p.len).rawWrite dumpBase (p.header (d.rd NRW_DISC_STATUS_LEVEL) d.nv.serial.toNat dig restored)

/-- What start-up finds of a dump (R512). -/
def Dev.restoreDump (d : Dev) : Dev :=
  match d.tdm.dump, d.tdm.shelfDump with
  | some p, _ =>
    if p.complete then (d.wr TDM_DUMP_SOURCE 0).wr TDM_DUMP_VALID 1
    else (d.wr TDM_DUMP_STATE 3).wr TDM_DUMP_VALID 1
  | none, some p => (d.updTdm fun t => { t with dump := some p }).showDump p 4 true
  | none, none => d

end Sys2Proof.Machine
end

