-- ==== Sys2Proof/Machine/Tdm.lean ====
section
/-! DEFINITION. The commands of Tidemark and the fatal dump (R499–R513). -/

namespace Sys2Proof.Machine

/-- TIDEMARK_REPORT: the oldest reports reach the unit in one cycle, and it takes them in the order of R499 (R499, R504, R506). -/
def execTidemarkReport (n : Nat) : State → Out := act fun d =>
  let now := d.tdm.reports.take n
  let d := d.updTdm fun t => { t with reports := t.reports.drop n }
  (now.mergeSort TReport.le).foldl (fun d p => d.takeReport p) d

/-- SPILL_DRAIN: the oldest buffered record takes its slot of the spill region, once that is available (R500, R503, R568). -/
def execSpillDrain : State → Out := act fun d => if d.tdm.spillReady then d.drainOne else d

/-- The word of TDM_ACK. -/
def ackWord (fatal : Bool) (seq : Nat) : Word := BitVec.ofNat 64 (fatal.toNat * 2 ^ 63 + seq % 2 ^ 63)

/-- TDM_ACK (R508). -/
def execTdmAck (fatal : Bool) (seq : Nat) : State → Out :=
  regCmd TDM_ACK_SEQ.reg (ackWord fatal seq) fun d => d.ackRecords fatal (seq % 2 ^ 63)

/-- TDM_OPEN, accepted before READY too (R513, R571). -/
def execTdmOpen (dump spill : Bool) : State → Out := run fun d => d.tdmOpen dump spill

/-- DUMP_RELEASE: a write of 1 to TDM_DUMP.VALID (R513, R571). -/
def execDumpRelease : State → Out := regCmd TDM_DUMP_VALID.reg 1 fun d => d.dumpRelease

/-- DUMP_COMPLETE: the Shelf copy and the HBM dump are written, the latter unless an accelerator die is lost, and COMPLETE is set (R509). -/
def execDumpComplete : State → Out := act fun d =>
  match d.tdm.dump with
  | none => d
  | some p =>
    if p.complete then d
    else
      let (w, d) := d.free
      let p := { p with complete := true, len := 128 + w.toNat % (2 ^ 30 - 128) }
      let shelf := !(d.ras.lostDies.contains 4 && d.ras.lostDies.contains 5)
      let hbm := decide (4 ≤ p.die)
      let d := d.updTdm fun t => { t with dump := if hbm then some p else none, shelfDump := if shelf then some p else t.shelfDump }
      if hbm then d.showDump p 2 false else d.wr TDM_DUMP_STATE (if shelf then 4 else 0)

/-- DUMP_HANDLER_FAILURE: the next lowest firmware core that answers restarts the dump; without one none is written (R509, R511). -/
def execDumpHandlerFailure : State → Out := act fun d =>
  match d.tdm.dump with
  | none => d
  | some p =>
    if p.complete then d
    else
      let cores := d.fwWorking
      let cur := p.handler.getD (cores.headD 0)
      match cores.find? (fun f => decide (cur < f)) with
      | some f => d.updTdm fun t => { t with dump := some { p with handler := some f } }
      | none => d.updTdm fun t => { t with dump := none }

end Sys2Proof.Machine
end

