-- ==== Sys2Proof/Machine/Startup.lean ====
section
/-! DEFINITION. The commands of start-up and of the module's resets (R560–R574). (DEDUCED, assumption 33) (DEDUCED, assumption 34) -/

namespace Sys2Proof.Machine

/-- The device with its start-up work changed. -/
def Dev.updBoot (d : Dev) (f : Boot → Boot) : Dev := { d with boot := f d.boot }

/-! ### Resets (R560, R561, R569, R570) -/

/-- What a warm reset leaves of a register: the fields whose map says so, the others at their reset values (R12). -/
def warmWord (off : Nat) (w : Word) : Word :=
  match regMapAt off with
  | none => w
  | some m => m.fields.foldl (fun v f => if f.warm then withField v f.hi f.lo (fieldOf w f.hi f.lo) else v) (regReset off)

/-- The registers after a warm reset; the clock roots lie in the reset island that it does not reset (R446, R569). -/
def warmRegs (t : Sparse Word) : Sparse Word :=
  t.foldl (fun m e => sput regReset m e.1 (if e.1 = NRW_CLK_STATUS_MASTER.reg then e.2 else warmWord e.1 e.2)) []

/-- What a reset leaves of the power state: rails, input and the power pins (R560). -/
def Power.kept (p : Power) : Power :=
  { modEn := p.modEn, on := p.on, pwrGood := p.pwrGood, rails := p.rails, inputOk := p.inputOk
    modEnLowSince := p.modEnLowSince, tripped := p.tripped }

/-- A cold reset: what survives power-off, rails and reference are kept, the roots relock, and the rest is as after power-on (R512, R560, R564). -/
def Dev.coldReset (d : Dev) : Dev :=
  let n : Dev := { nv := d.nv, fresh := d.fresh, out := d.out, tdm := { shelfDump := d.tdm.shelfDump }, pw := d.pw.kept }
  (n.romStep 1).wr NRW_CLK_STATUS_REF_OK (d.rd NRW_CLK_STATUS_REF_OK)

/-- What a warm reset leaves of the memory: the dump area and the spill region, the places of redirected lines, and what the controllers know of their rows (R560, R565, R569). -/
def Pool.warm (p : Pool) : Pool :=
  { p with hbm := sclear p.hbm 0 spillBase, poison := sclear p.poison 0 (spillBase / 64)
           postponed := [], ahead := [], nextBank := [], cmd := none, sweepLeft := [], retireWait := [], hardRepairs := [] }

/-- A warm reset: Tidemark drains, a dump in writing stays partial, and no work, context, queue, fence, object, graph, job, window or binding survives (R501, R511, R569, R570). A FENCED module stays so (R478). -/
def Dev.warmReset (d : Dev) : Dev :=
  let d := if d.tdm.spillReady then d.drainAll else d
  let d := if d.tdm.dump.any (!·.complete) then d.wr TDM_DUMP_STATE 3 else d
  let d := d.inc GLB_STATUS_WARM_COUNT
  let active := if d.ctu.hasStandby then 0 else d.rd CTU_STATUS_ACTIVE
  let n : Dev :=
    { regs := warmRegs d.regs, nv := d.nv, fresh := d.fresh, out := d.out, pool := d.pool.warm
      tiles := { lastTest := d.tiles.lastTest, lastSwap := d.tiles.lastSwap }
      ctu := { seqNo := d.ctu.seqNo, hasStandby := d.ctu.hasStandby }
      tdm := { d.tdm with spillReady := false }
      sec := { qseq := d.sec.qseq, locked := d.sec.locked }
      pw := { d.pw.kept with seen := d.pw.seen } }
  let n := (n.romStep 2).wr CTU_STATUS_ACTIVE active
  let n := (n.wr SEC_LC_STATE_STATE d.lcState).wr SEC_LC_STATE_PENDING (d.rd SEC_LC_STATE_PENDING)
  if d.twState = 8 then n.wr TWN_STATUS_STATE 8 else n

/-- A request for a warm reset: taken as a cold one before READY is first set; a start-up that has FAILED leaves that state at a cold reset only (R561, R572). -/
def Dev.warmRequest (d : Dev) : Dev :=
  if d.rd GLB_STATUS_READY = 1 then d.warmReset
  else if d.rd GLB_STATUS_KIND ≠ 2 then d.coldReset
  else if d.rd GLB_STATUS_STEP = 9 then d
  else d.warmReset

/-- COLD_RST_N low for 100 µs: it relocks clocks that have stopped too (R448, R560). -/
def execColdRstN : State → Out := pin fun d => if d.pw.on && d.pw.pwrGood then d.coldReset else d

/-- WARM_RST_N low for 100 µs (R560, R561, R569). -/
def execWarmRstN : State → Out := act fun d => d.warmRequest

/-- A write of GLB_RESET: accepted before READY too; END closes register writes (R519, R571). -/
def resetCmd (f : Dev → Dev) : State → Out := run fun d => if d.lcState = 5 then d.accessRefused 0 else f d

/-- COLD: GLB_RESET with COLD 1 and CONFIRM 0xA5 (Table 21.7). -/
def execResetCold : State → Out := resetCmd fun d => d.coldReset

/-- WARM: GLB_RESET with WARM 1 and CONFIRM 0xA5 (Table 21.7). -/
def execResetWarm : State → Out := resetCmd fun d => d.warmRequest

/-! ### The ROM step and discovery -/

/-- SEC_LC_STATE at a start: from the fuses, and at a warm one with the state that has governed since the last cold reset (R514, R516, Table 19.6). -/
def Dev.bootLc (d : Dev) (o : Otp) : Dev :=
  if d.rd GLB_STATUS_KIND = 2 then
    let st := d.lcState
    let p := d.rd SEC_LC_STATE_PENDING
    (d.showLc o).wr SEC_LC_STATE_STATE st |>.wr SEC_LC_STATE_PENDING (match o.intent with | some t => t.toNat | none => p)
  else d.showLc o

/-- DIE_RESET_RELEASE: the dies leave their reset; fuses that lag are burnt up, both entropy sources pass their start-up tests, and discovery starts (R441, R514, R521, R562). -/
def execDieResetRelease (s : State) : Out :=
  let d := s.dev
  if d.live ∧ d.rd GLB_STATUS_STEP = 1 ∧ d.boot.released.isNone then
    let v := BitVec.ofNat 3 s.otp.state
    let o := { s.otp with lc0 := v, lc1 := v }
    let d := ((d.bootLc o).wr SEC_ENTROPY_OK_C0 1).wr SEC_ENTROPY_OK_C1 1
    .next { s with dev := (d.idSync).discStart, otp := o }
  else .next s

/-! ### The record, tests and security -/

/-- The persistent record as start-up finds it: a copy that is not current is no longer usable, nor is one whose packages all failed; without a usable copy it is lost (R483). -/
def Dev.readRecord (d : Dev) (fails : BitVec 16) : Dev :=
  let gone := (d.nv.copies.all (!·)) || fails == BitVec.allOnes 16
  let d := if gone then
      let d := { d with nv := { d.nv with record := [], recordGen := 0 } }
      (d.wr RAS_PERSIST_LOST 1).event 12 2 5 0 0 0 0
    else d
  ({ d with nv := { d.nv with copies := [true, true] } } : Dev).persistSync

/-- RAS_SHELF as the packages give it; the greatest program/erase count is the flash's own (Table 17.14, DESIGN CHOICE, assumption 4). -/
def Dev.shelfSync (d : Dev) : Dev :=
  (List.range 16).foldl (fun d n =>
    let r := sget (fun _ => 0) d.nv.blocksRetired n
    let (w, d) := d.free
    ((d.wr (RAS_SHELF_RETIRED n) r).wr (RAS_SHELF_SPARE n) (5888 - r)).wr (RAS_SHELF_PE_MAX n) w.toNat) d

/-- Every tile not in the record goes into its self-test, and every core cluster (R86, R486); at a warm start only the tiles whose test the reset voided (R569). -/
def Dev.startTests (d : Dev) : Dev :=
  let warm := decide (d.rd GLB_STATUS_KIND = 2)
  let ret := d.recorded 1
  let d := (List.range 672).foldl (fun d i =>
    let die := i / 168
    let q := i % 168
    if warm then (if d.pts die q = 3 then d.testInPlace die q else d)
    else if ret.contains (tileCoord die q) then d.setPts die q 0
    else (d.setPts die q 3).testInPlace die q) d
  if warm then d
  else { d with cores := { d.cores with testing := (List.range 18).map fun i => (i / 9, i % 9) } }

/-- SHELF_PACKAGES_INITIALISED: record and patch slot are read; the tests begin, the patch is verified and loaded, MR0 to MR3 are extended and the challenge set (R483, R486, R517, R525, R529, R562, R569). -/
def execShelfPackagesInitialised (fails : BitVec 16) (s : State) : Out :=
  let d := s.dev
  if d.live ∧ d.boot.discovered ∧ !d.boot.shelfInit ∧ d.rd GLB_STATUS_STEP ≠ 9 then
    let d := (d.readRecord fails).shelfSync
    let d := (d.wr GLB_STATUS_STEP (if d.rd GLB_STATUS_KIND = 2 then 5 else 4)).startTests
    let d := ((d.loadPatch s.otp).measure).newChallenge
    .next { s with dev := d.updBoot fun b => { b with shelfInit := true, shelfFails := fails } }
  else .next s

/-! ### Memory (R248, R563, R565, R569) -/

/-- A pseudo-channel that start-up finds in the record, or that does not train, is out of the interleave; the latter is entered in the record (R249, R573). -/
def Dev.bootRetire (d : Dev) (p : Nat) : Dev :=
  if d.pcState p = 5 then d
  else
    let d := (d.wr (MEM_PC_STATE_STATE p) 5).redirectOut p
    if (d.recorded 3).contains p then d
    else (d.rasAppend 3 0 p 0).event 3 2 4 p (rowKey p 0 0) 0 0

/-- The rows of the record that are not on retired pseudo-channels, oldest first: pseudo-channel, bank and row, and whether made hard (Table 17.2). -/
def Dev.recordedRows (d : Dev) : List (Nat × Nat × Bool) :=
  (d.nv.record.filter fun e => e.toNat % 256 == 2 && d.pcState (e.toNat / 2 ^ 16 % 2 ^ 16) != 5).map fun e =>
    (e.toNat / 2 ^ 16 % 2 ^ 16, e.toNat / 2 ^ 32 % 2 ^ 32, e.getLsbD 8)

/-- The rows of a record take their spare rows; up to 16 of a stack wait for their hard repair, and rows beyond are repaired soft again (R248). -/
def Dev.bootRepairs (d : Dev) : Dev :=
  let rows := d.recordedRows
  let d := rows.foldl (fun d r =>
    let k := r.1 * 48 + r.2.1 / 2 ^ 14
    d.updPool fun m => { m with spareRows := sput (fun _ => 0) m.spareRows k (min 4 (sget (fun _ => 0) m.spareRows k + 1)) }) d
  (rows.filter (!·.2.2)).foldl (fun d r =>
    if (d.pool.hardRepairs.filter fun h => h.1 / 32 == r.1 / 32).length < 16 then
      d.updPool fun m => { m with hardRepairs := m.hardRepairs ++ [(r.1, r.2.1)] }
    else d.inc (MEM_PC_STATE_PPR r.1)) d

/-- HBM_TRAINING_COMPLETE: channels that did not train are retired with those of the record, and the hard repairs of a cold start wait; a stack that cannot be trained, or an eleventh pseudo-channel out, fails the start-up (R249, R565, R569, R572, R573). -/
def execHbmTrainingComplete (badPcs : List Nat) (stackLost : Option Nat) : State → Out := act fun d =>
  if !d.boot.discovered ∨ !d.boot.shelfInit ∨ d.boot.trained ∨ d.rd GLB_STATUS_STEP = 9 then d
  else match stackLost with
    | some s => d.startFail 3 (s / 4 % 4)
    | none =>
      let out := (d.pcsIn [5] ++ d.recorded 3 ++ badPcs.filter (· < 512)).eraseDups
      if 10 < out.length then d.startFail 3 (out.getD 10 0 / 128)
      else
        let d := (out.foldl (fun d p => d.bootRetire p) d).memSync
        let d := (List.range 256).foldl (fun d c => d.chanTrained c) d
        let d := if d.rd GLB_STATUS_KIND = 2 then d else d.bootRepairs
        (d.wr GLB_STATUS_STEP 3).updBoot fun b => { b with trained := true }

/-- The first entry of a row that is not yet hard takes FLAGS.HARD (R248, Table 17.2). -/
def markHard (pc bankRow : Nat) : List (BitVec 128) → List (BitVec 128)
  | [] => []
  | e :: r =>
    if e.toNat % 2 ^ 16 = 2 ∧ e.toNat / 2 ^ 16 % 2 ^ 16 = pc ∧ e.toNat / 2 ^ 32 % 2 ^ 32 = bankRow then (e ||| 0x100#128) :: r
    else e :: markHard pc bankRow r

/-- HARD_REPAIR_COMPLETE: a row's hard repair ends, the oldest of its stack first, and its entry carries FLAGS.HARD (R248). -/
def execHardRepairComplete (pc : Nat) (bankRow : Nat) : State → Out := act fun d =>
  if (d.pool.hardRepairs.find? fun h => h.1 / 32 == pc / 32) ≠ some (pc, bankRow) ∨ d.rd GLB_STATUS_STEP = 9 then d
  else
    let d := d.updPool fun m => { m with hardRepairs := m.hardRepairs.erase (pc, bankRow) }
    ({ d with nv := { d.nv with record := markHard pc bankRow d.nv.record, recordGen := d.nv.recordGen + 1 } } : Dev).persistSync

/-- POOL_FILL_COMPLETE: the filled range reads zeros, the dump area and the spill region spared at a warm start; Tidemark may drain (R563, R568, R569, Table 21.6). -/
def execPoolFillComplete : State → Out := act fun d =>
  if !d.boot.trained ∨ d.boot.filled ∨ !d.pool.hardRepairs.isEmpty ∨ d.rd GLB_STATUS_STEP = 9 then d
  else
    let d := d.zeroFill 0 (if d.rd GLB_STATUS_KIND = 2 then spillBase else poolTop)
    let d := d.wr GLB_BOOT_TIME_HBM_MS ((d.now - d.boot.released.getD 0) / 100000)
    (d.memSync.updTdm fun t => { t with spillReady := true }).updBoot fun b => { b with filled := true }

/-! ### Shelf, services and READY -/

/-- SHELF_DIRECTORY_LOADED: OPEN entries are freed, MR4 is extended and the Shelf is READY when every package came up; TEST and RMA start with new keys and an empty directory, a crypto-erase cut short is completed, and in BLANK and END the Shelf does not serve (R264, R516, R525, R532, R562, Table 19.1). -/
def execShelfDirectoryLoaded : State → Out := act fun d =>
  if !d.boot.shelfInit ∨ d.boot.dirLoaded ∨ d.rd GLB_STATUS_STEP = 9 then d
  else
    let st := d.lcState
    let d := d.updBoot fun b => { b with dirLoaded := true }
    if st = 0 ∨ st = 5 then d
    else
      let d := if st = 1 ∨ st = 4 then d.newShelfKeys else if d.nv.erasing then d.eraseKeys else d
      let d := (d.nv.dir.filter (·.state == 1)).foldl (fun d e => d.freeDirent e.index) d
      let d := d.mrExtend 4 (leBytes 32 d.dirDigest.toNat)
      (d.wr TIER_SHELF_STATUS_READY (if d.boot.shelfFails = 0 then 1 else 0)).tierSync

/-- The agents as start-up leaves them: each with its class, those that no ID names ABSENT, and what was out of service until this start back in service; a DEAD cluster stays so (R314, R491, Table 10.15). -/
def Dev.bootAgents (d : Dev) : Dev :=
  (List.range 96).foldl (fun d n => match agentClass n with
    | none => d.wr (COH_AGENT_STATE n) 4
    | some c =>
      let d := d.wr (COH_AGENT_CLASS n) c
      if isCluster n ∨ d.agentState n ≠ 3 then d else d.wr (COH_AGENT_STATE n) 0) d

/-- The least share of spare blocks of a package, in 0.1 % (Table 17.6). -/
def Dev.shelfSpareMin (d : Dev) : Nat :=
  (List.range 16).foldl (fun m n => min m ((5888 - sget (fun _ => 0) d.nv.blocksRetired n) * 1000 / 24576)) 255

/-- RAS_SUMMARY as start-up sets it, WARN with it (R498, Table 17.6). -/
def Dev.rasSummary (d : Dev) : Dev :=
  let d := (d.coreSync.roomSync.memSync.spareSync).wr RAS_SUMMARY_SHELF_SPARE_MIN d.shelfSpareMin
  let d := (d.setCtuStandby d.ctu.hasStandby).setClkStandby (d.rd NRW_CLK_STATUS_STANDBY_OK == 1)
  if d.rd RAS_SUMMARY_TILE_ROOM = 0 ∨ d.rd RAS_SUMMARY_HBM_ROOM ≤ 2 ∨ d.rd RAS_SUMMARY_CORE_SPARE ≠ 3 ∨ d.rd RAS_SUMMARY_FW_SPARE ≠ 3 ∨
      d.rd RAS_SUMMARY_CTU_STANDBY = 0 ∨ d.rd RAS_SUMMARY_CLK_STANDBY = 0 ∨ d.shelfSpareMin < 20 then d.warn
  else d

/-- Step 6 of start-up: Tidemark drains, the dump is settled, and the services start (R512, R562). -/
def Dev.services (d : Dev) : Dev :=
  let d := (d.wr GLB_STATUS_STEP 6).drainAll.restoreDump.bootAgents
  let d := { d with ctu := { d.ctu with hasStandby := if d.rd GLB_STATUS_KIND = 2 then d.ctu.hasStandby else d.rd (NRW_DIE_STATE 5) == 2 }
                    tier := { d.tier with loaded := true } }
  (d.wr TDM_STATUS_SHADOW_OK 1).rasSummary

/-- SERVICES_START: with fill, directory and tests done, a pending life-cycle transition is completed first, and step 6 begins; one that cannot complete fails the start-up (R516, R562, R567, R572). -/
def execServicesStart (s : State) : Out :=
  let d := s.dev
  if d.live ∧ d.boot.filled ∧ d.boot.dirLoaded ∧ d.tiles.testing.isEmpty ∧ d.cores.testing.isEmpty ∧ d.rd GLB_STATUS_STEP < 6 then
    match s.otp.intent with
    | some t =>
      if t = 2 ∧ !d.entropyOk then .next { s with dev := d.startFail 6 0xFF }
      else
        let s := lcFinish t.toNat s
        .next { s with dev := s.dev.services }
    | none => .next { s with dev := d.services }
  else .next s

/-- START_UP_READY: READY is set and vector 0 raised; in BLANK and END start-up is HELD (R562, R571, R574, Table 21.6). -/
def execStartUpReady : State → Out := act fun d =>
  if d.rd GLB_STATUS_STEP ≠ 6 then d
  else if d.lcState = 0 ∨ d.lcState = 5 then d.wr GLB_STATUS_STEP 8
  else
    let d := (((d.wr GLB_STATUS_STEP 7).wr GLB_STATUS_READY 1).wr FE_STATUS_READY 1).wr GLB_BOOT_TIME_READY_MS ((d.now - d.boot.released.getD 0) / 100000)
    d.raiseInt 0

end Sys2Proof.Machine
end

