-- ==== Sys2Proof/Machine/Ras.lean ====
section
/-! DEFINITION. The commands of the fail-operational services: cores and firmware cores, Shelf blocks, the MAINTENANCE state, test commands (R486–R496). -/

namespace Sys2Proof.Machine

/-! ### Cores and firmware cores -/

/-- Whether the spare core of a control die is not yet in use (R481, R486). -/
def Dev.spareUnused (d : Dev) (die : Nat) : Bool := d.rd RAS_SUMMARY_CORE_SPARE / 2 ^ die % 2 == 1

/-- The physical cores that failed in a cluster's test: bits 0 to 3 the cluster's own, bit 4 the spare tested with it (R486). -/
def failedCores (cluster : Nat) (fails : BitVec 5) (spare : Bool) : List Nat :=
  let own := ((List.range 4).filter fun i => fails.getLsbD i).map (4 * cluster + ·)
  own.filter (· < 33) ++ (if spare ∧ fails.getLsbD 4 ∧ cluster < 8 then [32] else [])

/-- A core is retired: entered in the record and reported (R486, Table 17.2). -/
def Dev.retireCore (d : Dev) (die cluster core unit : Nat) : Dev :=
  if (d.retiredCores 4 64 die).contains core then d
  else (d.rasAppend 4 0 (die * 64 + core) 0).event 12 2 2 (die * 16 + cluster) unit 0 0

/-- CORE_SELF_TEST_END: the failed cores are retired, the spare takes the number of the first, and the clusters are ONLINE (R486, R498). -/
def execCoreSelfTestEnd (die : Nat) (cluster : Nat) (fails : BitVec 5) (unit : Nat) : State → Out := run fun d =>
  let a := 16 * die + cluster
  if 1 < die ∨ 8 < cluster ∨ !(d.cores.testing.contains (die, cluster) || (d.agentState a == 3 && d.rd GLB_STATUS_READY == 1)) then d
  else
    let booting := decide (d.rd GLB_STATUS_READY = 0)
    let spare := d.spareUnused die
    let d := { d with cores := { d.cores with testing := d.cores.testing.filter (· != (die, cluster)) } }
    let d := (failedCores cluster fails (spare && !booting)).foldl (fun d c => d.retireCore die cluster c unit) d
    if booting then d
    else
      let d := (d.coreSync).wr (COH_AGENT_STATE a) 0
      if (List.range 32).any (fun i => d.physCore die i == some 32) ∧ spare then (d.wr (COH_AGENT_STATE (16 * die + 8)) 0).warn else d

/-- FIRMWARE_CORE_FAILURE: the spare takes the number when it is unused, the queues move, and the failed core is entered in the record; a die without a working one takes the coherent domain down, or fails the start-up (R489, R490, R498, R572). -/
def execFirmwareCoreFailure (die : Nat) (f : Nat) : State → Out := run fun d =>
  let old := d.retiredCores 5 8 die
  if 1 < die ∨ 4 < f ∨ old.contains f then d
  else
    let num := (List.range 4).find? fun i => numbering 4 old i == some f
    let spare := !(old.contains 4) && old.all fun x => decide (4 ≤ x)
    let d := (((d.rasAppend 5 0 (die * 8 + f) 0).event 12 1 3 0 0 (die * 8 + f) 0)).coreSync
    let new := d.retiredCores 5 8 die
    if (List.range 4).all fun i => (numbering 4 new i).isNone then
      (if d.rd GLB_STATUS_READY = 1 then d.domainDown (0x40 + 8 * die + f) 3 else d.startFail 5 (4 + die))
    else match num with
      | none => d
      | some n =>
        let d := d.moveQueues fun g => g == 8 * die + n
        if spare ∧ f < 4 ∧ d.rd GLB_STATUS_READY = 1 then d.warn else d

/-! ### Shelf blocks -/

/-- A stripe is marked bad in the directory (R281, R493); the argument is the directory index × 2^30 + its number in the object. -/
def Dev.markStripe (d : Dev) (s : Nat) : Dev :=
  d.updDirent (s / 2 ^ 30) fun e => { e with bad := if e.bad.contains (s % 2 ^ 30) then e.bad else e.bad ++ [s % 2 ^ 30] }

/-- SHELF_BLOCK_FAILURE: the block's stripes are relocated, those that fail their digest marked bad, and the block is retired; without a spare block each stripe is marked bad (R493, R494, R498). -/
def execShelfBlockFailure (pkg : Nat) (stripes : List Nat) (badDigest : List Nat) : State → Out := run fun d =>
  if 15 < pkg ∨ d.rd TIER_SHELF_STATUS_READY = 0 then d
  else
    let r := sget (fun _ => 0) d.nv.blocksRetired pkg
    let bad := if 5888 ≤ r then stripes else stripes.filter badDigest.contains
    let was := d.rd RAS_SUMMARY_SHELF_SPARE_MIN
    let d := (bad.foldl (fun d s => d.markStripe s) d).tierSync
    let d : Dev := { d with nv := { d.nv with blocksRetired := sput (fun _ => 0) d.nv.blocksRetired pkg (r + 1) } }
    let d := ((d.wr (RAS_SHELF_RETIRED pkg) (r + 1)).wr (RAS_SHELF_SPARE pkg) (5888 - (r + 1))).incBy (RAS_SHELF_RELOCATED pkg) (stripes.length - bad.length)
    let d := (d.event 12 2 4 0 0 pkg 0).wr RAS_SUMMARY_SHELF_SPARE_MIN d.shelfSpareMin
    if 20 ≤ was ∧ d.rd RAS_SUMMARY_SHELF_SPARE_MIN < 20 then d.warn else d

/-! ### The MAINTENANCE state (R495) -/

/-- The status of a write of RAS_MAINT_CTRL.REQ (Table 17.7). -/
def Dev.maintStatus (d : Dev) (req : Nat) (st : Status) : Dev := (d.wr RAS_MAINT_CTRL_REQ req).wr RAS_MAINT_CTRL_STATUS (statusCode st)

/-- REQ 1: in SERVICE the functions drain, or it is refused BUSY; while LEAVING it is BUSY too. -/
def Dev.maintEnter (d : Dev) : Dev :=
  match d.svcState with
  | 0 =>
    if d.twState = 2 ∨ d.twState = 3 ∨ d.twState = 4 then d.maintStatus 0 .busy
    else
      let d := ((d.maintStatus 1 .ok).wr RAS_SUMMARY_SVC_STATE 1).wr RAS_MAINT_CTRL_SAVED (d.rd FE_FUNC_CTRL_EN)
      (List.range 6).foldl (fun d f => d.funcDisable f) d
  | 3 => d.maintStatus 0 .busy
  | _ => d.maintStatus 1 .ok

/-- REQ 0: the state is LEAVING until the running test or sweep has ended. -/
def Dev.maintLeave (d : Dev) : Dev :=
  let d := d.maintStatus 0 .ok
  if d.svcState = 1 ∨ d.svcState = 2 then (d.wr RAS_SUMMARY_SVC_STATE 3).leaveStep else d

/-- MAINTENANCE_ENTRY. -/
def execMaintenanceEntry : State → Out := regCmd RAS_MAINT_CTRL_REQ.reg 1 fun d => d.maintEnter

/-- MAINTENANCE_REACHED: every function is DISABLED, and no rotation, test or margin command runs. -/
def execMaintenanceReached : State → Out := run fun d =>
  if d.svcState = 1 ∧ ((List.range 6).all fun f => d.funcState f == 2) ∧ d.tiles.slot.isEmpty ∧ d.ras.test.isNone ∧ d.pool.cmd.isNone then
    d.wr RAS_SUMMARY_SVC_STATE 2
  else d

/-- MAINTENANCE_EXIT. -/
def execMaintenanceExit : State → Out := regCmd RAS_MAINT_CTRL_REQ.reg 0 fun d => d.maintLeave

/-! ### Test commands (R496, Table 17.4) -/

/-- The word of RAS_TEST_CMD that starts a command (Table 17.8). -/
def testWord (op target : Nat) : Word := BitVec.ofNat 64 (target % 2 ^ 16 * 2 ^ 16 + op * 2 ^ 8 + 1)

/-- A GO of RAS_TEST_CMD: BUSY while a command runs, else its fields stand and it starts. -/
def Dev.testGo (d : Dev) (op target : Nat) (f : Dev → Dev) : Dev :=
  if d.ras.test.isSome then d.testResult .busy op target 0 0
  else
    let d := ((d.wr RAS_TEST_CMD_OP op).wr RAS_TEST_CMD_TARGET target).wr RAS_TEST_CMD_GO 1
    f { d with ras := { d.ras with test := some (op, target) } }

/-- What TILE starts: a marked rotation or a test in place. -/
def Dev.startTile (d : Dev) (target : Nat) : Dev := d.testGo 1 target fun d =>
  let die := target / 2 ^ 8
  let row := target / 2 ^ 4 % 2 ^ 4
  let col := target % 2 ^ 4
  let q := row * 14 + col
  if 3 < die ∨ 11 < row ∨ 13 < col then d.testDone .aborted 1 target 0 0
  else match d.pts die q with
    | 1 =>
      if (d.tilesIn die 2).isEmpty then d.testDone .busy 1 target 0 0
      else
        let d := d.updTiles fun t => { t with mark := t.mark ++ [die * 192 + q] }
        if d.svcState = 2 then d.rotate [die] else d
    | 2 => d.testInPlace die q
    | 3 => d.testDone .busy 1 target 0 0
    | _ => d.testDone .aborted 1 target 0 0

/-- What TILE_ALL starts: in MAINTENANCE every SPARE and ACTIVE tile is tested in place, when each die has a spare. -/
def Dev.startTileAll (d : Dev) : Dev := d.testGo 2 0 fun d =>
  if d.svcState ≠ 2 ∨ [0, 1, 2, 3].any (fun die => (d.tilesIn die 2).isEmpty) then d.testDone .busy 2 0 0 0
  else (List.range 672).foldl (fun d i =>
    let st := d.pts (i / 168) (i % 168)
    if st = 1 ∨ st = 2 then d.testInPlace (i / 168) (i % 168) else d) d

/-- What CORE starts: tasks that name the cluster's cores wait, and it is taken OFFLINE once its own have ended (R310, R487). -/
def Dev.startCore (d : Dev) (target : Nat) : Dev := d.testGo 3 target fun d =>
  if 1 < target / 16 ∨ 8 < target % 16 then d.testDone .aborted 3 target 0 0
  else if d.agentState target ≠ 0 then d.testDone .busy 3 target 0 0
  else d.wr (COH_AGENT_STATE target) 1

/-- What SHELF_SCAN starts. -/
def Dev.startScan (d : Dev) : Dev := d.testGo 4 0 id

/-- TILE. -/
def execTestTile (target : Nat) : State → Out := regCmd RAS_TEST_CMD_GO.reg (testWord 1 target) fun d => d.startTile (target % 2 ^ 16)

/-- TILE_ALL. -/
def execTestTileAll : State → Out := regCmd RAS_TEST_CMD_GO.reg (testWord 2 0) fun d => d.startTileAll

/-- CORE. -/
def execTestCore (target : Nat) : State → Out := regCmd RAS_TEST_CMD_GO.reg (testWord 3 target) fun d => d.startCore (target % 2 ^ 16)

/-- SHELF_SCAN. -/
def execShelfScan : State → Out := regCmd RAS_TEST_CMD_GO.reg (testWord 4 0) fun d => d.startScan

/-- Whether what a test command tests has been tested. -/
def Dev.testOver (d : Dev) (op target : Nat) : Bool :=
  let k := target / 2 ^ 8 * 192 + target / 2 ^ 4 % 2 ^ 4 * 14 + target % 2 ^ 4
  match op with
  | 1 => !d.tiles.mark.contains k && !d.tiles.testing.any (·.1 == k)
  | 2 => d.tiles.testing.isEmpty
  | 3 => d.agentState target == 0 && !d.cores.testing.contains (target / 16, target % 16)
  | _ => true

/-- TEST_COMMAND_COMPLETE: the running command ends with its counts (Table 17.9). -/
def execTestCommandComplete (failed : Nat) (unit : Nat) : State → Out := run fun d =>
  match d.ras.test with
  | some (op, target) => if d.testOver op target then d.testDone .ok op target failed unit else d
  | none => d

end Sys2Proof.Machine
end

