-- ==== Sys2Proof/Machine/PairOps.lean ====
section
/-! DEFINITION. The commands on a twin pair as shared operations: TWN_CTRL.EN, PAIR, verdicts, SOLO, takeover and fence (R457, R472, R474, R476–R479, Tables 16.6, 16.10). -/

namespace Sys2Proof.Machine

/-- TWN_CTRL.EN changes: the link trains, or is given up as if it were lost (Table 16.7, R476). -/
def Dev.twnEn (d : Dev) (en : Bool) : Dev :=
  let was := d.rd TWN_CTRL_EN == 1
  if en == was then d
  else if en then (d.wr TWN_CTRL_EN 1).startLink 9
  else (d.wr TWN_CTRL_EN 0).linkDown 9 0

/-- A TWN_CMD command completes: STATUS shows how, and GO stays 1 only while PAIR runs (Table 16.10). -/
def Dev.twnDone (d : Dev) (st : Status) : Dev :=
  (d.wr TWN_CMD_STATUS (statusCode st)).wr TWN_CMD_GO (if d.twState = 1 ∨ d.twState = 2 then 1 else 0)

/-- PAIR: an unpaired module, or a FENCED one that is to be leeward, enters LINKING with nothing of an earlier pairing left; the checks follow when the link is UP (R478, R479). -/
def Dev.pairStart (d : Dev) : Dev :=
  if d.twState = 0 ∨ (d.twState = 8 ∧ d.rd TWN_CTRL_ROLE = 1) then
    let d := (((d.updTwn fun _ => {}).wr TWN_STATUS_LAG 0).wr TWN_STATUS_ROLE (d.rd TWN_CTRL_ROLE)).setTwin 1 0
    if d.lnUp 9 then d.twinIdentity else d
  else d.twnDone .busy

/-- Every operation is aborted, every job entry closed, and the module is FENCED (R478). -/
def Dev.fence (d : Dev) (cause : Nat) : Dev :=
  if d.twState = 8 then d
  else
    let d := if d.twState = 1 ∨ d.twState = 2 then (d.wr TWN_CMD_STATUS (statusCode .aborted)).wr TWN_CMD_GO 0 else d
    let d := d.endAll .aborted 0x86 0x86
    let d := ((List.range 16).filter fun j => d.rd (NFP_JOB_W0_VALID j) == 1).foldl (fun d j => d.endJob j) d
    (d.setTwin 8 cause).updTwn fun t => { sendStopped := t.sendStopped }

/-- A windward goes on alone (Table 16.6, R476). -/
def Dev.solo (d : Dev) (cause : Nat) : Dev :=
  (d.setTwin 7 cause).updTwn fun t => { tseq := t.tseq, ownDig := t.ownDig, theirDig := t.theirDig, sendStopped := t.sendStopped }

/-! ### Takeover (R474) -/

/-- The streamed tasks that a leeward holds and has not committed whole. -/
def Dev.streamedLeft (d : Dev) : List FeOp :=
  d.fe.ops.filter fun o => o.streamed && o.phase == .running && (d.twn.dispatched.any (·.2 == o.id))

/-- Step 2: a task applied early ends RESOURCE_LOST, one whose stream is applied whole ends as its windward would have said (DESIGN CHOICE, assumption 4), any other is dispatched again. -/
def Dev.takeoverStreams (d : Dev) : Dev :=
  let left := d.streamedLeft
  let d := left.foldl (fun d o =>
    if d.twn.stage.any fun s => s.gdn == o.gdn && s.early then d.finish o.id .resourceLost
    else if d.twn.applied.contains o.gdn then
      match d.twn.completes.find? (·.1 == o.gdn) with
      | some (_, st, c, exit) => d.finish o.id st c exit
      | none =>
        let (w, d) := d.free
        d.finish o.id (statusOf (w.toNat % 19)) 0 (w.extractLsb' 32 32)
    else d) d
  let again := (left.filter fun o => (d.op? o.id).any (!·.ended)).map fun o => TwinRec.again o.id
  d.updTwn fun t => { t with stage := [], records := again ++ t.records }

/-- Step 4: the completions that the windward had not confirmed are posted in its order, with their interrupts. -/
def Dev.takeoverPosts (d : Dev) : Dev :=
  let qidOf := fun (r : BitVec 256) => r.toNat / 2 ^ 224 % 2 ^ 16
  let post := fun (x : Dev × List (Nat × BitVec 256 × Bool)) (u : Nat × BitVec 256 × Bool) =>
    let rest := x.2.drop 1
    let qid := qidOf u.2.1
    let d := match x.1.queue? qid with
      | none => x.1
      | some q =>
        let n := q.posted.toNat + 2 ^ 32 - (x.2.filter fun v => qidOf v.2.1 == qid).length
        let d := x.1.putRecord (q.cqPa + n % 2 ^ q.cqLog2 * 32) (leBytes 32 u.2.1.toNat)
        if u.2.2 then d.raiseInt q.vector else d
    (d, rest)
  ((d.twn.unposted.foldl post (d, d.twn.unposted)).1).updTwn fun t => { t with unposted := [] }

/-- Step 5: the requests of replayed operations that no ANSWER record has met go out, with RETX to the fabric. -/
def Dev.takeoverSends (d : Dev) : Dev :=
  let tags := d.nfp.reqs.map (·.tag)
  let sqs := (d.nfp.sqs.filter fun q => tags.contains q.2.2.tag).map fun q => (q.1, q.2.1, { q.2.2 with retx := true })
  let d := ({ d with nfp := { d.nfp with sqs := sqs, answers := [] } }).flushSqs
  if d.straitUp then d.str.reqs.foldl (fun d r => d.send r.msg) d else d

/-- A leeward becomes a SOLO windward, in the order of R474; it reads its rings from there on by commands of their own. (DEDUCED, assumption 28) -/
def Dev.takeover (d : Dev) (cause : Nat) : Dev :=
  let d := (d.wr TWN_STATUS_ROLE 0).setTwin 7 cause
  let d := d.takeoverStreams.twinRun
  let d := d.takeoverPosts.takeoverSends
  let d := d.fe.runs.foldl (fun d r => match d.op? r.op with | some o => d.graphStep r.op o.qid o.tag 5000 | none => d) d
  let d := ({ d with twn := { d.twn with answers := [], completes := [], outcomes := [], resolves := [], placements := [], lates := [] } }).placeWaiting
  d.tierSettle

/-! ### TWN_CMD (Table 16.10) -/

/-- Whether this module is the leeward in force. -/
def Dev.leeRole (d : Dev) : Bool := d.rd TWN_STATUS_ROLE == 1

/-- VERDICT_WINDWARD on a HELD module (Table 16.6). -/
def Dev.verdictFor (d : Dev) (leeward : Bool) : Dev :=
  if d.twState ≠ 4 then d.twnDone .busy
  else if d.leeRole then (if leeward then d.takeover 7 else d.fence 7).twnDone .ok
  else (if leeward then d.fence 7 else d.solo 7).twnDone .ok

/-- One OP of TWN_CMD; a state that does not allow it gives BUSY (R472, R474, R476–R479). -/
def Dev.twnOp (d : Dev) (op : Nat) : Dev :=
  let d := (d.wr TWN_CMD_OP op).wr TWN_CMD_GO 1
  match op with
  | 1 => d.pairStart
  | 2 => d.verdictFor false
  | 3 => d.verdictFor true
  | 4 => if d.twState = 5 then (d.solo 8).twnDone .ok else d.twnDone .busy
  | 5 => if d.twState = 6 then (d.takeover 8).twnDone .ok else d.twnDone .busy
  | _ => (d.fence 8).twnDone .ok

/-- The word of TWN_CMD that starts an OP. -/
def twnWord (op : Nat) : Word := BitVec.ofNat 64 (op * 16 + 1)

end Sys2Proof.Machine
end

