-- ==== Sys2Proof/Machine/Registers.lean ====
section
/-! DEFINITION. Writes of registers: ranges (R576), the rules of single registers, what is open when (R445, R519, R571), and the register commands without a row of their own (R12–R16). -/

namespace Sys2Proof.Machine

/-! ### Ranges (R576) -/

/-- The ranges that register maps give their fields: the field of the first register of its map, least and greatest value. -/
def regRanges : List (Fld × Nat × Nat) := [
  (REEF_LOCKSTEP_WINDOW, 1, 65535), (MEM_PRIO_CTRL_WR_HIGH, 1, 64), (MEM_SAT_CTRL_WINDOW, 1, 2 ^ 32), (MEM_SAT_CTRL_SAT_PCT, 1, 15),
  (MEM_RAS_CTRL_SCRUB_HOURS, 1, 255), (MEM_RAS_CTRL_RETRAIN_MS, 16, 65535), (TIER_CTRL_REFETCH_MS, 1, 2 ^ 32),
  (TIER_POOL_CTRL_FRAMES, 0, 190464), (COH_CTRL_SNOOP_TIMEOUT, 1, 2 ^ 32), (COH_HINT_RANGE_FIRST 0, 0, 196607),
  (COH_HINT_RANGE_LAST 0, 0, 196607), (CTU_FAULT_CTRL_RETRY, 16, 65535), (CTU_CNT_CTRL_THRESHOLD, 1, 2 ^ 32),
  (NFP_CTRL_REQ_TIMEOUT, 10, 65535), (NFP_STORE_COUNT, 0, 32768), (STR_CTRL_REQ_TIMEOUT, 1, 65535), (STR_DMA_RING_VECTOR 0, 3, 2047),
  (STR_DMA_PTR_LOG2 0, 4, 12), (TWN_CTRL_HB_MISS, 10, 65535), (TWN_CTRL_MAX_LAG, 1, 65535), (PWR_CAP_CAP_W, 2000, 3400),
  (PWR_CAP_LOWER_MS, 1, 65535), (TDM_SNAPSEL_BLOCK 0 0, 0, 14)]

/-- Whether a value keeps every field of a map in its range, with the ranges that tie fields to each other or to a multiple (R576). -/
def rangeOk (base : Nat) (v : Word) : Bool :=
  regRanges.all (fun r => r.1.reg != base || (decide (r.2.1 ≤ fieldOf v r.1.hi r.1.lo) && decide (fieldOf v r.1.hi r.1.lo ≤ r.2.2))) &&
  (if base = MEM_PRIO_CTRL_WR_HIGH.reg then decide (fieldOf v 39 32 < fieldOf v 47 40)
   else if base = MEM_CLASS_MAP_MAP.reg then (List.range 12).all fun i => fieldOf v (2 * i + 1) (2 * i) != 3
   else if base = (COH_HINT_RANGE_FIRST 0).reg ∨ base = (NFP_WIN_RANGE_FIRST 0).reg then decide (fieldOf v 63 46 ≤ fieldOf v 45 28)
   else if base = (TWN_SET_W0_VA 0).reg then fieldOf v 56 0 % 64 == 0
   else if base = (TWN_SET_W1_LENGTH 0).reg then fieldOf v 39 0 % 64 == 0
   else if base = PWR_CAP_CAP_W.reg then decide (fieldOf v 47 32 < fieldOf v 63 48)
   else if base = (TDM_SNAPSEL_BLOCK 0 0).reg then fieldOf v 23 0 % 8 == 0
   else true)

/-! ### Single registers -/

/-- NFP_PORT_CTRL[p]: EN brings the port up or takes it down (R378, R381). -/
def Dev.portWrite (d : Dev) (p : Nat) (v : Word) : Dev :=
  let was := d.rd (NFP_PORT_CTRL_EN p)
  let d := (d.plainWrite (NFP_PORT_CTRL_EN p).reg v).wr (NFP_PORT_CTRL_EN p) was
  if v.getLsbD 0 then d.portOn p else if was = 1 then d.portOff p else d

/-- NFP_JOB[j], word 0: discarded while VALID is 1 unless it clears VALID, which ends the entry (R389, R390). -/
def Dev.jobWrite (d : Dev) (j : Nat) (v : Word) : Option Dev :=
  let off := (NFP_JOB_W0_VALID j).reg
  if d.rd (NFP_JOB_W0_VALID j) = 0 then some (d.plainWrite off v)
  else if v.getLsbD 15 then none
  else some ((d.endJob j).plainWrite off v)

/-- NFP_JOB_SQ: the send queues of entries with VALID 1 stay, which is an event when the write would change one (Table 13.13). -/
def Dev.jobSqWrite (d : Dev) (v : Word) : Dev :=
  let off := NFP_JOB_SQ_SQ.reg
  let old := d.word off
  let nib := fun (w : Word) (j : Nat) => fieldOf w (4 * j + 3) (4 * j)
  let held := (List.range 16).filter fun j => d.rd (NFP_JOB_W0_VALID j) == 1
  let new := held.foldl (fun w j => withField w (4 * j + 3) (4 * j) (nib old j)) v
  let d' := d.setWord off new
  if held.any fun j => nib v j != nib old j then d'.discard off v else d'

/-- STR_DMA_PTR[c].EN: the channel starts at count 0, or is emptied (R428, Table 14.11). -/
def Dev.dmaEnable (d : Dev) (c : Nat) (en : Bool) : Dev :=
  if en then
    if d.rd (STR_DMA_PTR_EN c) = 1 then d
    else (((d.wr (STR_DMA_PTR_EN c) 1).wr (STR_DMA_PTR_HEAD c) 0).wr (STR_DMA_PTR_TAIL c) 0).wr (STR_DMA_PTR_STATE c) 1
  else (d.wr (STR_DMA_PTR_EN c) 0).wr (STR_DMA_PTR_STATE c) 0

/-- STR_DMA_PTR[c]: another LOG2 while EN is 1 is discarded; TAIL hands over descriptors (R426, Table 14.11). -/
def Dev.dmaPtrWrite (d : Dev) (c : Nat) (v : Word) : Option Dev :=
  if d.rd (STR_DMA_PTR_EN c) = 1 ∧ fieldOf v 7 4 ≠ d.rd (STR_DMA_PTR_LOG2 c) then none
  else some (((d.wr (STR_DMA_PTR_LOG2 c) (fieldOf v 7 4)).wr (STR_DMA_PTR_TAIL c) (fieldOf v 47 32)).dmaEnable c (v.getLsbD 0))

/-- TWN_CTRL: a change of ROLE outside OFF and FENCED is discarded; EN trains the link or gives it up (R457, Table 16.7). -/
def Dev.twnCtrl (d : Dev) (v : Word) : Option Dev :=
  if fieldOf v 1 1 ≠ d.rd TWN_CTRL_ROLE ∧ d.twState ≠ 0 ∧ d.twState ≠ 8 then none
  else some (((d.plainWrite TWN_CTRL_EN.reg v).wr TWN_CTRL_EN (d.rd TWN_CTRL_EN)).twnEn (v.getLsbD 0))

/-- TIER_POOL_CTRL: discarded while a streamed object is open, or when the allocator has too few frames; else frames are given up or taken, lowest first (R270, Table 9.8). -/
def Dev.poolCtrl (d : Dev) (v : Word) : Option Dev :=
  let n := fieldOf v 17 0
  let cur := d.tier.poolFrames
  if d.fe.objects.any fun o => o.tier != 0 then none
  else
    let more := ((List.range 194560).map (· * frameBytes)).filter fun f => d.rangeFree f frameBytes
    if cur.length + more.length < n then none
    else
      let keep := cur.take n
      let take := more.take (n - cur.length)
      let lost := cur.drop n
      let d := (d.tier.copies.filter fun c => c.frames.any lost.contains).foldl (fun d c => d.freeCopy c.id) d
      let held := (d.fe.ranges.filter fun r => !lost.contains r.1) ++ take.map fun f => (f, frameBytes)
      let d := { d with fe := { d.fe with ranges := held }, tier := { d.tier with poolFrames := keep ++ take } }
      some (d.plainWrite TIER_POOL_CTRL_FRAMES.reg v).tierSync

/-- MEM_PC_CMD: with GO, the OPs of Table 8.11. -/
def Dev.memCmd (d : Dev) (v : Word) : Option Dev :=
  let pc := fieldOf v 31 23
  if !v.getLsbD 0 then some (d.plainWrite MEM_PC_CMD_GO.reg v)
  else match fieldOf v 22 20 with
    | 0 => some ((d.plainWrite MEM_PC_CMD_GO.reg v).wr MEM_PC_CMD_GO (d.rd MEM_PC_CMD_GO))
    | 1 => some (d.startTakeOut pc)
    | 2 => some (d.startReturn pc)
    | 3 => if 3 < fieldOf v 19 16 then none else some (d.startMargin pc (fieldOf v 19 16))
    | 4 => some (d.startRetire pc)
    | 5 => some (d.startSweep (pc / 32) (v.getLsbD 15))
    | _ => none

/-- RAS_TEST_CMD: with GO, the OPs of Table 17.8. -/
def Dev.testCmd (d : Dev) (v : Word) : Option Dev :=
  let t := fieldOf v 31 16
  if !v.getLsbD 0 then some (d.plainWrite RAS_TEST_CMD_GO.reg v)
  else match fieldOf v 11 8 with
    | 1 => some (d.startTile t)
    | 2 => some d.startTileAll
    | 3 => some (d.startCore t)
    | 4 => some d.startScan
    | _ => none

/-- GLB_RESET: discarded without CONFIRM 0xA5; COLD stands over WARM (R569, Table 21.7). -/
def Dev.glbReset (d : Dev) (v : Word) : Option Dev :=
  if fieldOf v 15 8 ≠ 0xA5 then none
  else if v.getLsbD 1 then some d.coldReset
  else if v.getLsbD 0 then some d.warmRequest
  else some d

/-- SEC_CMD: with GO, the OPs of Table 19.7; only the life-cycle ones reach the fuses. -/
def secWrite (v : Word) (s : State) : State :=
  let d := s.dev
  let p := fieldOf v 31 16
  let put := fun (d : Dev) => { s with dev := d }
  if !v.getLsbD 0 then put (d.plainWrite SEC_CMD_GO.reg v)
  else match fieldOf v 11 8 with
    | 1 => startLc (p % 8) (p / 256) s
    | 2 => put (d.startQuote p)
    | 3 => put (d.startMrExtend p)
    | 4 => put d.startPatchStage
    | 5 => put d.startPatchClear
    | 6 => put (d.startRollback p)
    | 7 => put (d.startCryptoErase (p / 256))
    | 8 => put d.startInstallCert
    | _ => put (d.discard SEC_CMD_GO.reg v)

/-- What a write of a register of a map does, by the register's own rule; none when that rule discards it. -/
def Dev.regEffect (d : Dev) (base off : Nat) (v : Word) : Option Dev :=
  let i := fun (stride : Nat) => (off - base) / stride
  let plain := some (d.plainWrite off v)
  let lockedBy := fun (c : Bool) => if c then none else plain
  if base = GLB_RESET_CONFIRM.reg then d.glbReset v
  else if base = FE_ADMIN_SQ_EN.reg then d.adminRing false v
  else if base = FE_ADMIN_CQ_EN.reg then d.adminRing true v
  else if base = FE_FUNC_CTRL_EN.reg then d.funcCtrl v
  else if base = FE_FENCE_SIGNAL_GO.reg then d.fenceWrite v
  else if base = CTU_INV_CMD_GO.reg then (if v.getLsbD 0 then d.invCmd v else plain)
  else if base = CTU_FQ_BASE_EN.reg then d.ctuRing true v
  else if base = CTU_NQ_BASE_EN.reg then d.ctuRing false v
  else if base = CTU_FAULT_RESOLVE_ID.reg then some (if v.getLsbD 0 then d.resolveId (fieldOf v 26 16) (v.getLsbD 1) else d)
  else if base = MEM_PC_CMD_GO.reg then d.memCmd v
  else if base = TIER_POOL_CTRL_FRAMES.reg then d.poolCtrl v
  else if base = COH_AGENT_CMD_GO.reg then (if v.getLsbD 0 then d.agentCmd v else plain)
  else if base = (COH_WAYS_TARGET 0).reg then d.wayTarget (i 8) v
  else if base = REEF_SRAM_LIMIT_LS_MIN.reg then d.sramLimit v
  else if base = NFP_DOM_CTRL_ENABLE.reg then d.domCtrl v
  else if base = NFP_DOM_START_START.reg then lockedBy (d.domState != 0)
  else if base = (NFP_PORT_CTRL_EN 0).reg then some (d.portWrite (i 8) v)
  else if base = (NFP_JOB_W0_VALID 0).reg then d.jobWrite (i 16) v
  else if base = (NFP_JOB_W1_TOKEN 0).reg then lockedBy (d.rd (NFP_JOB_W0_VALID (i 16)) == 1)
  else if base = NFP_JOB_SQ_SQ.reg then some (d.jobSqWrite v)
  else if base = (NFP_WIN_W0_OPEN 0).reg then d.winWrite (i 16) v
  else if base = (NFP_WIN_W1_TOKEN 0).reg then lockedBy (d.rd (NFP_WIN_W0_OPEN (i 16)) == 1)
  else if base = (NFP_WIN_RANGE_FIRST 0).reg then lockedBy (d.rd (NFP_WIN_W0_OPEN (i 8)) == 1)
  else if base = (NFP_ETH_MAC_ADDR 0).reg ∨ base = (NFP_ETH_PEER_ADDR 0).reg then lockedBy (d.rd (NFP_PORT_CTRL_EN (i 16)) == 1)
  else if base = (STR_DMA_PTR_EN 0).reg then d.dmaPtrWrite (i 16) v
  else if base = NRW_DIE_CMD_GO.reg then
    (if !v.getLsbD 0 then plain
     else if fieldOf v 7 5 ≠ 1 ∨ 5 < fieldOf v 18 16 then none else some (d.startDieReset (fieldOf v 18 16)))
  else if base = TWN_CTRL_EN.reg then d.twnCtrl v
  else if base = TWN_CMD_GO.reg then
    (if !v.getLsbD 0 then plain else if fieldOf v 7 4 = 0 ∨ 6 < fieldOf v 7 4 then none else some (d.twnOp (fieldOf v 7 4)))
  else if base = RAS_MAINT_CTRL_REQ.reg then some (if v.getLsbD 0 then d.maintEnter else d.maintLeave)
  else if base = RAS_TEST_CMD_GO.reg then d.testCmd v
  else if base = TDM_ACK_SEQ.reg then some (d.ackRecords (v.getLsbD 63) (fieldOf v 62 0))
  else if base = TDM_OPEN_DUMP.reg then some (d.tdmOpen (v.getLsbD 1) (v.getLsbD 0))
  else if base = TDM_DUMP_VALID.reg then some (if v.getLsbD 0 then d.dumpRelease else d)
  else plain

/-- A write of a register that a map lists: none when it is discarded under R576 or the register's own rule. -/
def Dev.regPut (d : Dev) (off : Nat) (v : Word) : Option Dev :=
  match regMapAt off with
  | none => some d
  | some m => if rangeOk m.base v then d.regEffect m.base off v else none

/-- Whether a windward forwards the writes of a register: FE, CTU, TIER, NFP, REEF and TWN_SET; a resolve is forwarded with its own record (Table 16.3). -/
def forwarded (off : Nat) : Bool :=
  (([1, 2, 4, 6, 7].contains (off / 2 ^ 24) && off != CTU_FAULT_RESOLVE_ID.reg) ||
    (decide ((TWN_SET_W0_VA 0).reg ≤ off) && decide (off < (TWN_SET_W0_VA 64).reg)))

/-- A register write done or discarded with its event, and forwarded by a windward (R577, Table 16.3). -/
def Dev.regWrite (d : Dev) (off : Nat) (v : Word) : Dev :=
  d.orDiscard off v ((d.regPut off v).map fun d' => if forwarded off then d'.tellDecision else d')

/-- The registers that take writes before READY (R571). -/
def openEarly (off : Nat) : Bool :=
  off / 2 ^ 24 == 0 || off == FE_ADMIN_SQ_EN.reg || off == FE_ADMIN_CQ_EN.reg || off == TDM_OPEN_DUMP.reg

/-- A naturally aligned 64-bit write of a register, at its offset (R13, R571). -/
def writeRegister (off : Nat) (v : Word) (s : State) : State :=
  if (regMapAt off).isNone then s
  else match s.dev.regGate off v (openEarly off) with
  | some d => { s with dev := d }
  | none => if off = SEC_CMD_GO.reg then secWrite v s else { s with dev := s.dev.regWrite off v }

/-! ### Reads (R13, R15) -/

/-- The counters of NFP_DROP_CNT, in the order of Table 13.16. -/
def dropCounts : List Fld :=
  [NFP_DROP_CNT_STALE, NFP_DROP_CNT_MISROUTED, NFP_DROP_CNT_CLOSED, NFP_DROP_CNT_TOKEN, NFP_DROP_CNT_RIGHTS, NFP_DROP_CNT_COLL, NFP_DROP_CNT_ETH]

/-- A naturally aligned 64-bit read of a register, and the device after it: RC counters are cleared, CLASS reads 1 in Ethernet mode, closed blocks read 0; a stop of discovery leaves GLB, NRW, SEC and TDM open in END too (R13, R15, R445, R519, Tables 13.8 and 19.3). (DEDUCED, assumption 38) -/
def Dev.readRegister (d : Dev) (off : Nat) : Word × Dev :=
  if d.lcState = 5 ∧ off / 2 ^ 24 ≠ 0 ∧ off / 2 ^ 24 ≠ 12 ∧ (d.discStopped && blockOpen (off / 2 ^ 24)) = false then (0, d.accessRefused 0)
  else if d.discStopped && !blockOpen (off / 2 ^ 24) then (0, d)
  else if off = NFP_DROP_CNT_STALE.reg then (d.readReg off, d.setWord off 0)
  else if (regMapAt off).map (·.base) = some (NFP_PORT_CTRL_EN 0).reg ∧ d.portEth ((off - (NFP_PORT_CTRL_EN 0).reg) / 8) then
    (withField (d.readReg off) 2 2 1, d)
  else (d.readReg off, d)

/-- The offset of a physical address in the register blocks. -/
def regOffset (addr : Nat) : Option Nat :=
  if regBase ≤ addr ∧ addr < regBase + 15 * 2 ^ 24 then some (addr - regBase) else none

/-- A register or doorbell access that is not a naturally aligned 64-bit one: the write is discarded, the read returns all ones, with an event (R14, R415). -/
def Dev.misaligned (d : Dev) (addr : Nat) : Dev :=
  match regOffset addr with
  | some off => d.event 0 0 1 (off / 2 ^ 24) addr 0 0
  | none => if regBase + 2 ^ 36 ≤ addr ∧ addr < regBase + 2 ^ 36 + 2 ^ 25 then d.event 0 0 1 15 addr 0 0 else d

/-! ### Commands -/

/-- REGISTER_WRITE: a 64-bit write at a local physical address of the register blocks (R12–R16). -/
def execRegisterWrite (addr : Nat) (v : Word) (s : State) : Out :=
  .next (if s.dev.live && !s.dev.down then
      match regOffset addr with
      | none => s
      | some off => if addr % 8 = 0 then writeRegister off v s else { s with dev := s.dev.misaligned addr }
    else s)

/-- MISALIGNED_REGISTER_ACCESS: an access of another width or alignment (R14); a naturally aligned 64-bit one is none. -/
def execMisalignedRegisterAccess (_isWrite : Bool) (addr : Nat) (width : Nat) : State → Out := run fun d =>
  if addr % 8 = 0 ∧ width = 8 then d else d.misaligned addr

/-- DROP_COUNT_READ: every counter is cleared; a drop in the same cycle is counted after the read (R15). -/
def execDropCountRead (same : Option Nat) : State → Out := run fun d =>
  let d := (d.readRegister NFP_DROP_CNT_STALE.reg).2
  match same.bind fun i => dropCounts[i]? with
  | some f => d.inc f
  | none => d

/-- DMA_TAIL_WRITE: the driver hands over descriptors (R426). -/
def execDmaTailWrite (ch : Nat) (tail : Nat) : State → Out :=
  regCmd (STR_DMA_PTR_TAIL ch).reg (BitVec.ofNat 64 (tail % 2 ^ 16 * 2 ^ 32)) fun d =>
    if 7 < ch then d else d.wr (STR_DMA_PTR_TAIL ch) tail

/-- DMA_CHANNEL_ENABLE: EN of a channel is written (R428). -/
def execDmaChannelEnable (ch : Nat) (en : Bool) : State → Out :=
  regCmd (STR_DMA_PTR_EN ch).reg (BitVec.ofNat 64 en.toNat) fun d => if 7 < ch then d else d.dmaEnable ch en

/-- TWIN_LINK_ENABLE: EN of TWN_CTRL is written (R457, R476). -/
def execTwinLinkEnable (en : Bool) : State → Out := regCmd TWN_CTRL_EN.reg (BitVec.ofNat 64 en.toNat) fun d => d.twnEn en

end Sys2Proof.Machine
end

