-- ==== Sys2Proof/Machine/Sequencer.lean ====
section
/-! DEFINITION. The sequencer commands: launch and image load (R107, R108), the instructions of Table 4.8, array operations and movement (R116–R133), resynchronisation (R104). -/

namespace Sys2Proof.Machine

/-! ### Launch -/

/-- LAUNCH_ARRAY: the sequencers take the oldest dispatched array launch of the owner once they hold none (R76, R101, R217). -/
def execLaunchArray (op : Nat) : State → Out := run fun d =>
  match d.ready? op 1 with
  | none => d
  | some o =>
    let owner := d.rd REEF_STATUS_OWNER_TAG
    let oldest := d.fe.ops.find? fun p => p.opcode == 1 && p.phase == .dispatched && p.tag == owner
    if d.seq.launch.isSome ∨ oldest.map (·.id) ≠ some op ∨ d.tiles.splitNext.isSome ∨ d.handing then d
    else
      let st := entF o.entry 64 8
      let l : SeqLaunch := ⟨op, o.tag, BitVec.ofNat 64 (entF o.entry 32 8), if st = 2 ^ 64 - 1 then none else some st, false, false, none⟩
      (d.updSeq fun s => { s with launch := some l }).wr REEF_SEQ_STATUS_STATE 1

/-- The first instruction of a launch may issue (R108, R133). -/
def Dev.startSeq (d : Dev) (l : SeqLaunch) : Dev :=
  ((d.updSeq fun s => { s with launch := some { l with loaded := true, started := true } }).begin l.op).wr REEF_SEQ_STATUS_STATE 2

/-- A launch that ends before its first issue, at ENTRY or, where the manual names no slot, at a free PC (Table 4.14, DESIGN CHOICE, assumption 4). -/
def Dev.seqStillborn (d : Dev) (st : Status) (cause : Nat) (pc : Option Nat) : Dev :=
  let (w, d) := d.free
  d.seqErr st cause (pc.getD (w.toNat % 65536))

/-- Whether an image header is in range (R107, Table 4.3, cause 0x09). -/
def imageOk (h : Nat) : Bool :=
  hdrF h 0 2 == 0x5A4C && decide (hdrF h 2 1 ≤ 1) && decide (1 ≤ hdrF h 4 4) && decide (hdrF h 4 4 ≤ 65536) && decide (hdrF h 8 4 < hdrF h 4 4)

/-- IMAGE_LOAD_COMPLETE: the header is checked, the slots are in instruction memory and the launch state is set; a launch without a start tick may issue, and so may one that names a tick on a member not RUNNING, which loses its timing (R107, R108, R129, R217). -/
def execImageLoadComplete (poisoned : Bool) : State → Out := run fun d =>
  match d.seq.launch with
  | none => d
  | some l =>
    if l.loaded ∨ d.handing then d
    else match d.vgather l.tag l.image.toNat 64 .image with
      | .error (.ended st) => d.seqStillborn st 0xFF none
      | .error _ => d
      | .ok (d, hb) =>
        let h := leNat (hb.map (·.1))
        let entry := hdrF h 8 4
        if poisoned ∨ hb.any (·.2) then d.seqStillborn .poisonConsumed 0xFF (some (entry % 65536))
        else if !imageOk h then d.seqStillborn .aborted 0x09 none
        else
          let n := hdrF h 4 4
          match d.vgather l.tag (l.image.toNat + 64) (8 * n) .image with
          | .error (.ended st) => d.seqStillborn st 0xFF none
          | .error _ => d
          | .ok (d, ib) =>
            if ib.any (·.2) then d.seqStillborn .poisonConsumed 0xFF (some entry)
            else
              let cb := ((d.op? l.op).map (·.cb)).getD []
              let d := d.updSeq fun s => { s with
                x := [], g := 1, h := [], hValid := 0, d := [], pc := entry, ordMem := [], ordSegs := [], moves := [], ops := []
                imem := (chunks 8 n (ib.map (·.1))).map (BitVec.ofNat 64), cmem := cb, inIssue := none, stall := none
                launch := some { l with loaded := true } }
              let d := (d.wr REEF_SEQ_STATUS_PC entry).wr REEF_SEQ_STATUS_WAIT 0
              match l.startTick with
              | none => d.startSeq l
              | some _ =>
                let d := d.wr REEF_DET_STATUS_STALLS 0
                if d.domRunning then d else (d.tdLose 9).startSeq l

/-- DOMAIN_LAUNCH_START: in cycle 0 of the start tick TD_OK is set again; later, timing is lost (R217, R223). -/
def execDomainLaunchStart : State → Out := run fun d =>
  match d.seq.launch with
  | none => d
  | some l =>
    match l.startTick with
    | none => d
    | some k =>
      if !l.loaded ∨ l.started ∨ d.handing then d
      else if !d.domRunning then (d.tdLose 9).startSeq l
      else if d.rd NFP_DOM_TICK_TICK < k then d
      else if d.rd NFP_DOM_TICK_TICK = k ∧ d.nfp.dom.clock = d.nfp.dom.tickAt then
        let off := sgn 16 (d.rd NFP_DOM_STATUS_OFFSET)
        let d := if -20000 ≤ off ∧ off ≤ 20000 then d.wr NFP_DOM_STATUS_TD_OK 1 else d
        d.startSeq l
      else ((d.tdLose 1).inc REEF_DET_STATUS_LATE).startSeq l

/-! ### Scalar instructions (R116, R117) -/

def execSeqNop (a : SeqArgs) : State → Out := run fun d => d.seqDo a fun d => .ok d
def execSeqAdd (a : SeqArgs) : State → Out := run fun d => d.seqAlu a fun x y => x + y
def execSeqSub (a : SeqArgs) : State → Out := run fun d => d.seqAlu a fun x y => x - y
def execSeqAnd (a : SeqArgs) : State → Out := run fun d => d.seqAlu a fun x y => x &&& y
def execSeqOr (a : SeqArgs) : State → Out := run fun d => d.seqAlu a fun x y => x ||| y
def execSeqXor (a : SeqArgs) : State → Out := run fun d => d.seqAlu a fun x y => x ^^^ y
def execSeqShl (a : SeqArgs) : State → Out := run fun d => d.seqAlu a fun x y => x <<< (y.toNat % 64)
def execSeqShr (a : SeqArgs) : State → Out := run fun d => d.seqAlu a fun x y => x >>> (y.toNat % 64)
def execSeqSar (a : SeqArgs) : State → Out := run fun d => d.seqAlu a fun x y => x.sshiftRight (y.toNat % 64)
def execSeqMul (a : SeqArgs) : State → Out := run fun d => d.seqAlu a fun x y => x * y
def execSeqMin (a : SeqArgs) : State → Out := run fun d => d.seqAlu a fun x y => if x.slt y then x else y
def execSeqMax (a : SeqArgs) : State → Out := run fun d => d.seqAlu a fun x y => if x.slt y then y else x
def execSeqMinu (a : SeqArgs) : State → Out := run fun d => d.seqAlu a fun x y => if x.ult y then x else y
def execSeqMaxu (a : SeqArgs) : State → Out := run fun d => d.seqAlu a fun x y => if x.ult y then y else x
def execSeqAddi (a : SeqArgs) : State → Out := run fun d => d.seqAluImm a fun x y => x + y
def execSeqSubi (a : SeqArgs) : State → Out := run fun d => d.seqAluImm a fun x y => x - y
def execSeqAndi (a : SeqArgs) : State → Out := run fun d => d.seqAluImm a fun x y => x &&& y
def execSeqOri (a : SeqArgs) : State → Out := run fun d => d.seqAluImm a fun x y => x ||| y
def execSeqXori (a : SeqArgs) : State → Out := run fun d => d.seqAluImm a fun x y => x ^^^ y
def execSeqShli (a : SeqArgs) : State → Out := run fun d => d.seqAluImm a fun x y => x <<< (y.toNat % 64)
def execSeqShri (a : SeqArgs) : State → Out := run fun d => d.seqAluImm a fun x y => x >>> (y.toNat % 64)
def execSeqSari (a : SeqArgs) : State → Out := run fun d => d.seqAluImm a fun x y => x.sshiftRight (y.toNat % 64)
def execSeqMuli (a : SeqArgs) : State → Out := run fun d => d.seqAluImm a fun x y => x * y
def execSeqMini (a : SeqArgs) : State → Out := run fun d => d.seqAluImm a fun x y => if x.slt y then x else y
def execSeqMaxi (a : SeqArgs) : State → Out := run fun d => d.seqAluImm a fun x y => if x.slt y then y else x
def execSeqMinui (a : SeqArgs) : State → Out := run fun d => d.seqAluImm a fun x y => if x.ult y then x else y
def execSeqMaxui (a : SeqArgs) : State → Out := run fun d => d.seqAluImm a fun x y => if x.ult y then y else x

/-- LIH: the immediate in the high half, X[RA]'s low half below. -/
def execSeqLih (a : SeqArgs) : State → Out := run fun d =>
  d.seqAluImm a fun x y => (y <<< 32) ||| (x &&& 0xFFFFFFFF)

/-- A guard from a comparison of X[RA] with a value; a condition code of 6 or 7 is illegal (R117). -/
def Dev.seqCompare (d : Dev) (a : SeqArgs) (v : Seq → Word) : Dev :=
  d.seqDo a fun d => match cmpCond 64 (a.rd.toNat / 8) (d.seq.xr a.ra.toNat).toNat (v d.seq).toNat with
    | some b => .ok (d.updSeq fun s => s.setG (a.rd.toNat % 8) b)
    | none => .error 0x0A

def execSeqCmp (a : SeqArgs) : State → Out := run fun d => d.seqCompare a fun s => s.xr a.rb.toNat
def execSeqCmpi (a : SeqArgs) : State → Out := run fun d => d.seqCompare a fun _ => immWord a

/-! ### Constant memory and descriptors (R113, R118, R122) -/

/-- LDC: 8 aligned bytes of constant memory. -/
def execSeqLdc (a : SeqArgs) : State → Out := run fun d => d.seqDo a fun d =>
  (d.seq.cbytes (d.seq.addr a) 8 8).map fun bs => d.updSeq fun s => s.setX a.rd.toNat (BitVec.ofNat 64 (leNat bs))

/-- LDD: a descriptor of constant memory, checked (R111, R113). -/
def execSeqLdd (a : SeqArgs) : State → Out := run fun d => d.seqDo a fun d =>
  match d.seq.cbytes (d.seq.addr a) 32 32 with
  | .error c => .error c
  | .ok bs =>
    let v := BitVec.ofNat 256 (leNat bs)
    if descOk v d.lsBytes then .ok (d.updSeq fun s => s.setD a.rd.toNat v) else .error 0x04

/-- ORDL: a K-block order loaded as a recorded segment, if it is a permutation (R122). -/
def execSeqOrdl (a : SeqArgs) : State → Out := run fun d => d.seqDo a fun d =>
  let n := (d.seq.xr a.rb.toNat).toNat
  let first := (d.seq.xr a.rd.toNat).toNat
  if 8192 < first + n then .error 0x05
  else match d.seq.cbytes (d.seq.addr a) (2 * n) 1 with
    | .error c => .error c
    | .ok bs =>
      let es := chunks 2 n bs
      if !(List.range n).all es.contains then .error 0x05
      else .ok (d.updSeq fun s => { s with
        ordMem := (es.zip (List.range n)).foldl (fun m e => sput (fun _ => 0) m (first + e.2) (BitVec.ofNat 16 e.1)) s.ordMem
        ordSegs := (s.ordSegs.filter fun g => !(decide (g.1 < first + n) && decide (first < g.1 + g.2)) && g.1 != first) ++ [(first, n)] })

/-- DBASE: a descriptor's BASE advanced, and the descriptor checked again. -/
def execSeqDbase (a : SeqArgs) : State → Out := run fun d => d.seqDo a fun d =>
  let v := d.seq.dr a.rd.toNat
  let base := (descBase v + d.seq.addr a) % 2 ^ 57
  let w := BitVec.ofNat 256 (v.toNat - descBase v + base)
  if descOk w d.lsBytes then .ok (d.updSeq fun s => s.setD a.rd.toNat w) else .error 0x04

/-- DSCALE: a descriptor's tensor scale. -/
def execSeqDscale (a : SeqArgs) : State → Out := run fun d => d.seqDo a fun d =>
  let v := d.seq.dr a.rd.toNat
  let w := BitVec.ofNat 256 (v.toNat % 2 ^ 224 + (d.seq.xr a.ra.toNat).toNat % 2 ^ 32 * 2 ^ 224)
  .ok (d.updSeq fun s => s.setD a.rd.toNat w)

/-! ### Summaries (R125) -/

def execSeqMovh (a : SeqArgs) : State → Out := run fun d => d.seqIssue 0x40 a
def execSeqHcmp (a : SeqArgs) : State → Out := run fun d => d.seqIssue 0x41 a
def execSeqHclr (a : SeqArgs) : State → Out := run fun d => d.seqIssue 0x42 a

/-! ### Control (R118, R133) -/

/-- BR: the slot S + IMM. -/
def execSeqBr (a : SeqArgs) : State → Out := run fun d =>
  if d.seqRuns && d.seq.stall.isNone then
    if d.guarded a.gi a.gn then
      match d.target a with
      | .ok t => d.goTo t
      | .error c => d.illegal c
    else d.proceed
  else d

/-- LOOP: X[RD] counts down, and the branch is taken while it is not 0; the target is checked on every pass that executes. -/
def execSeqLoop (a : SeqArgs) : State → Out := run fun d =>
  if d.seqRuns && d.seq.stall.isNone then
    if d.guarded a.gi a.gn then
      match d.target a with
      | .error c => d.illegal c
      | .ok t =>
        let v := d.seq.xr a.rd.toNat - 1
        let d := d.updSeq fun s => s.setX a.rd.toNat v
        if v = 0 then d.proceed else d.goTo t
    else d.proceed
  else d

def execSeqEnd (a : SeqArgs) : State → Out := run fun d => d.seqIssue 0x5F a
def execSeqWaita (a : SeqArgs) : State → Out := run fun d => d.seqIssue 0x61 a

/-! ### Array operations (R119–R124, R149–R151, R578) -/

/-- AOP, with the digests that the four sequencers form of it (R103, R120, R123). -/
def execAop (a : AopArgs) (dig : Digests) : State → Out := run fun d =>
  if d.seqRuns && d.seq.stall.isNone then d.issueAop a dig else d

/-- The operations issued before an operation. -/
def Seq.earlier (s : Seq) (o : ArrayOp) : List ArrayOp := s.ops.filter fun p => decide (p.id < o.id)

/-- Whether the matrix part of an operation may start (R123, R124, R150). -/
def Seq.matrixMay (s : Seq) (o : ArrayOp) : Bool :=
  !o.mStarted && (s.earlier o).all fun p => p.mStarted &&
    (p.fEnded || !((readsBank p.cfg && p.fbank == o.mbank) ||
      (cfgOmode p.cfg != 3 && (descMeet p.dc o.da || descMeet p.dc o.db))))

/-- Whether the flow part of an operation may start (R124, R149). -/
def Seq.flowMay (s : Seq) (o : ArrayOp) : Bool :=
  !o.fStarted && (s.earlier o).all fun p => p.fEnded &&
    (p.mStarted || !((readsBank o.cfg && p.mbank == o.fbank) ||
      (cfgOmode o.cfg != 3 && (descMeet p.da o.dc || descMeet p.db o.dc))))

/-- The device with an issued operation changed. -/
def Dev.updAop (d : Dev) (id : Nat) (f : ArrayOp → ArrayOp) : Dev :=
  d.updSeq fun s => { s with ops := updWhere (·.id == id) f s.ops }

/-- MATRIX_PART_START: the part runs with its fixed timing, and poison it reads ends the launch (R83, R123, R578). -/
def execMatrixPartStart (op : Nat) : State → Out := run fun d =>
  match d.seq.ops.find? (·.id == op) with
  | none => d
  | some o =>
    if !d.seq.matrixMay o then d
    else
      let (d, bad) := d.matrixPart o
      let d := (d.updAop op fun o => { o with mStarted := true }).leaveIssue op
      if bad then d.seqErr .poisonConsumed 0xFF o.pc else d

/-- FLOW_PART_START: not in a launch that has ended in an error; poison it will read ends the launch (R149, R151, R578). -/
def execFlowPartStart (op : Nat) : State → Out := run fun d =>
  match d.seq.ops.find? (·.id == op) with
  | none => d
  | some o =>
    if !d.seq.flowMay o ∨ (d.seq.launch.any (·.err.isSome)) then d
    else
      let bad := (List.range 640).any fun l => flowBad d.tiles l o
      let d := d.updAop op fun o => { o with fStarted := true }
      let d := if o.kind = 2 then d.leaveIssue op else d
      if bad then d.seqErr .poisonConsumed 0xFF o.pc else d

/-- FLOW_PART_END: outputs written, and the Reef's summary in H[HSEL] when HEN is 1 (R125, R149, R153, R154). -/
def execFlowPartEnd (op : Nat) : State → Out := run fun d =>
  match d.seq.ops.find? (·.id == op) with
  | none => d
  | some o =>
    if !o.fStarted ∨ o.fEnded then d
    else
      let (d, h) := d.flowPart o
      let d := d.updAop op fun o => { o with fEnded := true }
      let d := if o.hen then d.updSeq fun s => { s with
          h := sput (fun _ => 0) s.h o.hsel (BitVec.ofNat 64 h), hValid := s.hValid ||| (1 : BitVec 16) <<< o.hsel } else d
      d.seqStep

/-- ARRAY_OP_DONE: the done signal of an operation whose parts have run, or whose flow part will not start any more (R133, R151). -/
def execArrayOpDone (op : Nat) : State → Out := run fun d =>
  match d.seq.ops.find? (·.id == op) with
  | none => d
  | some o =>
    let erred := d.seq.launch.any (·.err.isSome)
    if !o.mStarted ∨ !(o.fEnded || (erred && !o.fStarted)) then d
    else (d.updSeq fun s => { s with ops := s.ops.filter (·.id != op), inIssue := if s.inIssue = some op then none else s.inIssue }).seqStep

/-! ### Movement (R127–R129) -/

def execSeqLdt (a : SeqArgs) : State → Out := run fun d => d.seqIssue 0x70 a
def execSeqStt (a : SeqArgs) : State → Out := run fun d => d.seqIssue 0x71 a
def execSeqXlt (a : SeqArgs) : State → Out := run fun d => d.seqIssue 0x72 a
def execSeqWaitm (a : SeqArgs) : State → Out := run fun d => d.seqIssue 0x73 a

/-- MOVE_COMPLETE: every tile's share has finished and the token is idle; an error ends the launch; an access that waits on a fault holds the movement (R128, R129). -/
def execMoveComplete (tok : Nat) (err : Option Status) : State → Out := run fun d =>
  match d.seq.moves.find? (·.tok == tok), d.seq.launch with
  | some m, some l =>
    let c := d.moveAll m l.tag
    let idle := fun (d : Dev) => d.updSeq fun s => { s with moves := s.moves.filter (·.tok != tok) }
    match err <|> c.err with
    | some st => if st = .ok then d else ((idle c.dev).seqErr st 0xFF m.pc).seqStep
    | none => if c.waits then d else (idle c.dev).seqStep
  | _, _ => d

/-! ### Enqueue, fences and marked points (R130–R132, R468) -/

/-- ENQ: an entry of constant memory handed to a device-owned queue; its status in X[RD] (R130). -/
def execSeqEnq (a : SeqArgs) : State → Out := run fun d => d.seqDo a fun d =>
  match d.seq.cbytes (d.seq.addr a) 128 1, d.seq.launch with
  | .error c, _ => .error c
  | .ok bs, some l =>
    let (d, st) := d.enqueue l.tag (d.seq.xr a.rb.toNat).toNat l.op bs
    .ok (d.updSeq fun s => s.setX a.rd.toNat (BitVec.ofNat 64 (statusCode st)))
  | .ok _, none => .ok d

/-- FSIG: the fence of index X[RA] is signalled with X[RB], or the signal is discarded (R131, R361). -/
def execSeqFsig (a : SeqArgs) : State → Out := run fun d => d.seqDo a fun d =>
  match d.seq.launch with
  | some l =>
    let qid := ((d.op? l.op).map (·.qid)).getD 0
    .ok (d.fsig l.tag qid (d.seq.xr a.ra.toNat).toNat (d.seq.xr a.rb.toNat))
  | none => .ok d

def execSeqRotp (a : SeqArgs) : State → Out := run fun d => d.seqIssue 0x90 a
def execSeqYldp (a : SeqArgs) : State → Out := run fun d => d.seqIssue 0x91 a
def execSeqTally (a : SeqArgs) : State → Out := run fun d => d.seqIssue 0x92 a

/-! ### Illegal opcodes and resynchronisation (R104, R116) -/

/-- Whether Table 4.8 lists an opcode. -/
def knownOpcode (o : Nat) : Bool :=
  decide (o ≤ 0x0D) || (decide (0x11 ≤ o) && decide (o ≤ 0x1D)) || (decide (0x20 ≤ o) && decide (o ≤ 0x22)) ||
  (decide (0x30 ≤ o) && decide (o ≤ 0x34)) || (decide (0x40 ≤ o) && decide (o ≤ 0x42)) ||
  [0x50, 0x51, 0x5F, 0x60, 0x61, 0x70, 0x71, 0x72, 0x73, 0x80, 0x81, 0x90, 0x91, 0x92].contains o

/-- UNKNOWN_OPCODE: a slot whose opcode Table 4.8 does not list ends the launch, whether or not it executes (R115, R116). -/
def execUnknownOpcode (op : BitVec 8) : State → Out := run fun d =>
  if d.seqRuns && d.seq.stall.isNone && !knownOpcode op.toNat then d.illegal 0x01 else d

/-- RESYNC_COMPLETE: the faulted sequencer is reloaded, the leader's role passes on if it was the leader, and all four issue the suppressed instruction again, forming new digests (R104). -/
def execResyncComplete (dig : Digests) : State → Out := run fun d =>
  match d.seq.stall with
  | some (.resync a die) =>
    let d := d.wr REEF_SEQ_STATUS_LIVE (Nat.lor (d.rd REEF_SEQ_STATUS_LIVE) (2 ^ die))
    let d := d.inc REEF_LOCKSTEP_RESYNCS
    let d := if d.rd REEF_STATUS_LEADER = die then d.wr REEF_STATUS_LEADER ((die + 1) % 4) else d
    d.unstall.issueAop a dig
  | _ => d

end Sys2Proof.Machine
end

