-- ==== Sys2Proof/Machine/Strait.lean ====
section
/-! DEFINITION. The Strait link as the host uses it: register, doorbell and aperture accesses (R414–R418), answers to the module's own requests (R421, R423), and Strait DMA (R426–R428). (DEDUCED, assumption 25) -/

namespace Sys2Proof.Machine

/-! ### The aperture (R416, R417) -/

/-- Whether an address is one of the aperture's 512 GiB, of the register blocks' 256 MiB, or of the doorbells' 32 MiB (Table 14.3). -/
def inAperture (a : Nat) : Bool := decide (a < 2 ^ 39)
def inBar0 (a : Nat) : Bool := decide (regBase ≤ a) && decide (a < regBase + 2 ^ 28)
def inDoorbells (a : Nat) : Bool := decide (regBase + 2 ^ 36 ≤ a) && decide (a < regBase + 2 ^ 36 + 2 ^ 25)

/-- Whether TDM_OPEN opens an address of the firmware area for reading: the dump area or the spill region (R513). -/
def Dev.retrievable (d : Dev) (a : Nat) : Bool :=
  (decide (dumpBase ≤ a) && decide (a < poolTop) && d.rd TDM_OPEN_DUMP == 1) ||
  (decide (spillBase ≤ a) && decide (a < dumpBase) && d.rd TDM_OPEN_SPILL == 1)

/-- Whether the device refuses an aperture access: from 384 GiB up, the firmware area and reserve frames, and before READY everything that is not open for retrieval (R416, R571). -/
def Dev.apertureRefuses (d : Dev) (a : Nat) (isRead : Bool) : Bool :=
  if isRead && d.retrievable a then false
  else decide (allocTop ≤ a) || reserveFrame (a / frameBytes) || d.rd GLB_STATUS_READY == 0

/-- The INFO event of a refused aperture access (R416, Table 18.2). -/
def Dev.apertureEvent (d : Dev) (a : Nat) : Dev := d.event 9 0 2 0 a 0 0

/-- A write through the aperture: at its home, lines with PMASK poisoned, a hint range applying; a leeward takes the world only through its windward (R306, R416, R418, R455). -/
def Dev.apertureWrite (d : Dev) (a : Nat) (bs : List Byte) (pmask : BitVec 64) : Dev :=
  if d.apertureRefuses a false then d.apertureEvent a
  else if d.isLeeward then d
  else ((d.putMasked a bs pmask).installRange a bs.length 0).tellWorld

/-- The bytes that a line of all ones answers a refused read with. -/
def ones (n : Nat) : List Byte := List.replicate n 0xFF

/-- The answer to a host read or atomic; a mute module sends none but those of registers (R463, R473, R478). -/
def Dev.answerHost (d : Dev) (tag status : Nat) (bs : List Byte) (pmask : BitVec 64 := 0) : Dev :=
  if d.mute then d else d.send (.straitCpl tag status bs pmask)

/-! ### Host requests (R414–R418) -/

/-- STRAIT_WR: a host write at a register, a doorbell or the aperture; the coherent domain being down, none is taken (R314, R414–R416). -/
def execStraitWr (addr : Nat) (data : List Byte) (pmask : BitVec 64) (s : State) : Out :=
  let d := s.dev
  let v : Word := BitVec.ofNat 64 (leNat data)
  if !(d.live && !d.down && d.straitUp) then .next s
  else if inAperture addr then .next { s with dev := d.apertureWrite addr data pmask }
  else if inBar0 addr ∨ inDoorbells addr then
    if addr % 8 ≠ 0 ∨ data.length ≠ 8 then .next { s with dev := d.misaligned addr }
    else match regOffset addr with
      | some off => .next (writeRegister off v s)
      | none =>
        if inBar0 addr then .next s
        else
          let o := addr - (regBase + 2 ^ 36)
          if o % 4096 = 0 then execSqTail (o / 4096) v s
          else if o % 4096 = 8 then execCqHead (o / 4096) v s
          else .next s
  else .next s

/-- A read of the register blocks or of a doorbell page, and the device after it (R13, R14, R354, R415). -/
def Dev.straitReg (d : Dev) (addr len : Nat) : List Byte × Dev :=
  if addr % 8 ≠ 0 ∨ len ≠ 8 then (ones len, d.misaligned addr)
  else match regOffset addr with
    | some off => let (w, d) := d.readRegister off; (leBytes 8 w.toNat, d)
    | none => (leBytes 8 0, d)

/-- STRAIT_RD: registers are read even while the coherent domain is down; the aperture reads HBM with its poison after every earlier write (R314, R416–R418). -/
def execStraitRd (tag : Nat) (addr : Nat) (len : Nat) : State → Out := act fun d =>
  if !d.straitUp then d
  else if inBar0 addr ∨ inDoorbells addr then
    let (bs, d) := d.straitReg addr len
    d.send (.straitCpl tag 0 bs 0)
  else if d.down ∨ !inAperture addr then d
  else if d.apertureRefuses addr true then (d.apertureEvent addr).answerHost tag 0 (ones len)
  else d.answerHost tag 0 (d.bytesAt addr len) (d.maskOf addr len)

/-- The operation of an AOP in Table 6.4: FetchAdd, Swap, CAS (Table 14.2). -/
def aopFunc (aop : BitVec 8) : Option Nat :=
  match aop.toNat % 128 with
  | 0 => some 0
  | 1 => some 9
  | 2 => some 10
  | _ => none

/-- STRAIT_ATOM: an atomic of the host at the aperture, performed once at its home and answered with the value before; one that is not listed or not aligned is REFUSED (R423, R429, Table 14.2). -/
def execStraitAtom (tag : Nat) (addr : Nat) (aop : BitVec 8) (a : Word) (b : Word) : State → Out := run fun d =>
  let wide := aop.getLsbD 7
  let n := if wide then 8 else 4
  if !d.straitUp ∨ !inAperture addr then d
  else if d.apertureRefuses addr false then (d.apertureEvent addr).answerHost tag 0 (ones n)
  else match aopFunc aop with
    | none => d.answerHost tag 1 []
    | some f =>
      if addr % n ≠ 0 then d.answerHost tag 1 []
      else if d.isLeeward then d
      else
        let old := d.natAt addr n
        let bad := d.poisonAt addr
        let d := match atomResult f wide old (a.toNat % 2 ^ (8 * n)) (b.toNat % 2 ^ (8 * n)) with
          | some v => (d.putBytes addr (leBytes n v) bad).tellWorld
          | none => d
        d.answerHost tag 0 (leBytes n old) (if bad then 1 else 0)

/-! ### The module's own requests (R411, R421, R423) -/

/-- What waits for an outstanding request ends with a status. -/
def Dev.endHostReq (d : Dev) (r : StrReq) (st : Status) : Dev :=
  let d := match r.op with
    | some op => d.finish op st
    | none => d
  match r.core with
  | some c => d.endTask c st
  | none => d

/-- CPL: the request is answered; a status other than OK ends the access RIGHTS, and poisoned data ends a core's load POISON_CONSUMED. Good data is taken by the command of the engine that asked (R418, R421). -/
def execCpl (tag : Nat) (status : Nat) (data : List Byte) (pmask : BitVec 64) : State → Out := run fun d =>
  match d.str.reqs.find? (·.tag == tag) with
  | none => d
  | some r =>
    let d := ({ d with str := { d.str with reqs := d.str.reqs.filter (·.tag != tag) } }).tellAnswer
    if status ≠ 0 ∨ data.length < r.len then d.endHostReq r .rights
    else if pmask ≠ 0 ∧ r.core.isSome then d.endHostReq r .poisonConsumed
    else d

/-- STRAIT_REQUEST_TIMEOUT: no answer within REQ_TIMEOUT (R421). -/
def execStraitRequestTimeout (tag : Nat) : State → Out := run fun d =>
  match d.str.reqs.find? (·.tag == tag) with
  | none => d
  | some r =>
    let d := { d with str := { d.str with reqs := d.str.reqs.filter (·.tag != tag) } }
    (d.event 9 0 3 0 r.addr 0 0).endHostReq r .resourceLost

/-- STRAIT_LINK_DOWN: the link leaves UP, and every outstanding request ends RESOURCE_LOST (R409, R411). -/
def execStraitLinkDown : State → Out := act fun d =>
  if [1, 2, 3, 4].contains (d.rd STR_LINK_STATUS_STATE) then d.linkDown 8 5 else d

/-! ### Strait DMA (R426–R428) -/

/-- The bytes of a descriptor's source: local physical addresses under TAG 0, else translated (R427). -/
def Dev.dmaRead (d : Dev) (tag src : Nat) : Nat → Except Xlate (Dev × List (Byte × Bool))
  | 0 => .ok (d, [])
  | n + 1 =>
    match (if tag = 0 then Xlate.pa src else d.xlate tag src .read) with
    | .pa a =>
      match d.gatherByte tag a with
      | .error e => .error e
      | .ok (b, d') =>
        match d'.dmaRead tag (src + 1) n with
        | .ok (d, r) => .ok (d, b :: r)
        | .error e => .error e
    | x => .error x

/-- The bytes written to a descriptor's destination, line by line. -/
def Dev.dmaWrite (d : Dev) (tag dst hint : Nat) (bs : List (Byte × Bool)) : Except Xlate Dev :=
  if tag ≠ 0 then d.vput tag none dst bs hint
  else (linePieces (bs.length + 1) dst bs).foldlM (fun (d : Dev) (p : Nat × List (Byte × Bool)) =>
    let data : BitVec 512 := BitVec.ofNat 512 (leNat (p.2.map (·.1)) * 2 ^ (8 * (p.1 % 64)))
    let mask : BitVec 64 := BitVec.ofNat 64 ((2 ^ p.2.length - 1) * 2 ^ (p.1 % 64))
    d.putAnywhere 0 none p.1 data mask (p.2.any (·.2)) hint) d

/-- What performing a descriptor comes to: the device and its STATUS, or a wait (R426, R427). -/
def Dev.dmaCopy (d : Dev) (e : BitVec 256) : Except Xlate Dev :=
  let f := fun off n => e.toNat / 2 ^ (8 * off) % 2 ^ (8 * n)
  let src := f 0 8; let dst := f 8 8; let n := f 16 4; let tag := f 20 2
  if n = 0 ∨ 2 ^ 30 < n ∨ 1 < f 23 1 then .error (.ended .aborted)
  else if tag = 0 ∧ !(inMemory src n && inMemory dst n) then .error (.ended .rights)
  else if tag ≠ 0 ∧ (d.context? tag).isNone then .error (.ended .handleInvalid)
  else match d.dmaRead tag src n with
    | .error x => .error x
    | .ok (d, bs) => d.dmaWrite tag dst (f 22 1) bs

/-- A descriptor ends: STATUS written, HEAD advanced, the INT sent when IRQ asks for it, and the channel HALTED unless it is OK (R426, R428). (DEDUCED, assumption 26) -/
def Dev.dmaEnd (d : Dev) (ch at_ : Nat) (irq : Bool) (st : Status) : Dev :=
  let d := d.putRecord (at_ + 24) (leBytes 1 (statusCode st))
  let d := d.wr (STR_DMA_PTR_HEAD ch) (d.rd (STR_DMA_PTR_HEAD ch) + 1)
  let d := if irq then d.raiseInt (d.rd (STR_DMA_RING_VECTOR ch)) else d
  if st = .ok then d else d.wr (STR_DMA_PTR_STATE ch) 2

/-- The descriptor at a channel's HEAD and whether it is poisoned: from HBM, or as it arrives from the host window. -/
def Dev.dmaEntry (d : Dev) (at_ : Nat) (ext : BitVec 256) : Option (BitVec 256 × Bool) :=
  if inPool at_ then some (BitVec.ofNat 256 (d.natAt at_ 32), d.poisonIn at_ 32)
  else if d.straitUp ∧ (d.hostAddr at_).isSome then some (ext, false) else none

/-- DMA_DESCRIPTOR_COMPLETE: the next descriptor of a running channel is performed; `err` is the status with which an access that waits ends (R426–R428, R491). -/
def execDmaDescriptorComplete (ch : Nat) (ext : BitVec 256) (err : Option Status) : State → Out := run fun d =>
  if 7 < ch ∨ d.isLeeward ∨ d.rd (STR_DMA_PTR_EN ch) = 0 ∨ d.rd (STR_DMA_PTR_STATE ch) ≠ 1 ∨ d.rd (STR_DMA_PTR_HEAD ch) = d.rd (STR_DMA_PTR_TAIL ch) then d
  else
    let at_ := d.rd (STR_DMA_RING_ADDR ch) * 4096 + d.rd (STR_DMA_PTR_HEAD ch) % 2 ^ d.rd (STR_DMA_PTR_LOG2 ch) * 32
    match d.dmaEntry at_ ext with
    | none => d
    | some (e, bad) =>
      let irq := e.getLsbD 184
      if d.str.dmaDead then d.dmaEnd ch at_ irq .resourceLost
      else if bad then d.dmaEnd ch at_ irq .poisonConsumed
      else match d.dmaCopy e with
        | .ok d => d.tellWorld.dmaEnd ch at_ irq .ok
        | .error (.ended st) => d.dmaEnd ch at_ irq st
        | .error _ => match err with
          | some st => d.dmaEnd ch at_ irq st
          | none => d

end Sys2Proof.Machine
end

