-- ==== Sys2Proof/Machine/Lanes.lean ====
section
/-! DEFINITION. The classes of lane instructions that their meanings share (Tables 6.3 and 6.4). (DESIGN CHOICE, assumption 14) (DEDUCED, assumption 52) -/

namespace Sys2Proof.Machine

/-! ### INT (class 0x0) -/

/-- The result of INT function `op` on `w`-bit codes; none where the manual gives none: a shift by the width or more. -/
def intFn (w op a b c : Nat) : Option Nat :=
  let sa := signedOf w a
  let sb := signedOf w b
  match op with
  | 0 => some ((a + b) % 2 ^ w)
  | 1 => some (codeOf w (sa - sb))
  | 2 => some (a * b % 2 ^ w)
  | 3 => some (codeOf w (sa * sb / (2 ^ w : Int)))
  | 4 => some (a * b / 2 ^ w)
  | 5 => some (Nat.land a b)
  | 6 => some (Nat.lor a b)
  | 7 => some (Nat.xor a b)
  | 8 => if b < w then some (a * 2 ^ b % 2 ^ w) else none
  | 9 => if b < w then some (a / 2 ^ b) else none
  | 10 => if b < w then some (codeOf w (sa / (2 ^ b : Int))) else none
  | 11 => some (if sa < sb then a else b)
  | 12 => some (if sa < sb then b else a)
  | 13 => some (min a b)
  | 14 => some (max a b)
  | 15 => some ((List.range w).filter fun i => a / 2 ^ i % 2 == 1).length
  | 16 => some (w - (List.range w).foldl (fun m i => if a / 2 ^ i % 2 = 1 then i + 1 else m) 0)
  | 17 => some ((a * b + c) % 2 ^ w)
  | 18 => some b
  | _ => none

/-- Whether an INT instruction is illegal: MAD in I form, reserved bits, register numbers (R164). -/
def intIll (op : Nat) (a : LaneArgs) (i : Issue) : Option Nat :=
  let imm := a.func.getLsbD 7
  let wide := a.func.getLsbD 6
  if op = 17 ∧ imm then some 0x01
  else
    let ra := if op = 18 then [] else [(a.ra.toNat, wide)]
    let rb := if imm ∨ op = 15 ∨ op = 16 then [] else [(a.rb, wide)]
    let rc := if op = 17 then [(a.rc, wide)] else []
    illRegs (!imm && a.rsvd != 0) ((a.rd.toNat, wide) :: (ra ++ rb ++ rc)) i

/-- INT function `op`: FUNC[7] takes IMM, sign-extended, in place of RB, FUNC[6] works on pairs (Table 6.4). -/
def laneInt (op : Nat) (a : LaneArgs) : State → Out := run fun d =>
  let wide := a.func.getLsbD 6
  let w := if wide then 64 else 32
  d.compute a (intIll op a) fun t i _ k =>
    let lk := laneKey i.g.tile i.g.slot k
    let get := fun r => if wide then t.pair lk r else t.reg lk r
    let b := if a.func.getLsbD 7 then codeOf w a.imm else get a.rb
    match intFn w op (get a.ra.toNat) b (get a.rc) with
    | some v => if wide then .r64 v else .r32 v
    | none => if wide then .open64 else .open32

/-! ### FP32 and FP64 (classes 0x1 and 0x2) -/

/-- Function FN of Table 5.5 on registers or, for FP64, on pairs, under the instruction's RM (R165). -/
def laneFp (f : Fmt) (fn : Nat) (a : LaneArgs) : State → Out := run fun d =>
  let wide := f == .b64
  let ops := [a.ra.toNat, a.rb, a.rc].take (fnArity fn)
  d.compute a (illRegs (a.rsvd != 0) ((a.rd.toNat, wide) :: ops.map (·, wide))) fun t i _ k =>
    let lk := laneKey i.g.tile i.g.slot k
    let get := fun r => if wide then t.pair lk r else t.reg lk r
    match stageFn f fn 0 a.rm (get a.ra.toNat) (get a.rb) (get a.rc) with
    | some v => if wide then .r64 v else .r32 v
    | none => .nothing

/-! ### CVT (class 0x3) -/

/-- The types that CVT names (Table 6.4). -/
def cvtType (t : Nat) : Bool := [0x0, 0x1, 0x2, 0x9, 0xA, 0xB, 0xD, 0xE, 0xF].contains t

/-- A code converted from one type to another; none where the manual gives no result: an integer outside a narrower integer type (R50, R51). -/
def cvtFn (src dst rm : Nat) (sat : Bool) (code : Nat) : Option Nat :=
  match elemFmt src, elemFmt dst with
  | some f, some g =>
    let narrower := !(decide (f.ebits ≤ g.ebits) && decide (f.mbits ≤ g.mbits))
    some (g.round rm (sat && narrower) (f.decode (code % 2 ^ elemBits src)))
  | some f, none => some (codeOf (elemBits dst) (Num.toInt rm (elemBits dst) (f.decode (code % 2 ^ elemBits src))))
  | none, some g => some (g.round rm sat (.ofInt (signedOf (elemBits src) code)))
  | none, none =>
    let v := signedOf (elemBits src) code
    if -(2 ^ (elemBits dst - 1) : Int) ≤ v ∧ v < 2 ^ (elemBits dst - 1) then some (codeOf (elemBits dst) v) else none

/-! ### Memory (classes 0x7 to 0x9) -/

/-- The address that a lane's MEM or ATOM access uses: a pair plus OFF (R185). -/
def memAddr (t : Threads) (lk : Nat) (a : LaneArgs) : Nat := codeOf 64 ((t.pair lk a.ra.toNat : Int) + a.off)

/-- A lane access that waits for its response (R168, R187). -/
def Dev.addAcc (d : Dev) (i : Issue) (a : LaneArgs) (kind func bytes : Nat) (addrs : List (Nat × Nat)) : Dev :=
  let x : LaneAcc := ⟨d.thr.nextAcc, i.g.tile, i.g.slot, i.l.op, i.g.blk, i.p.pc, kind, BitVec.ofNat 7 func, bytes,
    lanesMask (addrs.map (·.1)), addrs.map fun p => (p.1, BitVec.ofNat 64 p.2), a.rd.toNat, a.rb⟩
  d.updThr fun t => { t with accs := t.accs ++ [x], nextAcc := t.nextAcc + 1 }

/-- The executing lanes of an instruction with their addresses; the lowest misaligned lane, if any (R185). -/
def Dev.laneAddrs (d : Dev) (i : Issue) (a : LaneArgs) : List (Nat × Nat) :=
  (d.runLanes i a).map fun k => (k, memAddr d.thr (laneKey i.g.tile i.g.slot k) a)

/-- An instruction of classes LS, MEM and ATOM issues: illegal forms and running past the image end the launch, else `f` does its work on the lanes. -/
def Dev.memIssue (d : Dev) (a : LaneArgs) (ill : Issue → Option Nat) (f : Dev → Issue → Dev) : Dev :=
  match d.issue? a with
  | none => d
  | some i =>
    let first := (maskLanes i.p.mask).headD 0
    if i.l.ninstr ≤ i.p.pc then d.laneError i .aborted 0x06 first
    else match ill i with
      | some c => d.laneError i .aborted c first
      | none => f d i

/-- Requests that leave the module for the lanes of an access whose pages lie outside the pool (R343, R411). -/
def Dev.askLanes (d : Dev) (i : Issue) (acc : Access) (addrs : List (Nat × Nat)) (n : Nat) : Dev :=
  addrs.foldl (fun d p => match d.xlate i.l.tag p.2 acc with
    | .pa pa => if inPool pa then d else d.askOutside i.l.tag none pa n
    | _ => d) d

/-- MEM loads (LD and LDCG): the access waits for its data (R184, R185). -/
def laneLoad (atHome : Bool) (bytes : Nat) (a : LaneArgs) : State → Out := run fun d =>
  d.memIssue a (illRegs false [(a.rd.toNat, bytes == 8), (a.ra.toNat, true)]) fun d i =>
    let addrs := d.laneAddrs i a
    match addrs.find? fun p => p.2 % bytes != 0 with
    | some p => d.laneError i .aborted 0x03 p.1
    | none =>
      if addrs.isEmpty then d.advance i
      else ((d.askLanes i .read addrs bytes).addAcc i a (if atHome then 1 else 0) 0 bytes addrs).advance i

/-- MEM stores: the bytes go into the tile L1 (R181, R185, R291). -/
def laneStore (bytes : Nat) (a : LaneArgs) : State → Out := run fun d =>
  d.memIssue a (illRegs false [(a.rb, bytes == 8), (a.ra.toNat, true)]) fun d i =>
    let addrs := d.laneAddrs i a
    match addrs.find? fun p => p.2 % bytes != 0 with
    | some p => d.laneError i .aborted 0x03 p.1
    | none =>
      let t := d.thr
      let r := addrs.foldlM (fun d p =>
        let lk := laneKey i.g.tile i.g.slot p.1
        let v := if bytes = 8 then t.pair lk a.rb else t.reg lk a.rb
        d.l1Store i.g.tile i.l.tag p.2 (leBytes bytes v)) d
      match r with
      | .ok d => d.advance i
      | .error (.ended st) => d.laneError i st 0xFF ((addrs.head?.map (·.1)).getD 0)
      | .error _ => d

/-- LDC: a read of the launch's constant buffer at byte V[RA] + OFF (R185). -/
def laneLdc (bytes : Nat) (a : LaneArgs) : State → Out := run fun d =>
  d.memIssue a (illRegs false [(a.rd.toNat, bytes == 8), (a.ra.toNat, false)]) fun d i =>
    let addrs := (d.runLanes i a).map fun k => (k, (d.thr.reg (laneKey i.g.tile i.g.slot k) a.ra.toNat : Int) + a.off)
    match addrs.find? fun p => p.2 % (bytes : Int) != 0 || decide (p.2 < 0) || decide ((i.l.cb.length : Int) < p.2 + bytes) with
    | some p => d.laneError i .aborted (if p.2 % (bytes : Int) ≠ 0 then 0x03 else 0x05) p.1
    | none =>
      (addrs.foldl (fun d p =>
        let v := leNat ((i.l.cb.drop p.2.toNat).take bytes)
        d.putRes (laneKey i.g.tile i.g.slot p.1) a.rd.toNat (if bytes = 8 then .r64 v else .r32 v)) d).advance i

/-- The local-store address of a lane and the first byte and length of its range: the block's allocation, or the whole local store for LDSA (R171, R186). -/
def Dev.lsAddrs (d : Dev) (i : Issue) (a : LaneArgs) (abs : Bool) : Nat × Nat × List (Nat × Int) :=
  let base := if abs then 0 else ((d.thr.blocks.find? fun b => b.launch == i.l.op && b.blk == i.g.blk).map (·.base)).getD 0
  let len := if abs then d.tiles.split * segBytes else i.l.bls
  (base, len, (d.runLanes i a).map fun k => (k, (d.thr.reg (laneKey i.g.tile i.g.slot k) a.ra.toNat : Int) + a.off))

/-- The error of the lowest lane whose LS access is misaligned, outside its range or reads poison (R185, R186, R192). -/
def Dev.lsError (d : Dev) (i : Issue) (bytes base len : Nat) (load : Bool) (l : List (Nat × Int)) : Option (Nat × Status × Nat) :=
  l.findSome? fun p =>
    if p.2 % (bytes : Int) ≠ 0 then some (p.1, .aborted, 0x03)
    else if p.2 < 0 ∨ (len : Int) < p.2 + bytes then some (p.1, .rights, 0x04)
    else if load ∧ d.tiles.lsBad i.g.tile (base + p.2.toNat) bytes then some (p.1, .poisonConsumed, 0xFF)
    else none

/-- LS loads, zero- or sign-extended to 32 bits (R171, R186). -/
def laneLds (abs : Bool) (bytes : Nat) (signed : Bool) (a : LaneArgs) : State → Out := run fun d =>
  d.memIssue a (illRegs false [(a.rd.toNat, bytes == 8), (a.ra.toNat, false)]) fun d i =>
    let (base, len, l) := d.lsAddrs i a abs
    match d.lsError i bytes base len true l with
    | some (k, st, c) => d.laneError i st c k
    | none =>
      (l.foldl (fun d p =>
        let v := d.tiles.lsNat i.g.tile (base + p.2.toNat) bytes
        let v := if signed then codeOf 32 (signedOf (8 * bytes) v) else v
        d.putRes (laneKey i.g.tile i.g.slot p.1) a.rd.toNat (if bytes = 8 then .r64 v else .r32 v)) d).advance i

/-- LS stores, lane by lane in ascending order (R171, R186). -/
def laneSts (bytes : Nat) (a : LaneArgs) : State → Out := run fun d =>
  d.memIssue a (illRegs false [(a.rb, bytes == 8), (a.ra.toNat, false)]) fun d i =>
    let (base, len, l) := d.lsAddrs i a false
    match d.lsError i bytes base len false l with
    | some (k, st, c) => d.laneError i st c k
    | none =>
      let t := d.thr
      (l.foldl (fun d p =>
        let lk := laneKey i.g.tile i.g.slot p.1
        let v := if bytes = 8 then t.pair lk a.rb else t.reg lk a.rb
        d.updTiles fun x => x.lsPut i.g.tile (base + p.2.toNat) (leBytes bytes v)) d).advance i

/-- The data operands that an atomic names (R187). -/
def atomRegs (func : Nat) (wide : Bool) (rb : Nat) : List (Nat × Bool) :=
  if func = 10 then (if wide then [(rb, true), (rb + 2, true)] else [(rb, false), (rb + 1, false)]) else [(rb, wide)]

/-- The operands A and B of a lane's atomic. -/
def atomOps (t : Threads) (lk func : Nat) (wide : Bool) (rb : Nat) : Nat × Nat :=
  if wide then (t.pair lk rb, if func = 10 then t.pair lk (rb + 2) else 0) else (t.reg lk rb, if func = 10 then t.reg lk (rb + 1) else 0)

/-- ATOM: the tile writes back its dirty bytes of each line and drops it, and the access goes to the homes (R187, R189). -/
def laneAtom (func : Nat) (a : LaneArgs) : State → Out := run fun d =>
  let wide := a.func.getLsbD 7
  let bytes := if wide then 8 else 4
  d.memIssue a (fun i => if i.l.orderedOnly then some 0x07
      else illRegs false ((a.rd.toNat, wide) :: (a.ra.toNat, true) :: atomRegs func wide a.rb) i) fun d i =>
    let addrs := d.laneAddrs i a
    match addrs.find? fun p => p.2 % bytes != 0 with
    | some p => d.laneError i .aborted 0x03 p.1
    | none =>
      let clean := fun (d : Dev) (p : Nat × Nat) =>
        match d.l1? i.g.tile i.l.tag (p.2 / 64) with
        | some x => (d.writeBack x).map fun d => d.dropL1 x.tile x.tag x.vline
        | none => Except.ok d
      let r : Except Xlate Dev := addrs.foldlM clean d
      match r with
      | .error (.ended st) => d.laneError i st 0xFF ((addrs.head?.map (·.1)).getD 0)
      | .error _ => d
      | .ok d =>
        let stop := addrs.findSome? fun p => match d.xlate i.l.tag p.2 .atomic with
          | .pa pa => if inPool pa then none else (d.atomStop i.l.tag pa func wide).map fun st => (p.1, st)
          | _ => none
        if let some (k, st) := stop then d.laneError i st 0xFF k else
        let t := d.thr
        let d := addrs.foldl (fun d p => match d.xlate i.l.tag p.2 .atomic with
          | .pa pa =>
            if inPool pa then d
            else
              let (x, y) := atomOps t (laneKey i.g.tile i.g.slot p.1) func wide a.rb
              d.askAtom i.l.tag pa func wide none x y
          | _ => d) d
        if addrs.isEmpty then d.advance i
        else (d.addAcc i a 2 (func + if wide then 64 else 0) bytes addrs).advance i

/-! ### The response of a memory access (R184, R187, R188, R192, R302) -/

/-- What one lane of an access comes to: its value, an error, or a wait. -/
inductive LaneAns where
  | value (v : Nat) (d : Dev)
  | error (st : Status)
  | waits
  deriving DecidableEq, Repr

/-- The value that came from outside the pool for a lane. -/
def extValue (ext : BitVec 2048) (bytes lane : Nat) : Nat := ext.toNat / 2 ^ (64 * lane) % 2 ^ (8 * bytes)

/-- Bytes of a line. -/
def lineNat (x : BitVec 512) (off n : Nat) : Nat := x.toNat / 2 ^ (8 * off) % 2 ^ (8 * n)

/-- A mask of `n` bytes from a byte of a line. -/
def byteMask (off n : Nat) : BitVec 64 := BitVec.ofNat 64 ((2 ^ n - 1) * 2 ^ off)

/-- A lane's plain load: from the tile L1 where the bytes are valid, else the line is filled from its home (R291). -/
def Dev.loadLane (d : Dev) (tile tag va bytes lane : Nat) (ext : BitVec 2048) (err : Option Status) : LaneAns :=
  let m := byteMask (va % 64) bytes
  let hit := match d.l1? tile tag (va / 64) with
    | some x => if x.valid &&& m = m then some x else none
    | none => none
  match hit with
  | some x => if x.poisoned then .error .poisonConsumed else .value (lineNat x.data (va % 64) bytes) d
  | none =>
    match d.xlate tag va .read with
    | .ended st => .error st
    | .waits => (err.map LaneAns.error).getD .waits
    | .pa pa =>
      if inPool pa then
        match d.l1Fill tile tag (va / 64) (d.readLine (pa / 64)) (d.poisonAt pa) with
        | .ok d =>
          match d.l1? tile tag (va / 64) with
          | some x => if x.poisoned then .error .poisonConsumed else .value (lineNat x.data (va % 64) bytes) d
          | none => .waits
        | .error (.ended st) => .error st
        | .error _ => .waits
      else match (d.outsideStop tag pa).orElse fun _ => err with
        | some st => .error st
        | none => .value (extValue ext bytes lane) d

/-- A lane's load at the home: the tile's dirty bytes of the line stand in place of the home's (R184). -/
def Dev.loadHome (d : Dev) (tile tag va bytes lane : Nat) (ext : BitVec 2048) (err : Option Status) : LaneAns :=
  let top := fun (home : BitVec 512) (x : L1Line) => mergeLine home x.data x.dirty
  let m := byteMask (va % 64) bytes
  match d.xlate tag va .read with
  | .ended st => .error st
  | .waits => (err.map LaneAns.error).getD .waits
  | .pa pa =>
    if inPool pa then
      let home := d.readLine (pa / 64)
      match d.l1? tile tag (va / 64) with
      | some x =>
        if (d.poisonAt pa ∧ x.dirty &&& m ≠ m) ∨ (x.poisoned ∧ x.dirty &&& m ≠ 0) then .error .poisonConsumed
        else .value (lineNat (top home x) (va % 64) bytes) d
      | none => if d.poisonAt pa then .error .poisonConsumed else .value (lineNat home (va % 64) bytes) d
    else match (d.outsideStop tag pa).orElse fun _ => err with
      | some st => .error st
      | none => .value (extValue ext bytes lane) d

/-- A lane's atomic at its home (R187, R188); on a poisoned line it is performed and its result is poisoned. -/
def Dev.atomLane (d : Dev) (op tag va func bytes lane a b : Nat) (ext : BitVec 2048) (err : Option Status) : LaneAns :=
  match d.xlate tag va .atomic with
  | .ended st => .error st
  | .waits => (err.map LaneAns.error).getD .waits
  | .pa pa =>
    if inPool pa then
      let bad := d.poisonAt pa
      let d := d.recall (pa / 64)
      let old := d.natAt pa bytes
      let new := (atomResult func (bytes == 8) old (a % 2 ^ (8 * bytes)) (b % 2 ^ (8 * bytes))).getD old
      let d := (d.putNat pa bytes new).tellStream op
      if bad then .error .poisonConsumed else .value old d
    else match (d.atomStop tag pa func (bytes == 8)).orElse fun _ => err with
      | some st => .error st
      | none => .value (extValue ext bytes lane) d

/-- The lanes of an access in ascending order: results not yet written, or the lane and error, or a wait. -/
def Dev.laneFold (x : LaneAcc) (f : Dev → Nat → Nat → LaneAns) : Dev → List (Nat × Word) →
    Except (Option (Nat × Status)) (Dev × List (Nat × Nat))
  | d, [] => .ok (d, [])
  | d, (k, va) :: r =>
    match f d k va.toNat with
    | .error st => .error (some (k, st))
    | .waits => .error none
    | .value v d =>
      match Dev.laneFold x f d r with
      | .ok (d, vs) => .ok (d, (k, v) :: vs)
      | .error e => .error e

/-- The dirty lines of a tile written back and kept clean (FENCE DEVICE, R183); none while one waits. -/
def Dev.cleanTile (d : Dev) (tile : Nat) : Option (Dev × Option Status) :=
  (d.writeBackAll (d.l1Lines tile)).map fun p =>
    (p.1.updTiles fun t => { t with l1 := updWhere (·.tile == tile) (fun x => { x with dirty := 0 }) t.l1 }, p.2)

/-- A lane access completes, or ends its launch with an error; RD V0 discards the old value of an atomic, V1 of its 64-bit form with it (R187, R192). -/
def Dev.laneResponse (d : Dev) (id : Nat) (err : Option Status) (ext : BitVec 2048) : Dev :=
  match d.thr.accs.find? (·.id == id) with
  | none => d
  | some x =>
    match d.thrL? x.launch with
    | none => d
    | some l =>
      let drop := fun (d : Dev) => d.updThr fun t => { t with accs := t.accs.filter (·.id != id) }
      if x.kind = 3 then
        let busy := x.func.toNat = 2 && d.nfp.reqs.any fun r => (r.kind == 1 || r.kind == 3) && (d.tagJob l.tag) == some r.job
        if busy then d
        else match d.cleanTile x.tile with
          | none => (match err with | some st => (drop d).thrError l.op st 0xFF x.pc x.tile x.slot 0 | none => d)
          | some (d, none) => drop d
          | some (d, some st) => (drop d).thrError l.op st 0xFF x.pc x.tile x.slot 0
      else
        let t := d.thr
        let f := fun (d : Dev) (k va : Nat) =>
          if x.kind = 0 then d.loadLane x.tile l.tag va x.bytes k ext err
          else if x.kind = 1 then d.loadHome x.tile l.tag va x.bytes k ext err
          else
            let (a, b) := atomOps t (laneKey x.tile x.slot k) (x.func.toNat % 64) (x.bytes == 8) x.rb
            d.atomLane l.op l.tag va (x.func.toNat % 64) x.bytes k a b ext err
        match Dev.laneFold x f d x.addrs with
        | .error none => d
        | .error (some (k, st)) => (drop d).thrError l.op st 0xFF x.pc x.tile x.slot k
        | .ok (d, vs) =>
          if x.kind = 2 ∧ x.rd = 0 then drop d else
          vs.foldl (fun d p => d.putRes (laneKey x.tile x.slot p.1) x.rd (if x.bytes = 8 then .r64 p.2 else .r32 p.2)) (drop d)

/-! ### XLANE and control (classes 0x6 and 0xB) -/

/-- The lane that an XLANE read takes its value from: itself where the source does not execute (R167). -/
def srcLane (lanes : List Nat) (own src : Nat) : Nat := if lanes.contains src then src else own

/-- LREAD, LPAIR and LROT: V[RA] of another lane, as it was before (R167). -/
def laneShuffle (pick : Nat → Nat → Nat) (a : LaneArgs) : State → Out := run fun d =>
  d.compute a (illRegs (a.rsvd != 0) [(a.rd.toNat, false), (a.ra.toNat, false), (a.rb, false)]) fun t i lanes k =>
    let key := laneKey i.g.tile i.g.slot
    .r32 (t.reg (key (srcLane lanes k (pick k (t.reg (key k) a.rb % 32)))) a.ra.toNat)

/-- A control instruction on the current path. -/
def Dev.control (d : Dev) (a : LaneArgs) (f : Dev → Issue → List Nat → Dev) : Dev :=
  match d.issue? a with
  | none => d
  | some i =>
    if i.l.ninstr ≤ i.p.pc then d.laneError i .aborted 0x06 ((maskLanes i.p.mask).headD 0)
    else f d i (d.runLanes i a)

/-- A group's paths replaced. -/
def Dev.setPaths (d : Dev) (i : Issue) (f : List Path → List Path) : Dev :=
  d.updGroup i.g.tile i.g.slot fun g => { g with paths := f g.paths.tail }

/-- BRA: the lanes that branch go to the target, the rest on; the turn ends after a backward branch or a split (R174, R175). -/
def Dev.branch (d : Dev) (a : LaneArgs) (i : Issue) (lanes : List Nat) : Dev :=
  if lanes.isEmpty then d.advance i
  else
    let tgt := (i.p.pc : Int) + a.imm
    if tgt < 0 ∨ (i.l.ninstr : Int) ≤ tgt then d.laneError i .aborted 0x06 (lanes.headD 0)
    else
      let m := lanesMask lanes
      let tgtPath : Path := ⟨tgt.toNat, m, .ready⟩
      let stay : List Path := if i.p.mask = m then [] else [⟨i.p.pc + 1, i.p.mask &&& ~~~m, .ready⟩]
      if tgt.toNat < i.p.pc then
        let bump := fun (p : Path) => match p.st with | .join n => { p with st := .join (n + 1) } | _ => p
        d.setPaths i fun r => choosePath i.l.joinSpin (some tgt.toNat) (tgtPath :: stay ++ r.map bump)
      else if stay.isEmpty then d.setPaths i fun r => tgtPath :: r
      else d.setPaths i fun r => choosePath i.l.joinSpin none (stay ++ tgtPath :: r)

/-- JOIN: the path waits with those that wait at the same JOIN (R176). -/
def Dev.join (d : Dev) (i : Issue) (lanes : List Nat) : Dev :=
  if lanes.isEmpty ∨ i.l.joinSpin = 0 then d.advance i
  else d.setPaths i fun r =>
    let same := fun (q : Path) => q.pc == i.p.pc && (match q.st with | .join _ => true | _ => false)
    let r' := if r.any same then updWhere same (fun q => { q with mask := q.mask ||| i.p.mask }) r
      else { i.p with st := .join 0 } :: r
    choosePath i.l.joinSpin none r'

/-- BAR: the executing lanes arrive and the path waits; the barrier may complete (R178–R180). -/
def Dev.barrier (d : Dev) (i : Issue) (lanes : List Nat) : Dev :=
  if lanes.isEmpty then d.advance i
  else
    let d := d.setPaths i fun r => choosePath i.l.joinSpin none ({ i.p with st := .bar (lanesMask lanes) } :: r)
    let mark := fun (b : Block) => if b.barAt.isSome then b else { b with barAt := some d.tick }
    let d := d.updThr fun t => { t with blocks := updWhere (fun b => b.launch == i.l.op && b.blk == i.g.blk) mark t.blocks }
    d.barStep i.l.op i.g.blk i.g.tile i.l.joinSpin

/-- EXIT: the executing lanes leave; the barrier may complete, and the block may end (R177, R178). -/
def Dev.exitLanes (d : Dev) (i : Issue) (lanes : List Nat) : Dev :=
  if lanes.isEmpty then d.advance i
  else
    let m := lanesMask lanes
    let d := d.updGroup i.g.tile i.g.slot fun g => { g with
      exited := g.exited ||| m
      paths := if i.p.mask = m then choosePath i.l.joinSpin none g.paths.tail
        else ⟨i.p.pc + 1, i.p.mask &&& ~~~m, .ready⟩ :: g.paths.tail }
    (d.barStep i.l.op i.g.blk i.g.tile i.l.joinSpin).blockEnd i.l.op i.g.blk i.g.tile

end Sys2Proof.Machine
end

