-- ==== Sys2Proof/Machine/Threads.lean ====
section
/-! DEFINITION. The thread-group commands: placement, the lane instructions and their memory responses (R156–R194). (DESIGN CHOICE, assumption 14) -/

namespace Sys2Proof.Machine

/-! ### Launches and blocks -/

/-- Whether a kernel image's header is valid and one block fits an empty tile (Table 6.1, R161). -/
def kernelOk (h pool : Nat) : Bool :=
  hdrF h 0 2 == 0x5A54 && hdrF h 2 1 == 1 && decide (1 ≤ hdrF h 3 1) && decide (hdrF h 3 1 ≤ 32) &&
  decide (1 ≤ hdrF h 4 1) && decide (hdrF h 4 1 ≤ 32) && decide (hdrF h 5 1 < 2) && decide (hdrF h 7 1 ≤ 16) &&
  decide (1 ≤ hdrF h 8 4) && decide (hdrF h 8 4 ≤ 16777216) && decide (hdrF h 12 4 < hdrF h 8 4) &&
  hdrF h 16 4 % 1024 == 0 && hdrF h 20 44 == 0 &&
  decide (hdrF h 4 1 * (hdrF h 3 1 * 8) * 128 ≤ 262144) && decide (hdrF h 16 4 ≤ pool * segBytes)

/-- An ordered-reduction target record from its 32 bytes; none when a field has no meaning in Table 6.9. -/
def redTarget (bs : List Byte) : Option RedTarget :=
  let f := fun o n => leNat ((bs.drop o).take n)
  let al := if redWide (f 16 1) then 8 else 4
  if 3 < f 16 1 ∨ 2 < f 17 1 ∨ 1 < f 18 1 ∨ f 0 8 % al ≠ 0 ∨ f 8 8 % 8 ≠ 0 ∨ f 19 13 ≠ 0 then none
  else some ⟨BitVec.ofNat 64 (f 0 8), BitVec.ofNat 64 (f 8 8), f 16 1, f 17 1, f 18 1⟩

/-- The target records of a launch. -/
def redTargets : Nat → List Byte → Option (List RedTarget)
  | 0, _ => some []
  | n + 1, bs => (redTarget (bs.take 32)).bind fun t => (redTargets n (bs.drop 32)).map (t :: ·)

/-- A launch that runs no block ends with its status, recorded in REEF_THR_FAULT (R161, R192). -/
def Dev.thrRefuse (d : Dev) (op : Nat) (st : Status) (cause : Nat) : Dev :=
  ((d.thrFaultOpen none cause (statusCode st)).event 2 2 1 0 0 (statusCode st) cause).finish op st cause

/-- A thread launch becomes resident once its split is in force (R76, R160, R161, R190). -/
def Dev.startThreads (d : Dev) (o : FeOp) : Dev :=
  if d.tiles.splitNext.isSome then d
  else
    let e := o.entry
    match d.vread o.tag .image (entF e 32 8) 64 with
    | .error (.ended st) => d.thrRefuse o.id st 0xFF
    | .error _ => d
    | .ok hb =>
      if hb.any (·.2) then d.thrRefuse o.id .poisonConsumed 0xFF
      else
        let h := leNat (hb.map (·.1))
        if !kernelOk h d.tiles.pool then d.thrRefuse o.id .aborted 0x09
        else
          let nord := hdrF h 7 1
          match d.vread o.tag .read (entF e 72 8) (32 * nord) with
          | .error (.ended st) => d.thrRefuse o.id st 0xFF
          | .error _ => d
          | .ok tb =>
            if tb.any (·.2) then d.thrRefuse o.id .poisonConsumed 0xFF
            else match redTargets nord (tb.map (·.1)) with
              | none => d.thrRefuse o.id .aborted 0x09
              | some ts =>
                let bt := entF e 68 2
                let l : ThrLaunch := ⟨o.id, o.tag, BitVec.ofNat 64 (entF e 32 8), hdrF h 3 1 * 8, hdrF h 4 1, hdrF h 5 1 % 2 == 1,
                  hdrF h 6 1, ts, hdrF h 8 4, hdrF h 12 4, hdrF h 16 4, entF e 64 4, 0, [], if bt = 0 then 65536 else bt, o.cb, none, false⟩
                (d.begin o.id).updThr fun t => { t with launches := t.launches ++ [l] }

/-- LAUNCH_THREADS: the dispatchers take a dispatched launch (R160, R161). -/
def execLaunchThreads (op : Nat) : State → Out := run fun d =>
  match d.ready? op 2 with
  | none => d
  | some o => if 16 ≤ d.thr.launches.length then d else d.startThreads o

/-- The dispatcher of a die places the next block of the earliest launch with a block left on its lowest tile with room (R160). -/
def execBlockPlacement (die : Nat) : State → Out := run fun d =>
  match d.thr.launches.find? fun l => decide (l.nextBlk < l.nblocks) with
  | none => d
  | some l =>
    match d.tiles.handover with
    | .saving _ | .restoring _ => d
    | _ =>
      if 3 < die then d
      else match ((List.range 160).map (die * 160 + ·)).find? fun t => d.blockRoom l t with
        | none => d
        | some t => d.placeBlock l t

/-! ### INT -/

/-- Lane integer addition (R164). -/
def execIntAdd (l : LaneArgs) : State → Out := laneInt 0 l

/-- Lane integer subtraction (R164). -/
def execIntSub (l : LaneArgs) : State → Out := laneInt 1 l

/-- Lane integer multiplication, low part (R164). -/
def execIntMul (l : LaneArgs) : State → Out := laneInt 2 l

/-- High part of a signed product (R164). -/
def execIntMulhi (l : LaneArgs) : State → Out := laneInt 3 l

/-- High part of an unsigned product (R164). -/
def execIntMulhiu (l : LaneArgs) : State → Out := laneInt 4 l

/-- Lane bitwise AND (R164). -/
def execIntAnd (l : LaneArgs) : State → Out := laneInt 5 l

/-- Lane bitwise OR (R164). -/
def execIntOr (l : LaneArgs) : State → Out := laneInt 6 l

/-- Lane bitwise XOR (R164). -/
def execIntXor (l : LaneArgs) : State → Out := laneInt 7 l

/-- Lane left shift (R164). -/
def execIntShl (l : LaneArgs) : State → Out := laneInt 8 l

/-- Lane logical right shift (R164). -/
def execIntShr (l : LaneArgs) : State → Out := laneInt 9 l

/-- Lane arithmetic right shift (R164). -/
def execIntSar (l : LaneArgs) : State → Out := laneInt 10 l

/-- Lane signed minimum (R164). -/
def execIntMin (l : LaneArgs) : State → Out := laneInt 11 l

/-- Lane signed maximum (R164). -/
def execIntMax (l : LaneArgs) : State → Out := laneInt 12 l

/-- Lane unsigned minimum (R164). -/
def execIntMinu (l : LaneArgs) : State → Out := laneInt 13 l

/-- Lane unsigned maximum (R164). -/
def execIntMaxu (l : LaneArgs) : State → Out := laneInt 14 l

/-- Lane population count (R164). -/
def execIntPopc (l : LaneArgs) : State → Out := laneInt 15 l

/-- Lane count of leading zeros (R164). -/
def execIntClz (l : LaneArgs) : State → Out := laneInt 16 l

/-- Lane multiply-add RA × RB + RC, R form only (R164). -/
def execIntMad (l : LaneArgs) : State → Out := laneInt 17 l

/-- Lane move of the sign-extended immediate (R164). (DEDUCED, assumption 15) -/
def execIntMov (l : LaneArgs) : State → Out := laneInt 18 l

/-! ### FP32 and FP64 -/

/-- binary32 A + B, rounded by RM (R165). -/
def execFp32Add (l : LaneArgs) : State → Out := laneFp .b32 0x01 l

/-- binary32 A − B (R165). -/
def execFp32Sub (l : LaneArgs) : State → Out := laneFp .b32 0x02 l

/-- binary32 A × B (R165). -/
def execFp32Mul (l : LaneArgs) : State → Out := laneFp .b32 0x03 l

/-- binary32 A × B + C with one rounding (R165). -/
def execFp32Fma (l : LaneArgs) : State → Out := laneFp .b32 0x04 l

/-- binary32 IEEE minimum (R165). -/
def execFp32Min (l : LaneArgs) : State → Out := laneFp .b32 0x05 l

/-- binary32 IEEE maximum (R165). -/
def execFp32Max (l : LaneArgs) : State → Out := laneFp .b32 0x06 l

/-- binary32 absolute value (R165). -/
def execFp32Abs (l : LaneArgs) : State → Out := laneFp .b32 0x07 l

/-- binary32 negation (R165). -/
def execFp32Neg (l : LaneArgs) : State → Out := laneFp .b32 0x08 l

/-- binary32 round to an integral value (R165). -/
def execFp32Rint (l : LaneArgs) : State → Out := laneFp .b32 0x0A l

/-- binary32 A × 2^b (R165). -/
def execFp32Ldexp (l : LaneArgs) : State → Out := laneFp .b32 0x0B l

/-- binary32 reciprocal (R165). -/
def execFp32Rcp (l : LaneArgs) : State → Out := laneFp .b32 0x0C l

/-- binary32 division (R165). -/
def execFp32Div (l : LaneArgs) : State → Out := laneFp .b32 0x0D l

/-- binary32 square root (R165). -/
def execFp32Sqrt (l : LaneArgs) : State → Out := laneFp .b32 0x0E l

/-- binary32 reciprocal square root, correctly rounded (R165). -/
def execFp32Rsqrt (l : LaneArgs) : State → Out := laneFp .b32 0x0F l

/-- binary32 e^A (R165). -/
def execFp32Exp (l : LaneArgs) : State → Out := laneFp .b32 0x10 l

/-- binary32 2^A (R165). -/
def execFp32Exp2 (l : LaneArgs) : State → Out := laneFp .b32 0x11 l

/-- binary32 natural logarithm (R165). -/
def execFp32Log (l : LaneArgs) : State → Out := laneFp .b32 0x12 l

/-- binary32 base-2 logarithm (R165). -/
def execFp32Log2 (l : LaneArgs) : State → Out := laneFp .b32 0x13 l

/-- binary32 tanh (R165). -/
def execFp32Tanh (l : LaneArgs) : State → Out := laneFp .b32 0x14 l

/-- binary32 sigmoid (R165). -/
def execFp32Sigmoid (l : LaneArgs) : State → Out := laneFp .b32 0x15 l

/-- binary32 erf (R165). -/
def execFp32Erf (l : LaneArgs) : State → Out := laneFp .b32 0x16 l

/-- binary32 sine (R165). -/
def execFp32Sin (l : LaneArgs) : State → Out := laneFp .b32 0x17 l

/-- binary32 cosine (R165). -/
def execFp32Cos (l : LaneArgs) : State → Out := laneFp .b32 0x18 l

/-- binary64 A + B on pairs (R165). -/
def execFp64Add (l : LaneArgs) : State → Out := laneFp .b64 0x01 l

/-- binary64 A − B (R165). -/
def execFp64Sub (l : LaneArgs) : State → Out := laneFp .b64 0x02 l

/-- binary64 A × B (R165). -/
def execFp64Mul (l : LaneArgs) : State → Out := laneFp .b64 0x03 l

/-- binary64 fused multiply-add (R165). -/
def execFp64Fma (l : LaneArgs) : State → Out := laneFp .b64 0x04 l

/-- binary64 minimum (R165). -/
def execFp64Min (l : LaneArgs) : State → Out := laneFp .b64 0x05 l

/-- binary64 maximum (R165). -/
def execFp64Max (l : LaneArgs) : State → Out := laneFp .b64 0x06 l

/-- binary64 absolute value (R165). -/
def execFp64Abs (l : LaneArgs) : State → Out := laneFp .b64 0x07 l

/-- binary64 negation (R165). -/
def execFp64Neg (l : LaneArgs) : State → Out := laneFp .b64 0x08 l

/-- binary64 round to an integral value (R165). -/
def execFp64Rint (l : LaneArgs) : State → Out := laneFp .b64 0x0A l

/-- binary64 A × 2^b (R165). -/
def execFp64Ldexp (l : LaneArgs) : State → Out := laneFp .b64 0x0B l

/-- binary64 reciprocal (R165). -/
def execFp64Rcp (l : LaneArgs) : State → Out := laneFp .b64 0x0C l

/-- binary64 division (R165). -/
def execFp64Div (l : LaneArgs) : State → Out := laneFp .b64 0x0D l

/-- binary64 square root (R165). -/
def execFp64Sqrt (l : LaneArgs) : State → Out := laneFp .b64 0x0E l

/-- binary64 reciprocal square root (R165). -/
def execFp64Rsqrt (l : LaneArgs) : State → Out := laneFp .b64 0x0F l

/-- binary64 e^A (R165). -/
def execFp64Exp (l : LaneArgs) : State → Out := laneFp .b64 0x10 l

/-- binary64 2^A (R165). -/
def execFp64Exp2 (l : LaneArgs) : State → Out := laneFp .b64 0x11 l

/-- binary64 natural logarithm (R165). -/
def execFp64Log (l : LaneArgs) : State → Out := laneFp .b64 0x12 l

/-- binary64 base-2 logarithm (R165). -/
def execFp64Log2 (l : LaneArgs) : State → Out := laneFp .b64 0x13 l

/-- binary64 tanh (R165). -/
def execFp64Tanh (l : LaneArgs) : State → Out := laneFp .b64 0x14 l

/-- binary64 sigmoid (R165). -/
def execFp64Sigmoid (l : LaneArgs) : State → Out := laneFp .b64 0x15 l

/-- binary64 erf (R165). -/
def execFp64Erf (l : LaneArgs) : State → Out := laneFp .b64 0x16 l

/-- binary64 sine (R165). -/
def execFp64Sin (l : LaneArgs) : State → Out := laneFp .b64 0x17 l

/-- binary64 cosine (R165). -/
def execFp64Cos (l : LaneArgs) : State → Out := laneFp .b64 0x18 l

/-! ### CVT, CMP and PRED -/

/-- CVT: FUNC names the source and target types; 64-bit ones are pairs (R165, R50, R51). -/
def execLaneCvt (l : LaneArgs) : State → Out := run fun d =>
  let src := l.func.toNat / 16
  let dst := l.func.toNat % 16
  let ws := elemBits src == 64
  let wd := elemBits dst == 64
  let ill := fun i => if !(cvtType src && cvtType dst) then some 0x01
    else illRegs (l.rsvd != 0) [(l.rd.toNat, wd), (l.ra.toNat, ws)] i
  d.compute l ill fun t i _ k =>
    let lk := laneKey i.g.tile i.g.slot k
    match cvtFn src dst l.rm l.sat (if ws then t.pair lk l.ra.toNat else t.reg lk l.ra.toNat) with
    | some v => if wd then .r64 v else .r32 v
    | none => if wd then .open64 else .open32

/-- CMP: writes P[RD[2:0]] with a comparison of the type and condition that FUNC names; FUNC[7] takes IMM for RB (R164, Table 6.4). -/
def execLaneCmp (l : LaneArgs) : State → Out := run fun d =>
  let ty := l.func.toNat / 16 % 8
  let cond := l.func.toNat % 8
  let imm := l.func.getLsbD 7
  let wide := decide (3 ≤ ty)
  let ill := fun i => if l.func.getLsbD 3 ∨ 6 ≤ ty ∨ 6 ≤ cond then some 0x01
    else illRegs (!imm && l.rsvd != 0) ((l.ra.toNat, wide) :: if imm then [] else [(l.rb, wide)]) i
  d.compute l ill fun t i _ k =>
    let lk := laneKey i.g.tile i.g.slot k
    let get := fun r => if wide then t.pair lk r else t.reg lk r
    let b := if imm then codeOf (if wide then 64 else 32) l.imm else get l.rb
    match laneCond ty cond (get l.ra.toNat) b with
    | some v => .p v
    | none => .nothing

/-- SEL: V[RD] is V[RA] where P[RC[2:0]] is true, else V[RB] (Table 6.4). -/
def execLaneSel (l : LaneArgs) : State → Out := run fun d =>
  d.compute l (illRegs (l.rsvd != 0) [(l.rd.toNat, false), (l.ra.toNat, false), (l.rb, false)]) fun t i _ k =>
    let lk := laneKey i.g.tile i.g.slot k
    .r32 (if t.pred lk l.rc then t.reg lk l.ra.toNat else t.reg lk l.rb)

/-- A predicate instruction: P[RD[2:0]] from P[RA[2:0]] and P[RB[2:0]] (Table 6.4). -/
def lanePredOp (f : Bool → Bool → Bool) (l : LaneArgs) : State → Out := run fun d =>
  d.compute l (illRegs (l.rsvd != 0) []) fun t i _ k =>
    let lk := laneKey i.g.tile i.g.slot k
    .p (f (t.pred lk l.ra.toNat) (t.pred lk l.rb))

/-- Predicate AND (R164). -/
def execLanePand (l : LaneArgs) : State → Out := lanePredOp (· && ·) l

/-- Predicate OR (R164). -/
def execLanePor (l : LaneArgs) : State → Out := lanePredOp (· || ·) l

/-- Predicate XOR (R164). -/
def execLanePxor (l : LaneArgs) : State → Out := lanePredOp (· != ·) l

/-- Predicate NOT (R164). -/
def execLanePnot (l : LaneArgs) : State → Out := lanePredOp (fun a _ => !a) l

/-! ### CTRL -/

/-- Branch that may split the current path, with the path choice of R175 on a backward branch (R174). -/
def execLaneBra (l : LaneArgs) : State → Out := run fun d => d.control l fun d i lanes => d.branch l i lanes

/-- The path waits at the reconvergence point, or merges, or is released by JOIN_SPIN (R176). -/
def execLaneJoin (l : LaneArgs) : State → Out := run fun d => d.control l fun d i lanes => d.join i lanes

/-- The thread arrives at the block barrier, which completes when all threads have arrived or exited (R178). -/
def execLaneBar (l : LaneArgs) : State → Out := run fun d => d.control l fun d i lanes => d.barrier i lanes

/-- Lanes leave their group; a block ends with its last group and frees its resources, and the launch's ordered reductions combine after its last block (R177). -/
def execLaneExit (l : LaneArgs) : State → Out := run fun d => d.control l fun d i lanes => d.exitLanes i lanes

/-- Lane no-operation (R164). -/
def execLaneNop (l : LaneArgs) : State → Out := run fun d => d.control l fun d i _ => d.advance i

/-! ### LS, MEM, ATOM and REDO -/

/-- Block local-store byte load (R171). -/
def execLds8 (l : LaneArgs) : State → Out := laneLds false 1 false l

/-- Block local-store halfword load (R171). -/
def execLds16 (l : LaneArgs) : State → Out := laneLds false 2 false l

/-- Block local-store word load (R171). -/
def execLds32 (l : LaneArgs) : State → Out := laneLds false 4 false l

/-- Block local-store doubleword load (R171). -/
def execLds64 (l : LaneArgs) : State → Out := laneLds false 8 false l

/-- Sign-extended byte load from local store (R171). -/
def execLds8s (l : LaneArgs) : State → Out := laneLds false 1 true l

/-- Sign-extended halfword load from local store (R171). -/
def execLds16s (l : LaneArgs) : State → Out := laneLds false 2 true l

/-- Byte store to local store (R171). -/
def execSts8 (l : LaneArgs) : State → Out := laneSts 1 l

/-- Halfword store to local store (R171). -/
def execSts16 (l : LaneArgs) : State → Out := laneSts 2 l

/-- Word store to local store (R171). -/
def execSts32 (l : LaneArgs) : State → Out := laneSts 4 l

/-- Doubleword store to local store (R171). -/
def execSts64 (l : LaneArgs) : State → Out := laneSts 8 l

/-- Word load at an absolute local-store address (R186). -/
def execLdsa32 (l : LaneArgs) : State → Out := laneLds true 4 false l

/-- Doubleword load at an absolute local-store address (R186). -/
def execLdsa64 (l : LaneArgs) : State → Out := laneLds true 8 false l

/-- Byte memory load through L1 (R185). -/
def execLd8 (l : LaneArgs) : State → Out := laneLoad false 1 l

/-- Halfword memory load through L1 (R185). -/
def execLd16 (l : LaneArgs) : State → Out := laneLoad false 2 l

/-- Word memory load through L1 (R185). -/
def execLd32 (l : LaneArgs) : State → Out := laneLoad false 4 l

/-- Doubleword memory load through L1 (R185). -/
def execLd64 (l : LaneArgs) : State → Out := laneLoad false 8 l

/-- Byte load at the home without allocating in L1 (R184). -/
def execLdcg8 (l : LaneArgs) : State → Out := laneLoad true 1 l

/-- Halfword load at the home (R184). -/
def execLdcg16 (l : LaneArgs) : State → Out := laneLoad true 2 l

/-- Word load at the home (R184). -/
def execLdcg32 (l : LaneArgs) : State → Out := laneLoad true 4 l

/-- Doubleword load at the home (R184). -/
def execLdcg64 (l : LaneArgs) : State → Out := laneLoad true 8 l

/-- Byte memory store into L1 (R183). -/
def execSt8 (l : LaneArgs) : State → Out := laneStore 1 l

/-- Halfword memory store (R183). -/
def execSt16 (l : LaneArgs) : State → Out := laneStore 2 l

/-- Word memory store (R183). -/
def execSt32 (l : LaneArgs) : State → Out := laneStore 4 l

/-- Doubleword memory store (R183). -/
def execSt64 (l : LaneArgs) : State → Out := laneStore 8 l

/-- Word load from the constant buffer (R185). -/
def execLdc32 (l : LaneArgs) : State → Out := laneLdc 4 l

/-- Doubleword load from the constant buffer (R185). -/
def execLdc64 (l : LaneArgs) : State → Out := laneLdc 8 l

/-- Integer atomic add at the home (R187). -/
def execAtomAdd (l : LaneArgs) : State → Out := laneAtom 0 l

/-- Floating-point atomic add at the home, RNE (R187). -/
def execAtomFadd (l : LaneArgs) : State → Out := laneAtom 1 l

/-- Signed atomic minimum (R187). -/
def execAtomMin (l : LaneArgs) : State → Out := laneAtom 2 l

/-- Signed atomic maximum (R187). -/
def execAtomMax (l : LaneArgs) : State → Out := laneAtom 3 l

/-- Unsigned atomic minimum (R187). -/
def execAtomMinu (l : LaneArgs) : State → Out := laneAtom 4 l

/-- Unsigned atomic maximum (R187). -/
def execAtomMaxu (l : LaneArgs) : State → Out := laneAtom 5 l

/-- Atomic AND (R187). -/
def execAtomAnd (l : LaneArgs) : State → Out := laneAtom 6 l

/-- Atomic OR (R187). -/
def execAtomOr (l : LaneArgs) : State → Out := laneAtom 7 l

/-- Atomic XOR (R187). -/
def execAtomXor (l : LaneArgs) : State → Out := laneAtom 8 l

/-- Atomic exchange (R187). -/
def execAtomExch (l : LaneArgs) : State → Out := laneAtom 9 l

/-- Atomic compare-and-swap (R187). -/
def execAtomCas (l : LaneArgs) : State → Out := laneAtom 10 l

/-- REDO: each executing lane folds V[RB], or a pair for a 64-bit target, into its thread's contribution to target OFF[3:0] (R190, R191). -/
def execRedo (l : LaneArgs) : State → Out := run fun d =>
  match d.issue? l with
  | none => d
  | some i =>
    let first := (maskLanes i.p.mask).headD 0
    let k := l.offBits % 16
    if i.l.ninstr ≤ i.p.pc then d.laneError i .aborted 0x06 first
    else match i.l.targets[k]? with
      | none => d.laneError i .aborted 0x07 first
      | some t =>
        let wide := redWide t.ty
        match illRegs false [(l.rb, wide)] i with
        | some c => d.laneError i .aborted c first
        | none =>
          let fold := fun (x : Threads) (lane : Nat) =>
            let lk := laneKey i.g.tile i.g.slot lane
            let v := if wide then x.pair lk l.rb else x.reg lk l.rb
            let v := match sget (fun _ => none) x.red (lk * 16 + k) with
              | some w => redOp t.ty t.op w.toNat v
              | none => v
            { x with red := sput (fun _ => none) x.red (lk * 16 + k) (some (BitVec.ofNat 64 v)) }
          (d.updThr fun x => (d.runLanes i l).foldl fold x).advance i

/-! ### XLANE and SYS -/

/-- Reads a register of a named lane (R167). -/
def execLaneLread (l : LaneArgs) : State → Out := laneShuffle (fun _ v => v) l

/-- Reads a register of the lane own XOR mask (R167). -/
def execLaneLpair (l : LaneArgs) : State → Out := laneShuffle (fun own v => Nat.xor own v) l

/-- Reads a register of a rotated lane (R167). -/
def execLaneLrot (l : LaneArgs) : State → Out := laneShuffle (fun own v => (own + v) % 32) l

/-- The executing lanes with P[RA[2:0]] true. -/
def voteLanes (t : Threads) (i : Issue) (l : LaneArgs) (lanes : List Nat) : List Nat :=
  lanes.filter fun k => t.pred (laneKey i.g.tile i.g.slot k) l.ra.toNat

/-- VMASK: the mask of the executing lanes with P[RA[2:0]] true (R167). -/
def execLaneVmask (l : LaneArgs) : State → Out := run fun d =>
  d.compute l (illRegs (l.rsvd != 0) [(l.rd.toNat, false)]) fun t i lanes _ => .r32 (lanesMask (voteLanes t i l lanes)).toNat

/-- VFIRST: the lowest executing lane with P[RA[2:0]] true, or 32 (R167). -/
def execLaneVfirst (l : LaneArgs) : State → Out := run fun d =>
  d.compute l (illRegs (l.rsvd != 0) [(l.rd.toNat, false)]) fun t i lanes _ => .r32 ((voteLanes t i l lanes).headD 32)

/-- PMASK: the mask of the lanes of the issuing path (R167). -/
def execLanePmask (l : LaneArgs) : State → Out := run fun d =>
  d.compute l (illRegs (l.rsvd != 0) [(l.rd.toNat, false)]) fun _ i _ _ => .r32 i.p.mask.toNat

/-- A special register of a lane (Table 6.5). -/
def Dev.special (d : Dev) (i : Issue) (code lane : Nat) : Nat :=
  match code with
  | 0 => lane
  | 1 => i.g.gnum
  | 2 => i.g.blk
  | 3 => i.l.nblocks
  | 4 => i.l.groups
  | 5 => i.g.tile
  | 6 => i.g.slot
  | 7 => d.now % 2 ^ 32
  | _ => (sget (fun _ => 0) d.thr.latch (laneKey i.g.tile i.g.slot lane)).toNat

/-- S2R: V[RD] takes special register IMM[3:0]; code 7 latches the time's high word; codes 9 to 15 are illegal (R166). -/
def execLaneS2r (l : LaneArgs) : State → Out := run fun d =>
  let code := l.low.toNat % 16
  let ill := fun i => if 9 ≤ code then some 0x01 else illRegs false [(l.rd.toNat, false)] i
  let latch := fun (d : Dev) (i : Issue) => d.updThr fun t => { t with latch := (d.runLanes i l).foldl (fun m k =>
    sput (fun _ => 0) m (laneKey i.g.tile i.g.slot k) (BitVec.ofNat 32 (d.now / 2 ^ 32))) t.latch }
  match d.issue? l with
  | none => d
  | some i =>
    let d' := if code = 7 ∧ (ill i).isNone ∧ i.p.pc < i.l.ninstr then latch d i else d
    d'.compute l ill fun _ i _ k => .r32 (d.special i code k)

/-- FENCE: waits for the thread's earlier accesses; DEVICE and SYSTEM also write the tile's dirty lines back, answered by LANE_MEMORY_RESPONSE (R183). -/
def execLaneFence (l : LaneArgs) : State → Out := run fun d =>
  d.control l fun d i lanes =>
    let scope := l.low.toNat % 4
    if scope = 3 then d.laneError i .aborted 0x01 ((maskLanes i.p.mask).headD 0)
    else if lanes.isEmpty then d.advance i
    else if d.thr.accs.any (fun x => x.tile == i.g.tile && x.slot == i.g.slot) then d
    else if scope = 0 then d.advance i
    else (d.addAcc i l 3 scope 0 []).advance i

/-! ### Responses, expiry and illegal instructions -/

/-- The answer of a lane memory access arrives: the access completes, or ends its launch with its error (R184, R187, R192, R302). -/
def execLaneMemoryResponse (acc : Nat) (err : Option Status) (ext : BitVec 2048) : State → Out := run fun d => d.laneResponse acc err ext

/-- The lowest waiting thread of a block's barrier: its PC, slot and lane. -/
def Dev.barWaiter (d : Dev) (launch blk : Nat) : Nat × Nat × Nat :=
  let ws := (d.thr.groups.filter fun g => g.launch == launch && g.blk == blk).flatMap fun g =>
    g.paths.filterMap fun p => match p.st with | .bar m => some (g.slot * 32 + (maskLanes m).headD 0, p.pc) | _ => none
  let low := ws.foldl (fun m w => match m with
    | none => some w
    | some v => if w.1 < v.1 then some w else m) (none : Option (Nat × Nat))
  match low with
  | some (k, pc) => (pc, k / 32, k % 32)
  | none => (0, 0, 0)

/-- A block's barrier expires: the launch ends BARRIER_ORPHAN with cause 0x08 at its lowest waiting thread (R179, R193). -/
def execBarrierExpiry (tile blk : Nat) : State → Out := run fun d =>
  match d.thr.blocks.find? fun b => b.tile == tile && b.blk == blk && b.barAt.isSome with
  | none => d
  | some b =>
    let (pc, slot, lane) := d.barWaiter b.launch blk
    d.thrError b.launch .barrierOrphan 0x08 pc tile slot lane

/-- An instruction whose CLASS or FUNC is not in Table 6.4 ends its launch ABORTED with cause 0x01 (R164, R192). -/
def execLaneIllegalInstruction (l : LaneArgs) : State → Out := run fun d =>
  match d.issue? l with
  | none => d
  | some i => d.laneError i .aborted (if i.l.ninstr ≤ i.p.pc then 0x06 else 0x01) ((maskLanes i.p.mask).headD 0)

end Sys2Proof.Machine
end

