-- ==== Sys2Proof/Machine/Twin.lean ====
section
/-! DEFINITION. The twin link's commands: loss of the partner (R458, R476, R477), the records of Tables 16.3 and 16.4, and TWN_CMD (R472–R480). -/

namespace Sys2Proof.Machine

/-! ### The partner is lost -/

/-- PARTNER_SILENCE: no flit for HB_MISS (R458, R476, R477). -/
def execPartnerSilence : State → Out := run fun d => d.partnerLost 2

/-- TWIN_LINK_DOWN: an enabled link goes DOWN (R457, R476, R477). -/
def execTwinLinkDown : State → Out := run fun d =>
  if d.lnOn 9 ∧ [1, 2, 3, 4].contains (d.rd TWN_LINK_STATUS_STATE) then d.linkDown 9 5 else d

/-! ### Records of VC 0 and VC 1 (Table 16.3) -/

/-- A leeward that mirrors or is HELD takes the records of its windward. -/
def Dev.takesRecords (d : Dev) : Bool := d.rd TWN_STATUS_ROLE == 1 && (d.twState == 3 || d.twState == 4)

/-- An effect on a leeward that takes its windward's records. -/
def leeRun (f : Dev → Dev) : State → Out := run fun d => if d.takesRecords then f d else d

/-- A record joins those held; LAG shows how many are (Table 16.8). -/
def Dev.holdRecord (d : Dev) (r : TwinRec) : Dev :=
  let d := d.updTwn fun t => { t with records := t.records ++ [r] }
  d.wr TWN_STATUS_LAG d.twn.records.length

/-- DISPATCH: acknowledged, held, and dispatched in its turn (R459, R462). -/
def execTwnDispatch (gdn : Nat) (qid : Nat) (entry : BitVec 1024) : State → Out := leeRun fun d =>
  ((d.send (.twin gdn 3 0)).holdRecord (.dispatch gdn qid entry)).twinRun

/-- REFUSAL: the same outcome in its turn (R459). -/
def execTwnRefusal (qid : Nat) (entry : BitVec 1024) (status : Status) (cause : Nat) : State → Out := leeRun fun d =>
  (d.holdRecord (.refusal qid entry status cause)).twinRun

/-- WORLD_WRITE: the same bytes at the same address, while the copy is received too (R459, R480). -/
def execWorldWrite (addr : Nat) (mask : BitVec 64) (data : BitVec 512) (poisoned : Bool) : State → Out := run fun d =>
  if d.takesRecords ∨ (d.rd TWN_STATUS_ROLE = 1 ∧ d.twState = 2) then d.applyWrite (addr, mask, data, poisoned) else d

/-- A request of this module that an ANSWER record is for, if it waits: to another rank, or to the host, of the same operation, address and length (R463). -/
def Dev.answerFor (d : Dev) (isAtom : Bool) (addr : Word) (len : Nat) : Option (NfpReq ⊕ StrReq) :=
  let a := addr.toNat
  match d.nfp.reqs.find? fun r => r.kind == (if isAtom then 3 else 2) && (if isAtom then r.pkt.len == 8 + 2 * len else r.pkt.len == len) && 2 ^ 63 + r.pkt.dst * 2 ^ 48 + r.pkt.addr == a with
  | some r => some (.inl r)
  | none => (d.str.reqs.find? fun r => r.atom.isSome == isAtom && r.len == len && d.hostAddr a == some r.addr).map .inr

/-- ANSWER: the oldest request that it matches is answered; else it is kept for the operation that will ask (R459, R463). -/
def execTwnAnswer (isAtom : Bool) (addr : Word) (len : Nat) (data : List Byte) : State → Out := leeRun fun d =>
  (match d.answerFor isAtom addr len with
   | some (.inl r) => d.answeredOk r
   | some (.inr r) => { d with str := { d.str with reqs := d.str.reqs.erase r } }
   | none => d.updTwn fun t => { t with answers := t.answers ++ [(isAtom, addr, len, data)] }).twinRun

/-- What a DECISION record imposes (Table 16.3, R459): one that comes before what it is about is kept. -/
def Dev.impose (d : Dev) : TwinDecision → Dev
  | .faultResolve tag page fail =>
    match d.ctu.faults.find? fun f => f.tag == tag && f.page == page with
    | some f => d.resolveFault f fail
    | none => d.updTwn fun t => { t with resolves := t.resolves ++ [(tag, page, fail)] }
  | .deadline tag obj seg => (d.updTwn fun t => { t with lates := t.lates ++ [(tag, obj, seg)] }).tierSettle
  | .fenceSignal index value =>
    if (d.fence? index).isSome then d.signalFence index value
    else d.updTwn fun t => { t with signals := t.signals ++ [(index, value)] }
  | .copyPlacement obj seg frames =>
    ((d.updTwn fun t => { t with placements := t.placements ++ [(obj, seg, frames)] }).placeWaiting).tierSettle
  | .regWrite addr v =>
    match regOffset addr with
    | some off => if addr % 8 = 0 ∧ forwarded off then (d.regPut off v).getD d else d
    | none => d

/-- DECISION. -/
def execTwnDecision (dc : TwinDecision) : State → Out := leeRun fun d => (d.impose dc).twinRun

/-- Whether a replayed operation still lacks an answer from the world: a read or atomic that waits, or a copy whose source lies outside and has not come (R464). -/
def Dev.lacksAnswer (d : Dev) (o : FeOp) : Bool :=
  !o.ended && (d.nfp.reqs.any (fun r => r.op == some o.id && (r.kind == 2 || r.kind == 3)) || d.str.reqs.any (·.op == some o.id) ||
    (o.opcode == 3 && match d.xlate o.tag (entF o.entry 32 8) .read with
      | .pa a => (match d.gatherByte o.tag a with | .error .waits => true | _ => false)
      | _ => false))

/-- What the windward sent and the world has acknowledged needs no answer of its own on the leeward. -/
def Dev.sendsDone (d : Dev) (op : Nat) : Dev :=
  (d.nfp.reqs.filter fun r => r.op == some op && (r.kind == 1 || r.kind % 256 == 5)).foldl (fun d r => d.answeredOk r) d

/-- A COMPLETE record kept for its operation. -/
def Dev.keepComplete (d : Dev) (gdn : Nat) (st : Status) (cause : Nat) (exit : BitVec 32) : Dev :=
  d.updTwn fun t => { t with completes := t.completes ++ [(gdn, st, cause, exit)] }

/-- COMPLETE: a streamed task ends with it; a replayed operation's outcome is compared now or when it is known, and one that lacks an answer diverges (R464, R465). -/
def execTwnComplete (gdn : Nat) (status : Status) (cause : Nat) (exit : BitVec 32) : State → Out := leeRun fun d =>
  match d.twn.outcomes.find? (·.1 == gdn) with
  | some x =>
    let d := d.updTwn fun t => { t with outcomes := t.outcomes.erase x }
    if x.2 = (status, cause, exit) then d else d.diverge 5
  | none =>
    match (getKey d.twn.dispatched gdn).bind d.op? with
    | none => d.keepComplete gdn status cause exit
    | some o =>
      if o.streamed then ((d.keepComplete gdn status cause exit).streamEnd gdn).twinRun
      else
        let d := d.sendsDone o.id
        if (d.op? o.id).any d.lacksAnswer then d.diverge 6 else d.keepComplete gdn status cause exit

/-- The lines that the twin stage holds: 1 GiB of them (R467). -/
def stageLines : Nat := 2 ^ 24

/-- When the stage is full, the oldest staged stream is applied early (R467). -/
def Dev.stageRoom (d : Dev) : Dev :=
  if (d.twn.stage.map (·.writes.length)).sum < stageLines then d
  else match d.twn.stage.find? fun s => !s.writes.isEmpty with
    | none => d
    | some s =>
      (s.writes.foldl (fun d w => d.applyWrite w) d).updTwn fun t =>
        { t with stage := updWhere (·.gdn == s.gdn) (fun s => { s with writes := [], early := true }) t.stage }

/-- A write or the end marker joins the stream of its task. -/
def Staged.add (s : Staged) (w : Nat × BitVec 64 × BitVec 512 × Bool) (last : Bool) : Staged :=
  { s with writes := if w.2.1 = 0 then s.writes else s.writes ++ [w], ended := s.ended || last }

/-- STREAM: a streamed task's writes are staged; its end marker applies them at once, and COMMIT is sent (R466, R467). -/
def execTwnStream (gdn : Nat) (addr : Nat) (mask : BitVec 64) (data : BitVec 512) (poisoned : Bool) (last : Bool) : State → Out := leeRun fun d =>
  let d := d.stageRoom
  let w := (addr, mask, data, poisoned)
  let d := d.updTwn fun t =>
    { t with stage := if t.stage.any (·.gdn == gdn) then updWhere (·.gdn == gdn) (fun s => s.add w last) t.stage
                      else t.stage ++ [(⟨gdn, [], false, false⟩ : Staged).add w last] }
  if last then (d.commitStream gdn).twinRun else d

/-! ### Control records (Table 16.4) -/

/-- A windward that mirrors or is HELD takes the control records of its leeward. -/
def windRun (f : Dev → Dev) : State → Out := run fun d =>
  if d.rd TWN_STATUS_ROLE = 0 ∧ (d.twState = 3 ∨ d.twState = 4) then f d else d

/-- An operation's completion is no longer held back for its partner. -/
def Dev.ackOp (d : Dev) (gdn : Nat) (streamed : Bool) : Dev :=
  { d with fe := { d.fe with ops := updWhere (fun o => o.gdn == gdn && o.streamed == streamed) (fun o => { o with acked := true }) d.fe.ops } }

/-- ACK: the DISPATCH record of an operation has been received (R462). -/
def execTwnAck (gdn : Nat) : State → Out := windRun fun d =>
  (d.ackOp gdn false).wr TWN_STATUS_LAG (d.rd TWN_STATUS_LAG - 1)

/-- COMMIT: a streamed task's stream has been applied (R467). -/
def execTwnCommit (gdn : Nat) : State → Out := windRun fun d => d.ackOp gdn true

/-- DIGEST: the windward's digest of a tally (R471). -/
def execTwnDigest (tseq : Nat) (dig : BitVec 256) : State → Out := leeRun fun d =>
  (d.updTwn fun t => { t with theirDig := some (tseq, dig) }).twinCompare

/-- AGREE: the digests are equal, and the held launch may complete (R471). -/
def execTwnAgree (tseq : Nat) : State → Out := windRun fun d =>
  if d.twn.tseq ≠ tseq then d
  else (d.wr TWN_TALLY_LAST_AGREED tseq).updTwn fun t => { t with heldTally := none }

/-- DISAGREE: a tally mismatch keeps the partner's digest; without a held tally it stands for a divergence that the leeward found (R464, R472). -/
def execTwnDisagree (tseq : Nat) (dig : BitVec 256) : State → Out := windRun fun d =>
  if d.twn.heldTally.isSome ∧ d.twn.tseq = tseq then (d.putDigest TWN_PDIGEST_BYTES dig).twinHold 4 else d.twinHold 5

/-- POSTED: the windward has written a completion to its ring (R474). -/
def execTwnPosted (gdn : Nat) : State → Out := leeRun fun d =>
  match d.twn.unposted.find? (·.1 == gdn) with
  | some x => d.updTwn fun t => { t with unposted := t.unposted.erase x }
  | none => d

/-- FAILING: a leeward that mirrors or is HELD takes over; before MIRRORING it ends pairing (R474, R477). -/
def execTwnFailing : State → Out := run fun d =>
  let lee := d.rd TWN_STATUS_ROLE == 1
  match d.twState with
  | 1 => d.pairEnd .aborted 0 1
  | 2 => d.pairEnd .aborted (if lee then 8 else 0) 1
  | 3 | 4 => if lee then d.takeover 1 else d
  | _ => d

/-! ### TWN_CMD (R472, R474, R476–R480) -/

/-- A write of TWN_CMD with GO. -/
def twnCmd (op : Nat) : State → Out := regCmd TWN_CMD_GO.reg (twnWord op) fun d => d.twnOp op

/-- PAIR. -/
def execTwnPair : State → Out := twnCmd 1

/-- VERDICT_WINDWARD. -/
def execVerdictWindward : State → Out := twnCmd 2

/-- VERDICT_LEEWARD. -/
def execVerdictLeeward : State → Out := twnCmd 3

/-- SOLO. -/
def execTwnSolo : State → Out := twnCmd 4

/-- TAKEOVER. -/
def execTwnTakeover : State → Out := twnCmd 5

/-- FENCE. -/
def execTwnFence : State → Out := twnCmd 6

/-- VERDICT_TIMEOUT: without a verdict the windward goes on alone and the held launch completes TALLY_MISMATCH; the leeward is ORPHAN (Table 16.6). -/
def execVerdictTimeout : State → Out := run fun d =>
  if d.twState ≠ 4 ∨ d.rd TWN_CTRL_VERDICT_MS = 0 then d
  else
    let cause := d.rd TWN_STATUS_CAUSE
    if d.leeRole then (d.setTwin 6 cause).twinRun
    else (d.solo cause).updTwn fun t => { t with failTally := d.twn.heldTally }

/-- SEEDING_COPY_COMPLETE: the windward dispatches no more and mirrors once nothing is in flight; the leeward holds the windward's state and mirrors (R480). -/
def execSeedingCopyComplete : State → Out := run fun d =>
  if d.twState ≠ 2 then d
  else if d.leeRole then d.mirror
  else (d.updTwn fun t => { t with seedStop := true }).seedStep

end Sys2Proof.Machine
end

