-- ==== Sys2Proof/Machine/Dispatch.lean ====
section
/-! DEFINITION. The meaning of each command: one direct call per constructor. -/

namespace Sys2Proof.Machine

def exec (i : Instr) (s : State) : Host.Outcome State Fault Refusal :=
  match i with
  | .registerWrite addr v => Sys2Proof.Machine.execRegisterWrite addr v s
  | .misalignedRegisterAccess isWrite addr width => Sys2Proof.Machine.execMisalignedRegisterAccess isWrite addr width s
  | .dropCountRead same => Sys2Proof.Machine.execDropCountRead same s
  | .ecallEnq core => Sys2Proof.Machine.execEcallEnq core s
  | .ecallFsig core => Sys2Proof.Machine.execEcallFsig core s
  | .ecallExit core => Sys2Proof.Machine.execEcallExit core s
  | .ecallOther core => Sys2Proof.Machine.execEcallOther core s
  | .coreTaskReturn core => Sys2Proof.Machine.execCoreTaskReturn core s
  | .coreException core cause tval => Sys2Proof.Machine.execCoreException core cause tval s
  | .cboClean core va => Sys2Proof.Machine.execCboClean core va s
  | .cboFlush core va => Sys2Proof.Machine.execCboFlush core va s
  | .cboInval core va => Sys2Proof.Machine.execCboInval core va s
  | .cboZero core va => Sys2Proof.Machine.execCboZero core va s
  | .splitChange op => Sys2Proof.Machine.execSplitChange op s
  | .l1InvalidateAllComplete tile => Sys2Proof.Machine.execL1InvalidateAllComplete tile s
  | .reefSramLimitWrite v => Sys2Proof.Machine.execReefSramLimitWrite v s
  | .tileSelfTestEnd die q unit => Sys2Proof.Machine.execTileSelfTestEnd die q unit s
  | .firmwareRotation dies => Sys2Proof.Machine.execFirmwareRotation dies s
  | .spareRetestDue die q => Sys2Proof.Machine.execSpareRetestDue die q s
  | .sliceExpiry => Sys2Proof.Machine.execSliceExpiry s
  | .yieldWaitExpiry => Sys2Proof.Machine.execYieldWaitExpiry s
  | .reefSaveComplete cycles => Sys2Proof.Machine.execReefSaveComplete cycles s
  | .reefRestoreComplete => Sys2Proof.Machine.execReefRestoreComplete s
  | .imageLoadComplete poisoned => Sys2Proof.Machine.execImageLoadComplete poisoned s
  | .resyncComplete dig => Sys2Proof.Machine.execResyncComplete dig s
  | .seqNop a => Sys2Proof.Machine.execSeqNop a s
  | .seqAdd a => Sys2Proof.Machine.execSeqAdd a s
  | .seqSub a => Sys2Proof.Machine.execSeqSub a s
  | .seqAnd a => Sys2Proof.Machine.execSeqAnd a s
  | .seqOr a => Sys2Proof.Machine.execSeqOr a s
  | .seqXor a => Sys2Proof.Machine.execSeqXor a s
  | .seqShl a => Sys2Proof.Machine.execSeqShl a s
  | .seqShr a => Sys2Proof.Machine.execSeqShr a s
  | .seqSar a => Sys2Proof.Machine.execSeqSar a s
  | .seqMul a => Sys2Proof.Machine.execSeqMul a s
  | .seqMin a => Sys2Proof.Machine.execSeqMin a s
  | .seqMax a => Sys2Proof.Machine.execSeqMax a s
  | .seqMinu a => Sys2Proof.Machine.execSeqMinu a s
  | .seqMaxu a => Sys2Proof.Machine.execSeqMaxu a s
  | .seqAddi a => Sys2Proof.Machine.execSeqAddi a s
  | .seqSubi a => Sys2Proof.Machine.execSeqSubi a s
  | .seqAndi a => Sys2Proof.Machine.execSeqAndi a s
  | .seqOri a => Sys2Proof.Machine.execSeqOri a s
  | .seqXori a => Sys2Proof.Machine.execSeqXori a s
  | .seqShli a => Sys2Proof.Machine.execSeqShli a s
  | .seqShri a => Sys2Proof.Machine.execSeqShri a s
  | .seqSari a => Sys2Proof.Machine.execSeqSari a s
  | .seqMuli a => Sys2Proof.Machine.execSeqMuli a s
  | .seqMini a => Sys2Proof.Machine.execSeqMini a s
  | .seqMaxi a => Sys2Proof.Machine.execSeqMaxi a s
  | .seqMinui a => Sys2Proof.Machine.execSeqMinui a s
  | .seqMaxui a => Sys2Proof.Machine.execSeqMaxui a s
  | .seqLih a => Sys2Proof.Machine.execSeqLih a s
  | .seqCmp a => Sys2Proof.Machine.execSeqCmp a s
  | .seqCmpi a => Sys2Proof.Machine.execSeqCmpi a s
  | .seqLdc a => Sys2Proof.Machine.execSeqLdc a s
  | .seqLdd a => Sys2Proof.Machine.execSeqLdd a s
  | .seqOrdl a => Sys2Proof.Machine.execSeqOrdl a s
  | .seqDbase a => Sys2Proof.Machine.execSeqDbase a s
  | .seqDscale a => Sys2Proof.Machine.execSeqDscale a s
  | .seqMovh a => Sys2Proof.Machine.execSeqMovh a s
  | .seqHcmp a => Sys2Proof.Machine.execSeqHcmp a s
  | .seqHclr a => Sys2Proof.Machine.execSeqHclr a s
  | .seqBr a => Sys2Proof.Machine.execSeqBr a s
  | .seqLoop a => Sys2Proof.Machine.execSeqLoop a s
  | .seqEnd a => Sys2Proof.Machine.execSeqEnd a s
  | .aop a dig => Sys2Proof.Machine.execAop a dig s
  | .matrixPartStart op => Sys2Proof.Machine.execMatrixPartStart op s
  | .flowPartStart op => Sys2Proof.Machine.execFlowPartStart op s
  | .flowPartEnd op => Sys2Proof.Machine.execFlowPartEnd op s
  | .arrayOpDone op => Sys2Proof.Machine.execArrayOpDone op s
  | .seqWaita a => Sys2Proof.Machine.execSeqWaita a s
  | .seqLdt a => Sys2Proof.Machine.execSeqLdt a s
  | .seqStt a => Sys2Proof.Machine.execSeqStt a s
  | .seqXlt a => Sys2Proof.Machine.execSeqXlt a s
  | .moveComplete tok err => Sys2Proof.Machine.execMoveComplete tok err s
  | .seqWaitm a => Sys2Proof.Machine.execSeqWaitm a s
  | .seqEnq a => Sys2Proof.Machine.execSeqEnq a s
  | .seqFsig a => Sys2Proof.Machine.execSeqFsig a s
  | .seqRotp a => Sys2Proof.Machine.execSeqRotp a s
  | .seqYldp a => Sys2Proof.Machine.execSeqYldp a s
  | .seqTally a => Sys2Proof.Machine.execSeqTally a s
  | .blockPlacement die => Sys2Proof.Machine.execBlockPlacement die s
  | .intAdd l => Sys2Proof.Machine.execIntAdd l s
  | .intSub l => Sys2Proof.Machine.execIntSub l s
  | .intMul l => Sys2Proof.Machine.execIntMul l s
  | .intMulhi l => Sys2Proof.Machine.execIntMulhi l s
  | .intMulhiu l => Sys2Proof.Machine.execIntMulhiu l s
  | .intAnd l => Sys2Proof.Machine.execIntAnd l s
  | .intOr l => Sys2Proof.Machine.execIntOr l s
  | .intXor l => Sys2Proof.Machine.execIntXor l s
  | .intShl l => Sys2Proof.Machine.execIntShl l s
  | .intShr l => Sys2Proof.Machine.execIntShr l s
  | .intSar l => Sys2Proof.Machine.execIntSar l s
  | .intMin l => Sys2Proof.Machine.execIntMin l s
  | .intMax l => Sys2Proof.Machine.execIntMax l s
  | .intMinu l => Sys2Proof.Machine.execIntMinu l s
  | .intMaxu l => Sys2Proof.Machine.execIntMaxu l s
  | .intPopc l => Sys2Proof.Machine.execIntPopc l s
  | .intClz l => Sys2Proof.Machine.execIntClz l s
  | .intMad l => Sys2Proof.Machine.execIntMad l s
  | .intMov l => Sys2Proof.Machine.execIntMov l s
  | .fp32Add l => Sys2Proof.Machine.execFp32Add l s
  | .fp32Sub l => Sys2Proof.Machine.execFp32Sub l s
  | .fp32Mul l => Sys2Proof.Machine.execFp32Mul l s
  | .fp32Fma l => Sys2Proof.Machine.execFp32Fma l s
  | .fp32Min l => Sys2Proof.Machine.execFp32Min l s
  | .fp32Max l => Sys2Proof.Machine.execFp32Max l s
  | .fp32Abs l => Sys2Proof.Machine.execFp32Abs l s
  | .fp32Neg l => Sys2Proof.Machine.execFp32Neg l s
  | .fp32Rint l => Sys2Proof.Machine.execFp32Rint l s
  | .fp32Ldexp l => Sys2Proof.Machine.execFp32Ldexp l s
  | .fp32Rcp l => Sys2Proof.Machine.execFp32Rcp l s
  | .fp32Div l => Sys2Proof.Machine.execFp32Div l s
  | .fp32Sqrt l => Sys2Proof.Machine.execFp32Sqrt l s
  | .fp32Rsqrt l => Sys2Proof.Machine.execFp32Rsqrt l s
  | .fp32Exp l => Sys2Proof.Machine.execFp32Exp l s
  | .fp32Exp2 l => Sys2Proof.Machine.execFp32Exp2 l s
  | .fp32Log l => Sys2Proof.Machine.execFp32Log l s
  | .fp32Log2 l => Sys2Proof.Machine.execFp32Log2 l s
  | .fp32Tanh l => Sys2Proof.Machine.execFp32Tanh l s
  | .fp32Sigmoid l => Sys2Proof.Machine.execFp32Sigmoid l s
  | .fp32Erf l => Sys2Proof.Machine.execFp32Erf l s
  | .fp32Sin l => Sys2Proof.Machine.execFp32Sin l s
  | .fp32Cos l => Sys2Proof.Machine.execFp32Cos l s
  | .fp64Add l => Sys2Proof.Machine.execFp64Add l s
  | .fp64Sub l => Sys2Proof.Machine.execFp64Sub l s
  | .fp64Mul l => Sys2Proof.Machine.execFp64Mul l s
  | .fp64Fma l => Sys2Proof.Machine.execFp64Fma l s
  | .fp64Min l => Sys2Proof.Machine.execFp64Min l s
  | .fp64Max l => Sys2Proof.Machine.execFp64Max l s
  | .fp64Abs l => Sys2Proof.Machine.execFp64Abs l s
  | .fp64Neg l => Sys2Proof.Machine.execFp64Neg l s
  | .fp64Rint l => Sys2Proof.Machine.execFp64Rint l s
  | .fp64Ldexp l => Sys2Proof.Machine.execFp64Ldexp l s
  | .fp64Rcp l => Sys2Proof.Machine.execFp64Rcp l s
  | .fp64Div l => Sys2Proof.Machine.execFp64Div l s
  | .fp64Sqrt l => Sys2Proof.Machine.execFp64Sqrt l s
  | .fp64Rsqrt l => Sys2Proof.Machine.execFp64Rsqrt l s
  | .fp64Exp l => Sys2Proof.Machine.execFp64Exp l s
  | .fp64Exp2 l => Sys2Proof.Machine.execFp64Exp2 l s
  | .fp64Log l => Sys2Proof.Machine.execFp64Log l s
  | .fp64Log2 l => Sys2Proof.Machine.execFp64Log2 l s
  | .fp64Tanh l => Sys2Proof.Machine.execFp64Tanh l s
  | .fp64Sigmoid l => Sys2Proof.Machine.execFp64Sigmoid l s
  | .fp64Erf l => Sys2Proof.Machine.execFp64Erf l s
  | .fp64Sin l => Sys2Proof.Machine.execFp64Sin l s
  | .fp64Cos l => Sys2Proof.Machine.execFp64Cos l s
  | .laneCvt l => Sys2Proof.Machine.execLaneCvt l s
  | .laneCmp l => Sys2Proof.Machine.execLaneCmp l s
  | .laneSel l => Sys2Proof.Machine.execLaneSel l s
  | .lanePand l => Sys2Proof.Machine.execLanePand l s
  | .lanePor l => Sys2Proof.Machine.execLanePor l s
  | .lanePxor l => Sys2Proof.Machine.execLanePxor l s
  | .lanePnot l => Sys2Proof.Machine.execLanePnot l s
  | .laneBra l => Sys2Proof.Machine.execLaneBra l s
  | .laneJoin l => Sys2Proof.Machine.execLaneJoin l s
  | .laneBar l => Sys2Proof.Machine.execLaneBar l s
  | .laneExit l => Sys2Proof.Machine.execLaneExit l s
  | .laneNop l => Sys2Proof.Machine.execLaneNop l s
  | .lds8 l => Sys2Proof.Machine.execLds8 l s
  | .lds16 l => Sys2Proof.Machine.execLds16 l s
  | .lds32 l => Sys2Proof.Machine.execLds32 l s
  | .lds64 l => Sys2Proof.Machine.execLds64 l s
  | .lds8s l => Sys2Proof.Machine.execLds8s l s
  | .lds16s l => Sys2Proof.Machine.execLds16s l s
  | .sts8 l => Sys2Proof.Machine.execSts8 l s
  | .sts16 l => Sys2Proof.Machine.execSts16 l s
  | .sts32 l => Sys2Proof.Machine.execSts32 l s
  | .sts64 l => Sys2Proof.Machine.execSts64 l s
  | .ldsa32 l => Sys2Proof.Machine.execLdsa32 l s
  | .ldsa64 l => Sys2Proof.Machine.execLdsa64 l s
  | .ld8 l => Sys2Proof.Machine.execLd8 l s
  | .ld16 l => Sys2Proof.Machine.execLd16 l s
  | .ld32 l => Sys2Proof.Machine.execLd32 l s
  | .ld64 l => Sys2Proof.Machine.execLd64 l s
  | .ldcg8 l => Sys2Proof.Machine.execLdcg8 l s
  | .ldcg16 l => Sys2Proof.Machine.execLdcg16 l s
  | .ldcg32 l => Sys2Proof.Machine.execLdcg32 l s
  | .ldcg64 l => Sys2Proof.Machine.execLdcg64 l s
  | .st8 l => Sys2Proof.Machine.execSt8 l s
  | .st16 l => Sys2Proof.Machine.execSt16 l s
  | .st32 l => Sys2Proof.Machine.execSt32 l s
  | .st64 l => Sys2Proof.Machine.execSt64 l s
  | .ldc32 l => Sys2Proof.Machine.execLdc32 l s
  | .ldc64 l => Sys2Proof.Machine.execLdc64 l s
  | .atomAdd l => Sys2Proof.Machine.execAtomAdd l s
  | .atomFadd l => Sys2Proof.Machine.execAtomFadd l s
  | .atomMin l => Sys2Proof.Machine.execAtomMin l s
  | .atomMax l => Sys2Proof.Machine.execAtomMax l s
  | .atomMinu l => Sys2Proof.Machine.execAtomMinu l s
  | .atomMaxu l => Sys2Proof.Machine.execAtomMaxu l s
  | .atomAnd l => Sys2Proof.Machine.execAtomAnd l s
  | .atomOr l => Sys2Proof.Machine.execAtomOr l s
  | .atomXor l => Sys2Proof.Machine.execAtomXor l s
  | .atomExch l => Sys2Proof.Machine.execAtomExch l s
  | .atomCas l => Sys2Proof.Machine.execAtomCas l s
  | .redo l => Sys2Proof.Machine.execRedo l s
  | .laneLread l => Sys2Proof.Machine.execLaneLread l s
  | .laneLpair l => Sys2Proof.Machine.execLaneLpair l s
  | .laneLrot l => Sys2Proof.Machine.execLaneLrot l s
  | .laneVmask l => Sys2Proof.Machine.execLaneVmask l s
  | .laneVfirst l => Sys2Proof.Machine.execLaneVfirst l s
  | .lanePmask l => Sys2Proof.Machine.execLanePmask l s
  | .laneS2r l => Sys2Proof.Machine.execLaneS2r l s
  | .laneFence l => Sys2Proof.Machine.execLaneFence l s
  | .laneMemoryResponse acc err ext => Sys2Proof.Machine.execLaneMemoryResponse acc err ext s
  | .barrierExpiry tile blk => Sys2Proof.Machine.execBarrierExpiry tile blk s
  | .nfpDomCtrlWrite v => Sys2Proof.Machine.execNfpDomCtrlWrite v s
  | .ptpMessage port isSync offsetNs => Sys2Proof.Machine.execPtpMessage port isSync offsetNs s
  | .fineSyncExchange resp => Sys2Proof.Machine.execFineSyncExchange resp s
  | .domainStart => Sys2Proof.Machine.execDomainStart s
  | .tickBoundary => Sys2Proof.Machine.execTickBoundary s
  | .domainWord rank div => Sys2Proof.Machine.execDomainWord rank div s
  | .announcement div tick start => Sys2Proof.Machine.execAnnouncement div tick start s
  | .schedLoad => Sys2Proof.Machine.execSchedLoad s
  | .scheduledSlot port entry lateData => Sys2Proof.Machine.execScheduledSlot port entry lateData s
  | .openSlot port => Sys2Proof.Machine.execOpenSlot port s
  | .domainLaunchStart => Sys2Proof.Machine.execDomainLaunchStart s
  | .hbmRead addr symbols => Sys2Proof.Machine.execHbmRead addr symbols s
  | .hbmWrite addr data poisoned => Sys2Proof.Machine.execHbmWrite addr data poisoned s
  | .perBankRefresh pc latWaits idle => Sys2Proof.Machine.execPerBankRefresh pc latWaits idle s
  | .refreshManagementRequest pc bank => Sys2Proof.Machine.execRefreshManagementRequest pc bank s
  | .channelRetrain chan ok => Sys2Proof.Machine.execChannelRetrain chan ok s
  | .stackTemperatureRead stack tenths => Sys2Proof.Machine.execStackTemperatureRead stack tenths s
  | .saturationWindowEnd pc fullCycles => Sys2Proof.Machine.execSaturationWindowEnd pc fullCycles s
  | .scrub addr symbols => Sys2Proof.Machine.execScrub addr symbols s
  | .parityError chan retrainOk => Sys2Proof.Machine.execParityError chan retrainOk s
  | .takeOut pc => Sys2Proof.Machine.execTakeOut pc s
  | .memReturn pc => Sys2Proof.Machine.execMemReturn pc s
  | .margin pc kind => Sys2Proof.Machine.execMargin pc kind s
  | .retire pc => Sys2Proof.Machine.execRetire pc s
  | .sweep stack all => Sys2Proof.Machine.execSweep stack all s
  | .takeOutCopyComplete pc => Sys2Proof.Machine.execTakeOutCopyComplete pc s
  | .returnCopyComplete pc => Sys2Proof.Machine.execReturnCopyComplete pc s
  | .marginRunComplete left right => Sys2Proof.Machine.execMarginRunComplete left right s
  | .publishOpen op => Sys2Proof.Machine.execPublishOpen op s
  | .publishWrite op => Sys2Proof.Machine.execPublishWrite op s
  | .publishProgramComplete op => Sys2Proof.Machine.execPublishProgramComplete op s
  | .publishSeal op => Sys2Proof.Machine.execPublishSeal op s
  | .shelfDelete op => Sys2Proof.Machine.execShelfDelete op s
  | .promote op => Sys2Proof.Machine.execPromote op s
  | .evict op => Sys2Proof.Machine.execEvict op s
  | .bindRecv op => Sys2Proof.Machine.execBindRecv op s
  | .unbind op => Sys2Proof.Machine.execUnbind op s
  | .shelfStripeRead cp stripe bad => Sys2Proof.Machine.execShelfStripeRead cp stripe bad s
  | .promotionDeadline wt => Sys2Proof.Machine.execPromotionDeadline wt s
  | .refetchDeadline cp => Sys2Proof.Machine.execRefetchDeadline cp s
  | .rdShared cache line => Sys2Proof.Machine.execRdShared cache line s
  | .rdOwn cache line => Sys2Proof.Machine.execRdOwn cache line s
  | .upgrade cache line => Sys2Proof.Machine.execUpgrade cache line s
  | .rdOnce agent line => Sys2Proof.Machine.execRdOnce agent line s
  | .wr agent line mask data poisoned hint => Sys2Proof.Machine.execWr agent line mask data poisoned hint s
  | .atom agent line lanes => Sys2Proof.Machine.execAtom agent line lanes s
  | .clean cache line => Sys2Proof.Machine.execClean cache line s
  | .flush cache line => Sys2Proof.Machine.execFlush cache line s
  | .cohMove cache line => Sys2Proof.Machine.execCohMove cache line s
  | .evictLine cache line => Sys2Proof.Machine.execEvictLine cache line s
  | .snpShare cache line => Sys2Proof.Machine.execSnpShare cache line s
  | .snpClean cache line => Sys2Proof.Machine.execSnpClean cache line s
  | .snpInv cache line => Sys2Proof.Machine.execSnpInv cache line s
  | .snpAns cache line => Sys2Proof.Machine.execSnpAns cache line s
  | .snoopTimeout cache line => Sys2Proof.Machine.execSnoopTimeout cache line s
  | .offline agent => Sys2Proof.Machine.execOffline agent s
  | .online agent => Sys2Proof.Machine.execOnline agent s
  | .dead agent => Sys2Proof.Machine.execDead agent s
  | .clusterCleaningComplete agent => Sys2Proof.Machine.execClusterCleaningComplete agent s
  | .wayTargetWrite c v => Sys2Proof.Machine.execWayTargetWrite c v s
  | .wayCleaningComplete c => Sys2Proof.Machine.execWayCleaningComplete c s
  | .cacheDataError cache line dbl => Sys2Proof.Machine.execCacheDataError cache line dbl s
  | .cacheTagParityError kind cache line home => Sys2Proof.Machine.execCacheTagParityError kind cache line home s
  | .dumpHandlerFailure => Sys2Proof.Machine.execDumpHandlerFailure s
  | .translationQuery port tag va acc lines => Sys2Proof.Machine.execTranslationQuery port tag va acc lines s
  | .walkReadComplete walk => Sys2Proof.Machine.execWalkReadComplete walk s
  | .faultRetry req => Sys2Proof.Machine.execFaultRetry req s
  | .ctuRetry id => Sys2Proof.Machine.execCtuRetry id s
  | .ctuFail id => Sys2Proof.Machine.execCtuFail id s
  | .faultTimeout id => Sys2Proof.Machine.execFaultTimeout id s
  | .invRange tag va size count => Sys2Proof.Machine.execInvRange tag va size count s
  | .invTag tag => Sys2Proof.Machine.execInvTag tag s
  | .invalidationComplete inv => Sys2Proof.Machine.execInvalidationComplete inv s
  | .counterHalving => Sys2Proof.Machine.execCounterHalving s
  | .faultRingEnable v => Sys2Proof.Machine.execFaultRingEnable v s
  | .ctuSwitchover die => Sys2Proof.Machine.execCtuSwitchover die s
  | .standbyCtuFailure => Sys2Proof.Machine.execStandbyCtuFailure s
  | .sqTail qid v => Sys2Proof.Machine.execSqTail qid v s
  | .cqHead qid v => Sys2Proof.Machine.execCqHead qid v s
  | .entryRead qid ext => Sys2Proof.Machine.execEntryRead qid ext s
  | .entryReRead qid ext => Sys2Proof.Machine.execEntryReRead qid ext s
  | .entryDispatch qid cb => Sys2Proof.Machine.execEntryDispatch qid cb s
  | .nopEntry op => Sys2Proof.Machine.execNopEntry op s
  | .launchArray op => Sys2Proof.Machine.execLaunchArray op s
  | .launchThreads op => Sys2Proof.Machine.execLaunchThreads op s
  | .copy op => Sys2Proof.Machine.execCopy op s
  | .collective op => Sys2Proof.Machine.execCollective op s
  | .coreTask op pick => Sys2Proof.Machine.execCoreTask op pick s
  | .feWait op => Sys2Proof.Machine.execFeWait op s
  | .feSignal op => Sys2Proof.Machine.execFeSignal op s
  | .feAlloc op base frames => Sys2Proof.Machine.execFeAlloc op base frames s
  | .feFree op => Sys2Proof.Machine.execFeFree op s
  | .feInvalidate op => Sys2Proof.Machine.execFeInvalidate op s
  | .graphLaunch op => Sys2Proof.Machine.execGraphLaunch op s
  | .createContext op rootPa => Sys2Proof.Machine.execCreateContext op rootPa s
  | .destroyContext op => Sys2Proof.Machine.execDestroyContext op s
  | .createQueue op fcore => Sys2Proof.Machine.execCreateQueue op fcore s
  | .resetQueue op => Sys2Proof.Machine.execResetQueue op s
  | .resumeQueue op => Sys2Proof.Machine.execResumeQueue op s
  | .destroyQueue op => Sys2Proof.Machine.execDestroyQueue op s
  | .createFence op => Sys2Proof.Machine.execCreateFence op s
  | .destroyFence op => Sys2Proof.Machine.execDestroyFence op s
  | .graphCreate op nodes edges => Sys2Proof.Machine.execGraphCreate op nodes edges s
  | .graphPatch op node => Sys2Proof.Machine.execGraphPatch op node s
  | .graphDestroy op => Sys2Proof.Machine.execGraphDestroy op s
  | .allocPhys op frame => Sys2Proof.Machine.execAllocPhys op frame s
  | .freePhys op => Sys2Proof.Machine.execFreePhys op s
  | .operationComplete op => Sys2Proof.Machine.execOperationComplete op s
  | .fenceTimeout qid => Sys2Proof.Machine.execFenceTimeout qid s
  | .coreTaskTimeout core => Sys2Proof.Machine.execCoreTaskTimeout core s
  | .functionDisable f => Sys2Proof.Machine.execFunctionDisable f s
  | .functionEnable f => Sys2Proof.Machine.execFunctionEnable f s
  | .functionDrainTimeout f => Sys2Proof.Machine.execFunctionDrainTimeout f s
  | .feFenceSignal index => Sys2Proof.Machine.execFeFenceSignal index s
  | .clrError index => Sys2Proof.Machine.execClrError index s
  | .adminRingEnable isCq v => Sys2Proof.Machine.execAdminRingEnable isCq v s
  | .interruptHoldoffExpiry vec => Sys2Proof.Machine.execInterruptHoldoffExpiry vec s
  | .portEnable port => Sys2Proof.Machine.execPortEnable port s
  | .linkStepTimeout link => Sys2Proof.Machine.execLinkStepTimeout link s
  | .linkRestart link => Sys2Proof.Machine.execLinkRestart link s
  | .laneFailure link lane => Sys2Proof.Machine.execLaneFailure link lane s
  | .laneRepair link => Sys2Proof.Machine.execLaneRepair link s
  | .dataFlit link hdr crcOk => Sys2Proof.Machine.execDataFlit link hdr crcOk s
  | .linkNak link seq => Sys2Proof.Machine.execLinkNak link seq s
  | .nfpWr port p => Sys2Proof.Machine.execNfpWr port p s
  | .nfpRd port p => Sys2Proof.Machine.execNfpRd port p s
  | .nfpAtom port p => Sys2Proof.Machine.execNfpAtom port p s
  | .fetch port p => Sys2Proof.Machine.execFetch port p s
  | .coll port p => Sys2Proof.Machine.execColl port p s
  | .mgmt port p => Sys2Proof.Machine.execMgmt port p s
  | .nfpAck p => Sys2Proof.Machine.execNfpAck p s
  | .rdata p => Sys2Proof.Machine.execRdata p s
  | .atomr p => Sys2Proof.Machine.execAtomr p s
  | .nack p => Sys2Proof.Machine.execNack p s
  | .requestTimeout tag => Sys2Proof.Machine.execRequestTimeout tag s
  | .jobEnd j => Sys2Proof.Machine.execJobEnd j s
  | .exportWindowOpen n v => Sys2Proof.Machine.execExportWindowOpen n v s
  | .exportWindowClose n => Sys2Proof.Machine.execExportWindowClose n s
  | .collectiveTimeout op => Sys2Proof.Machine.execCollectiveTimeout op s
  | .ethernetFrame port dst etype vlans p => Sys2Proof.Machine.execEthernetFrame port dst etype vlans p s
  | .straitWr addr data pmask => Sys2Proof.Machine.execStraitWr addr data pmask s
  | .straitRd tag addr len => Sys2Proof.Machine.execStraitRd tag addr len s
  | .straitAtom tag addr aop a b => Sys2Proof.Machine.execStraitAtom tag addr aop a b s
  | .cpl tag status data pmask => Sys2Proof.Machine.execCpl tag status data pmask s
  | .straitRequestTimeout tag => Sys2Proof.Machine.execStraitRequestTimeout tag s
  | .straitLinkDown => Sys2Proof.Machine.execStraitLinkDown s
  | .dmaTailWrite ch tail => Sys2Proof.Machine.execDmaTailWrite ch tail s
  | .dmaDescriptorComplete ch ext err => Sys2Proof.Machine.execDmaDescriptorComplete ch ext err s
  | .dmaChannelEnable ch en => Sys2Proof.Machine.execDmaChannelEnable ch en s
  | .moduleTakeOut link m => Sys2Proof.Machine.execModuleTakeOut link m s
  | .narrowsFlit link hdr crcOk ptype => Sys2Proof.Machine.execNarrowsFlit link hdr crcOk ptype s
  | .narrowsNak link seq failed => Sys2Proof.Machine.execNarrowsNak link seq failed s
  | .moduleIdle link m => Sys2Proof.Machine.execModuleIdle link m s
  | .dieResetRelease => Sys2Proof.Machine.execDieResetRelease s
  | .discoveryStepTimeout die => Sys2Proof.Machine.execDiscoveryStepTimeout die s
  | .identity die idn => Sys2Proof.Machine.execIdentity die idn s
  | .configuration => Sys2Proof.Machine.execConfiguration s
  | .confirm die => Sys2Proof.Machine.execConfirm die s
  | .clockMasterFailure => Sys2Proof.Machine.execClockMasterFailure s
  | .standbyRootFailure => Sys2Proof.Machine.execStandbyRootFailure s
  | .referenceLoss => Sys2Proof.Machine.execReferenceLoss s
  | .referenceReturn => Sys2Proof.Machine.execReferenceReturn s
  | .dieReset die => Sys2Proof.Machine.execDieReset die s
  | .dieDrainComplete => Sys2Proof.Machine.execDieDrainComplete s
  | .dieResetHoldEnd => Sys2Proof.Machine.execDieResetHoldEnd s
  | .dieRejoinComplete idn => Sys2Proof.Machine.execDieRejoinComplete idn s
  | .twinLinkEnable en => Sys2Proof.Machine.execTwinLinkEnable en s
  | .partnerSilence => Sys2Proof.Machine.execPartnerSilence s
  | .twinLinkDown => Sys2Proof.Machine.execTwinLinkDown s
  | .twnDispatch gdn qid entry => Sys2Proof.Machine.execTwnDispatch gdn qid entry s
  | .twnRefusal qid entry status cause => Sys2Proof.Machine.execTwnRefusal qid entry status cause s
  | .worldWrite addr mask data poisoned => Sys2Proof.Machine.execWorldWrite addr mask data poisoned s
  | .twnAnswer isAtom addr len data => Sys2Proof.Machine.execTwnAnswer isAtom addr len data s
  | .twnDecision dc => Sys2Proof.Machine.execTwnDecision dc s
  | .twnComplete gdn status cause exit => Sys2Proof.Machine.execTwnComplete gdn status cause exit s
  | .twnStream gdn addr mask data poisoned last => Sys2Proof.Machine.execTwnStream gdn addr mask data poisoned last s
  | .twnAck gdn => Sys2Proof.Machine.execTwnAck gdn s
  | .twnCommit gdn => Sys2Proof.Machine.execTwnCommit gdn s
  | .twnDigest tseq dig => Sys2Proof.Machine.execTwnDigest tseq dig s
  | .twnAgree tseq => Sys2Proof.Machine.execTwnAgree tseq s
  | .twnDisagree tseq dig => Sys2Proof.Machine.execTwnDisagree tseq dig s
  | .twnPosted gdn => Sys2Proof.Machine.execTwnPosted gdn s
  | .twnFailing => Sys2Proof.Machine.execTwnFailing s
  | .twnPair => Sys2Proof.Machine.execTwnPair s
  | .verdictWindward => Sys2Proof.Machine.execVerdictWindward s
  | .verdictLeeward => Sys2Proof.Machine.execVerdictLeeward s
  | .twnSolo => Sys2Proof.Machine.execTwnSolo s
  | .twnTakeover => Sys2Proof.Machine.execTwnTakeover s
  | .twnFence => Sys2Proof.Machine.execTwnFence s
  | .verdictTimeout => Sys2Proof.Machine.execVerdictTimeout s
  | .seedingCopyComplete => Sys2Proof.Machine.execSeedingCopyComplete s
  | .coreSelfTestEnd die cluster fails unit => Sys2Proof.Machine.execCoreSelfTestEnd die cluster fails unit s
  | .firmwareCoreFailure die f => Sys2Proof.Machine.execFirmwareCoreFailure die f s
  | .shelfBlockFailure pkg stripes badDigest => Sys2Proof.Machine.execShelfBlockFailure pkg stripes badDigest s
  | .maintenanceEntry => Sys2Proof.Machine.execMaintenanceEntry s
  | .maintenanceReached => Sys2Proof.Machine.execMaintenanceReached s
  | .maintenanceExit => Sys2Proof.Machine.execMaintenanceExit s
  | .testTile target => Sys2Proof.Machine.execTestTile target s
  | .testTileAll => Sys2Proof.Machine.execTestTileAll s
  | .testCore target => Sys2Proof.Machine.execTestCore target s
  | .shelfScan => Sys2Proof.Machine.execShelfScan s
  | .testCommandComplete failed unit => Sys2Proof.Machine.execTestCommandComplete failed unit s
  | .tidemarkReport n => Sys2Proof.Machine.execTidemarkReport n s
  | .spillDrain => Sys2Proof.Machine.execSpillDrain s
  | .tdmAck fatal seq => Sys2Proof.Machine.execTdmAck fatal seq s
  | .tdmOpen dump spill => Sys2Proof.Machine.execTdmOpen dump spill s
  | .dumpRelease => Sys2Proof.Machine.execDumpRelease s
  | .lcTransition target confirm => Sys2Proof.Machine.execLcTransition target confirm s
  | .quote mask => Sys2Proof.Machine.execQuote mask s
  | .mrExtend index => Sys2Proof.Machine.execMrExtend index s
  | .patchStage => Sys2Proof.Machine.execPatchStage s
  | .patchClear => Sys2Proof.Machine.execPatchClear s
  | .rollbackAdvance v => Sys2Proof.Machine.execRollbackAdvance v s
  | .cryptoErase confirm => Sys2Proof.Machine.execCryptoErase confirm s
  | .installCert => Sys2Proof.Machine.execInstallCert s
  | .lcAdvance => Sys2Proof.Machine.execLcAdvance s
  | .tapBypass => Sys2Proof.Machine.execTapBypass s
  | .tapIdcode => Sys2Proof.Machine.execTapIdcode s
  | .tapSamplePreload => Sys2Proof.Machine.execTapSamplePreload s
  | .tapExtest => Sys2Proof.Machine.execTapExtest s
  | .tapClamp => Sys2Proof.Machine.execTapClamp s
  | .tapHighz => Sys2Proof.Machine.execTapHighz s
  | .tapEscape mode => Sys2Proof.Machine.execTapEscape mode s
  | .entropyHealthFailure die => Sys2Proof.Machine.execEntropyHealthFailure die s
  | .leak => Sys2Proof.Machine.execLeak s
  | .converterStart railFail => Sys2Proof.Machine.execConverterStart railFail s
  | .pwrGood => Sys2Proof.Machine.execPwrGood s
  | .modEnFall => Sys2Proof.Machine.execModEnFall s
  | .inputLoss => Sys2Proof.Machine.execInputLoss s
  | .vddAccFault die => Sys2Proof.Machine.execVddAccFault die s
  | .limitSample lim reading => Sys2Proof.Machine.execLimitSample lim reading s
  | .divisorChange => Sys2Proof.Machine.execDivisorChange s
  | .meterFrame => Sys2Proof.Machine.execMeterFrame s
  | .meterStale => Sys2Proof.Machine.execMeterStale s
  | .meterPulse => Sys2Proof.Machine.execMeterPulse s
  | .meterSupplyChange up => Sys2Proof.Machine.execMeterSupplyChange up s
  | .coverOpening => Sys2Proof.Machine.execCoverOpening s
  | .readEnergy index => Sys2Proof.Machine.execReadEnergy index s
  | .readIdent index => Sys2Proof.Machine.execReadIdent index s
  | .readLog index => Sys2Proof.Machine.execReadLog index s
  | .readStatus index => Sys2Proof.Machine.execReadStatus index s
  | .coldRstN => Sys2Proof.Machine.execColdRstN s
  | .warmRstN => Sys2Proof.Machine.execWarmRstN s
  | .resetCold => Sys2Proof.Machine.execResetCold s
  | .resetWarm => Sys2Proof.Machine.execResetWarm s
  | .hbmTrainingComplete badPcs stackLost => Sys2Proof.Machine.execHbmTrainingComplete badPcs stackLost s
  | .hardRepairComplete pc bankRow => Sys2Proof.Machine.execHardRepairComplete pc bankRow s
  | .poolFillComplete => Sys2Proof.Machine.execPoolFillComplete s
  | .shelfDirectoryLoaded => Sys2Proof.Machine.execShelfDirectoryLoaded s
  | .servicesStart => Sys2Proof.Machine.execServicesStart s
  | .startUpReady => Sys2Proof.Machine.execStartUpReady s
  | .coreInstruction core w => Sys2Proof.Machine.execCoreInstruction core w s
  | .coreMemoryResponse core err ext => Sys2Proof.Machine.execCoreMemoryResponse core err ext s
  | .unknownOpcode op => Sys2Proof.Machine.execUnknownOpcode op s
  | .laneIllegalInstruction l => Sys2Proof.Machine.execLaneIllegalInstruction l s
  | .trainingStepComplete link ok => Sys2Proof.Machine.execTrainingStepComplete link ok s
  | .atomrHoldExpiry src tag epoch => Sys2Proof.Machine.execAtomrHoldExpiry src tag epoch s
  | .dumpComplete => Sys2Proof.Machine.execDumpComplete s
  | .secCommandComplete => Sys2Proof.Machine.execSecCommandComplete s
  | .railFault rail => Sys2Proof.Machine.execRailFault rail s
  | .meterUnknownCmd cmd => Sys2Proof.Machine.execMeterUnknownCmd cmd s
  | .shelfPackagesInitialised fails => Sys2Proof.Machine.execShelfPackagesInitialised fails s
  | .standbyCtuCopyComplete => Sys2Proof.Machine.execStandbyCtuCopyComplete s

end Sys2Proof.Machine
end

