-- ==== Sys2Proof/Machine/Tick.lean ====
section
/-! DEFINITION. What a step does on an empty queue: the clocks run for one SLOW cycle (DESIGN CHOICE, assumption 2). -/

namespace Sys2Proof.Machine

/-- The counters of one SLOW cycle, 84 root cycles: the device time counter, FE_TICK once for every DIV_NOW root cycles, the domain clock of a member, and 21 CORE cycles of each core in a task (R7, R8, R28, R207, R564). -/
def Dev.slowCycle (d : Dev) : Dev :=
  let div := max 1 (d.rd PWR_THROTTLE_DIV_NOW)
  let acc := d.pw.rootAcc + 84
  let d := (d.wr GLB_TIME_TIME (d.now + 1)).wr FE_TICK_TICK (d.tick + acc / div)
  let dom := d.nfp.dom
  let dom := if d.rd NFP_DOM_STATUS_STATE = 0 then dom else { dom with clock := (dom.clock + 1) % 2 ^ 64 }
  let cs := updWhere (·.task.isSome) (fun (k : Core) => { k with cycle := k.cycle + 21 }) d.cores.cores
  { d with cores := { d.cores with cores := cs }, pw := { d.pw with rootAcc := acc % div }, nfp := { d.nfp with dom := dom } }

/-- The step on an empty queue (DESIGN CHOICE, assumption 2). -/
def idle (s : State) : Out :=
  .next (if s.dev.live && s.dev.pw.pwrGood then { s with dev := s.dev.slowCycle } else s)

end Sys2Proof.Machine
end

