-- ==== Sys2Proof/Safety.lean ====
section
/-! DEFINITION. The terms that the statements use: when the module, its engines and its registers answer, what a command gives, and what it leaves as it was. -/

namespace Sys2Proof.Machine

/-! ### When a command acts -/

/-- The module has power and clocks, and its engines have not stopped (R314, R448, R544). -/
abbrev State.runs (s : State) : Prop := s.dev.live = true ∧ s.dev.down = false

/-- The module also takes register writes: READY, not in END, discovery not stopped (R445, R519, R571). -/
abbrev State.ready (s : State) : Prop :=
  s.runs ∧ s.dev.rd GLB_STATUS_READY = 1 ∧ s.dev.lcState ≠ 5 ∧ s.dev.discStopped = false

/-- The sequencers take their next instruction: the launch runs and nothing stalls (R116). -/
abbrev State.seqFree (s : State) : Prop := s.runs ∧ s.dev.seqRuns = true ∧ s.dev.seq.stall = none

/-- A slot executes and the program goes on behind it (R115, R118). -/
abbrev State.seqTakes (s : State) (a : SeqArgs) : Prop :=
  s.seqFree ∧ s.dev.guarded a.gi a.gn = true ∧ s.dev.seq.pc + 1 < s.dev.seq.imem.length

/-! ### What a command gives -/

/-- The command answers a next state with a property. -/
def Gives (c : Instr) (s : State) (P : State → Prop) : Prop := ∃ t, exec c s = .next t ∧ P t

/-- The command answers a next state in which the module, and nothing else, is what is given. -/
def GivesDev (c : Instr) (s : State) (d : Dev) : Prop := exec c s = .next { s with dev := d }

/-! ### Frames -/

/-- Every register apart from those listed holds what it held. -/
def RegsKept (d d' : Dev) (l : List Nat) : Prop := ∀ off, off ∉ l → d'.word off = d.word off

/-- Every byte of the memory, and its poison, reads as before. -/
def MemKept (d d' : Dev) : Prop := (∀ a, d'.byteAt a = d.byteAt a) ∧ ∀ a, d'.poisonAt a = d.poisonAt a

/-- The sequencers go on at a slot with the state given, and nothing else changes but REEF_SEQ_STATUS.PC. -/
def AtSlot (s t : State) (pc : Nat) (q : Seq) : Prop :=
  t = { s with dev := { s.dev with regs := (s.dev.wr REEF_SEQ_STATUS_PC pc).regs, seq := { q with pc := pc } } }

/-- The condition codes of CMP and CMPI on two words (Table 4.9). -/
def seqCond : Nat → Word → Word → Option Bool
  | 0, x, y => some (x == y)
  | 1, x, y => some (x != y)
  | 2, x, y => some (x.slt y)
  | 3, x, y => some (!x.slt y)
  | 4, x, y => some (x.ult y)
  | 5, x, y => some (!x.ult y)
  | _, _, _ => none

/-- A sequencer instruction that writes X[RD] from X[RA] and X[RB] (Table 4.8). -/
def SeqWrites (c : SeqArgs → Instr) (f : Word → Word → Word) : Prop :=
  ∀ (s : State) (a : SeqArgs), s.seqTakes a → Gives (c a) s fun t =>
    AtSlot s t (s.dev.seq.pc + 1) { s.dev.seq with x := t.dev.seq.x } ∧
    ∀ r, r < 64 → t.dev.seq.xr r =
      if r = a.rd.toNat ∧ r ≠ 0 then f (s.dev.seq.xr a.ra.toNat) (s.dev.seq.xr a.rb.toNat) else s.dev.seq.xr r

/-- A sequencer instruction that writes X[RD] from X[RA] and the sign-extended IMM (Table 4.8). -/
def SeqWritesImm (c : SeqArgs → Instr) (f : Word → Word → Word) : Prop :=
  ∀ (s : State) (a : SeqArgs), s.seqTakes a → Gives (c a) s fun t =>
    AtSlot s t (s.dev.seq.pc + 1) { s.dev.seq with x := t.dev.seq.x } ∧
    ∀ r, r < 64 → t.dev.seq.xr r =
      if r = a.rd.toNat ∧ r ≠ 0 then f (s.dev.seq.xr a.ra.toNat) (a.imm.signExtend 64) else s.dev.seq.xr r

/-- The illegal instruction at the present slot stops the launch: it issues no more and will complete ABORTED with the cause, while operations or tokens are still busy (R134). -/
def StopsIllegal (c : Instr) (s : State) (cause : Nat) : Prop :=
  ∀ l, s.dev.seq.launch = some l → l.err = none → (s.dev.seq.ops ≠ [] ∨ s.dev.seq.moves ≠ []) →
    GivesDev c s { s.dev with
      regs := (s.dev.wr REEF_SEQ_STATUS_WAIT 0).regs
      seq := { s.dev.seq with launch := some { l with err := some (.aborted, cause, s.dev.seq.pc) }, stall := none } }

/-! ### Lane instructions -/

/-- A lane instruction may issue at its slot, from an instruction of the image (R163, R168). -/
abbrev State.laneIssues (s : State) (a : LaneArgs) (i : Issue) : Prop := s.runs ∧ s.dev.issue? a = some i ∧ i.p.pc < i.l.ninstr

/-- The registers that an instruction names, each with whether it names a pair, are registers of the thread, even for a pair (R164). -/
def namedOk (i : Issue) (named : List (Nat × Bool)) : Bool :=
  named.all fun r => decide (r.1 < i.l.regs) && (!r.2 || (r.1 % 2 == 0 && decide (r.1 + 1 < i.l.regs)))

/-- The current path of the issuing group goes on to the next instruction, and nothing else changes but the thread state and the free values given. -/
def LaneNext (s t : State) (i : Issue) (th : Threads) (fresh : Nat) : Prop :=
  let step := fun (g : Group) => { g with paths := match g.paths with | [] => [] | p :: r => { p with pc := p.pc + 1 } :: r }
  let thr := { th with groups := updWhere (fun g => g.tile == i.g.tile && g.slot == i.g.slot) step th.groups }
  t = { s with dev := { s.dev with fresh := fresh, thr := thr } }

/-- What a result leaves in a register, given what it held; none where the spec gives no value. -/
def LRes.reg (x : LRes) (rd r old : Nat) : Option Nat :=
  if r = 0 then some 0
  else match x with
    | .r32 v => some (if r = rd then v % 2 ^ 32 else old)
    | .r64 v => some (if r = rd then v % 2 ^ 32 else if r = rd + 1 then v / 2 ^ 32 % 2 ^ 32 else old)
    | .open32 => if r = rd then none else some old
    | .open64 => if r = rd ∨ r = rd + 1 then none else some old
    | _ => some old

/-- What a result leaves in a predicate, given what it held. -/
def LRes.pred (x : LRes) (rd r : Nat) (old : Bool) : Bool :=
  match x with
  | .p b => if r = rd % 8 ∧ r ≠ 0 then b else old
  | _ => old

/-- A lane instruction that gives every executing lane a result computed from the state before: that lane's RD takes it, every other register and predicate of every lane stays, and the path goes on (R163, R167). -/
def LaneWrites (c : LaneArgs → Instr) (ok : Dev → LaneArgs → Issue → Bool) (f : Dev → Issue → List Nat → LaneArgs → Nat → LRes) : Prop :=
  ∀ (s : State) (a : LaneArgs) (i : Issue), s.laneIssues a i → ok s.dev a i = true → Gives (c a) s fun t =>
    let lanes := s.dev.runLanes i a
    LaneNext s t i { s.dev.thr with v := t.dev.thr.v, p := t.dev.thr.p } t.dev.fresh ∧
    (∀ lk r, r < 256 → (∀ k ∈ lanes, lk ≠ laneKey i.g.tile i.g.slot k) →
      t.dev.thr.reg lk r = s.dev.thr.reg lk r ∧ t.dev.thr.pred lk r = s.dev.thr.pred lk r) ∧
    ∀ k ∈ lanes, let lk := laneKey i.g.tile i.g.slot k
      (∀ r v, r < 256 → (f s.dev i lanes a k).reg a.rd.toNat r (s.dev.thr.reg lk r) = some v → t.dev.thr.reg lk r = v) ∧
      (∀ r, r < 8 → t.dev.thr.pred lk r = (f s.dev i lanes a k).pred a.rd.toNat r (s.dev.thr.pred lk r))

/-- The launch of an issuing instruction ends with a status and cause: recorded and reported, its groups gone, its final walk begun, no register or memory changed (R192). -/
def LaneStops (c : Instr) (s : State) (i : Issue) (st : Status) (cause lane : Nat) : Prop :=
  Gives c s fun t =>
    t.dev.rd REEF_THR_FAULT_VALID = 1 ∧ t.dev.rd REEF_THR_FAULT_STATUS = statusCode st ∧ t.dev.rd REEF_THR_FAULT_CAUSE = cause % 2 ^ 8 ∧
    t.dev.rd REEF_THR_FAULT_PC = i.p.pc % 2 ^ 24 ∧ t.dev.rd REEF_THR_FAULT_LTILE = i.g.tile % 2 ^ 10 ∧
    t.dev.rd REEF_THR_FAULT_SLOT = i.g.slot % 2 ^ 5 ∧ t.dev.rd REEF_THR_FAULT_LANE = lane % 2 ^ 5 ∧
    t.dev.tdm.reports = s.dev.tdm.reports ++ [⟨2, 2, 1, i.g.tile, i.p.pc, statusCode st, cause⟩] ∧
    (t.dev.thrL? i.l.op).any (fun l => l.err == some (st, cause) && l.ended) = true ∧
    (∀ g ∈ t.dev.thr.groups, g.launch ≠ i.l.op) ∧ t.dev.thr.v = s.dev.thr.v ∧ t.dev.thr.p = s.dev.thr.p ∧
    t.dev.tiles.ls = s.dev.tiles.ls ∧ t.dev.tiles.l1 = s.dev.tiles.l1 ∧ t.dev.pool = s.dev.pool ∧ t.dev.coh = s.dev.coh

/-- The issuing group has the paths given, the current one first; no other group, and nothing else of the module, changes. -/
def PathsBecome (s t : State) (i : Issue) (a : LaneArgs) (ps : List Path) : Prop :=
  t.dev.group? a.tile a.slot = some { i.g with paths := ps } ∧
  (∀ tl sl, (tl, sl) ≠ (a.tile, a.slot) → t.dev.group? tl sl = s.dev.group? tl sl) ∧
  t = { s with dev := { s.dev with thr := { s.dev.thr with groups := t.dev.thr.groups } } }

/-- The lowest lane of the issuing path. -/
def Issue.first (i : Issue) : Nat := (maskLanes i.p.mask).headD 0

/-- A lane's register, or its pair. -/
def Threads.operand (t : Threads) (wide : Bool) (lk r : Nat) : Nat := if wide then t.pair lk r else t.reg lk r

/-- An INT instruction: on 32-bit registers, or with FUNC[6] on pairs; IMM with FUNC[7] in place of RB; no value where the function gives none (R164, Table 6.4). -/
def LaneInteger (c : LaneArgs → Instr) (named : LaneArgs → List Nat) (f : (w : Nat) → BitVec w → BitVec w → BitVec w → Option (BitVec w)) : Prop :=
  LaneWrites c (fun _ a i => (a.func.getLsbD 7 || a.rsvd == 0) && namedOk i ((a.rd.toNat :: named a).map (·, a.func.getLsbD 6)))
    fun d i _ a k =>
      let get := fun r => d.thr.operand (a.func.getLsbD 6) (laneKey i.g.tile i.g.slot k) r
      let go := fun (w : Nat) => f w (BitVec.ofNat w (get a.ra.toNat)) (if a.func.getLsbD 7 then BitVec.ofInt w a.imm else BitVec.ofNat w (get a.rb)) (BitVec.ofNat w (get a.rc))
      if a.func.getLsbD 6 then (match go 64 with | some v => .r64 v.toNat | none => .open64)
      else match go 32 with | some v => .r32 v.toNat | none => .open32

/-- An FP32 or FP64 instruction: a function of Table 5.5 on the codes of its registers or pairs under RM (R165). -/
def LaneFloat (c : LaneArgs → Instr) (g : Fmt) (arity : Nat) (f : Nat → Nat → Nat → Nat → Nat) : Prop :=
  LaneWrites c (fun _ a i => a.rsvd == 0 && namedOk i ((a.rd.toNat :: [a.ra.toNat, a.rb, a.rc].take arity).map (·, g == .b64)))
    fun d i _ a k =>
      let get := fun r => d.thr.operand (g == .b64) (laneKey i.g.tile i.g.slot k) r
      let v := f a.rm (get a.ra.toNat) (get a.rb) (get a.rc)
      if g == .b64 then .r64 v else .r32 v

/-! ### Operations of the front end -/

/-- One operation in flight becomes what is given, every other stays (R358). -/
def OpBecomes (s t : State) (o o' : FeOp) : Prop := t.dev.op? o.id = some o' ∧ ∀ j, j ≠ o.id → t.dev.op? j = s.dev.op? j

/-- An operation whose work has ended, with its start, status, cause and exit value (R376). -/
def FeOp.ends (o : FeOp) (start : Nat) (st : Status) (cause : Nat) (exit : BitVec 32) : FeOp := { o with phase := .done st cause exit, start := start }

/-- A command ends a dispatched operation with a status, cause and exit value, and nothing else changes. -/
def Concludes (c : Instr) (s : State) (o : FeOp) (st : Status) (cause : Nat) (exit : BitVec 32) : Prop :=
  Gives c s fun t => OpBecomes s t o (o.ends s.dev.tick st cause exit) ∧
    t = { s with dev := { s.dev with fe := { s.dev.fe with ops := t.dev.fe.ops } } }

/-- A dispatched operation of an opcode that its engine may start. -/
abbrev State.opReady (s : State) (o : FeOp) (opcode : Nat) : Prop :=
  s.runs ∧ s.dev.op? o.id = some o ∧ o.phase = .dispatched ∧ o.opcode = opcode

/-- The tier task that the engine accepts next: of a code, with none dispatched before it still waiting (R266). -/
abbrev State.tierReady (s : State) (o : FeOp) (code : Nat) : Prop :=
  s.opReady o 4 ∧ entF o.entry 32 1 = code ∧ (∀ p ∈ s.dev.fe.ops, p.opcode = 4 → p.phase = .dispatched → o.id ≤ p.id)

/-- Nothing waits at the tier engine, and no REMOTE copy asks for a window. -/
abbrev State.tierCalm (s : State) : Prop :=
  s.dev.ctu.tierWait = [] ∧ s.dev.twn.lates = [] ∧ (∀ c ∈ s.dev.tier.copies, isRemote c.ident = false) ∧ s.dev.isLeeward = false ∧ s.dev.isWindward = false

/-- An answer leaves by the first port that takes it, or waits: for an OPEN slot while slot tables are in force, for a port, or because the module is mute (R393, R399, R400, R463). -/
def Answers (d d' : Dev) (kind : Nat) (p : Packet) : Prop :=
  (d.domRunning = true ∨ d.mute = true → d'.nfp.answers = d.nfp.answers ++ [(kind, p)] ∧ d'.out = d.out) ∧
  (d.domRunning = false → d.mute = false → d.nfp.answers = [] → d.nfp.sqs = [] →
    match (d.portsFor kind p.dst).find? fun q => d.portTakes q kind p with
    | none => d'.nfp.answers = [(kind, p)] ∧ d'.out = d.out
    | some q => d'.nfp.answers = [] ∧ d'.out = d.out ++ [.nfp q kind p])

/-! ### Classes of commands -/

/-- The commands of the sealed meter: a pulse, its supply, its cover, its readout port (R553–R558). -/
def isMeterCommand : Instr → Bool
  | .meterPulse | .meterSupplyChange _ | .coverOpening | .readEnergy _ | .readIdent _ | .readLog _ | .readStatus _
  | .meterUnknownCmd _ => true
  | _ => false

/-- The power and reset pins that act on a module without power or clocks (R543–R545, R560). -/
def isPowerPin : Instr → Bool
  | .converterStart _ | .pwrGood | .modEnFall | .inputLoss | .railFault _ | .coldRstN => true
  | _ => false

/-- The commands that reach the life-cycle and rollback fuses: register writes, a release of the dies, transitions, SEC_CMD, start-up (R514, R516, R530). -/
def reachesFuses : Instr → Bool
  | .registerWrite _ _ | .straitWr _ _ _ | .lcTransition _ _ | .lcAdvance | .secCommandComplete | .dieResetRelease | .servicesStart => true
  | _ => false

/-- The register and the value that a register command writes (R13). -/
def regWriteOf : Instr → Option (Nat × Word)
  | .offline a => some (COH_AGENT_CMD_GO.reg, agentWord a 1)
  | .online a => some (COH_AGENT_CMD_GO.reg, agentWord a 2)
  | .dead a => some (COH_AGENT_CMD_GO.reg, agentWord a 3)
  | .wayTargetWrite c v => some ((COH_WAYS_TARGET c).reg, v)
  | .ctuRetry i => some (CTU_FAULT_RESOLVE_ID.reg, resolveWord i 0)
  | .ctuFail i => some (CTU_FAULT_RESOLVE_ID.reg, resolveWord i 1)
  | .invRange tag _ size count => some (CTU_INV_CMD_GO.reg, invWord tag 1 size count)
  | .invTag tag => some (CTU_INV_CMD_GO.reg, invWord tag 2 0 0)
  | .faultRingEnable v => some (CTU_FQ_BASE_EN.reg, v)
  | .nfpDomCtrlWrite v => some (NFP_DOM_CTRL_ENABLE.reg, v)
  | .schedLoad => some (NFP_SCHED_ADDR_LOAD.reg, 1)
  | .functionDisable _ => some (FE_FUNC_CTRL_EN.reg, 0)
  | .functionEnable f => some (FE_FUNC_CTRL_EN.reg, BitVec.ofNat 64 (2 ^ f))
  | .feFenceSignal i => some (FE_FENCE_SIGNAL_GO.reg, fenceWord i 1)
  | .clrError i => some (FE_FENCE_SIGNAL_GO.reg, fenceWord i 2)
  | .portEnable p => some ((NFP_PORT_CTRL_EN p).reg, 1)
  | .takeOut p => some (MEM_PC_CMD_GO.reg, pcCmdWord p 1 0 0)
  | .memReturn p => some (MEM_PC_CMD_GO.reg, pcCmdWord p 2 0 0)
  | .margin p k => some (MEM_PC_CMD_GO.reg, pcCmdWord p 3 k 0)
  | .retire p => some (MEM_PC_CMD_GO.reg, pcCmdWord p 4 0 0)
  | .sweep st all => some (MEM_PC_CMD_GO.reg, pcCmdWord (st % 16 * 32) 5 0 all.toNat)
  | .dieReset die => some (NRW_DIE_CMD_GO.reg, dieWord die)
  | .jobEnd j => some ((NFP_JOB_W0_VALID j).reg, 0)
  | .exportWindowOpen n v => some ((NFP_WIN_W0_OPEN n).reg, v)
  | .exportWindowClose n => some ((NFP_WIN_W0_OPEN n).reg, 0)
  | .maintenanceEntry => some (RAS_MAINT_CTRL_REQ.reg, 1)
  | .maintenanceExit => some (RAS_MAINT_CTRL_REQ.reg, 0)
  | .testTile x => some (RAS_TEST_CMD_GO.reg, testWord 1 x)
  | .testTileAll => some (RAS_TEST_CMD_GO.reg, testWord 2 0)
  | .testCore x => some (RAS_TEST_CMD_GO.reg, testWord 3 x)
  | .shelfScan => some (RAS_TEST_CMD_GO.reg, testWord 4 0)
  | .reefSramLimitWrite v => some (REEF_SRAM_LIMIT_LS_MIN.reg, v)
  | .dmaTailWrite ch tail => some ((STR_DMA_PTR_TAIL ch).reg, BitVec.ofNat 64 (tail % 2 ^ 16 * 2 ^ 32))
  | .dmaChannelEnable ch en => some ((STR_DMA_PTR_EN ch).reg, BitVec.ofNat 64 en.toNat)
  | .twinLinkEnable en => some (TWN_CTRL_EN.reg, BitVec.ofNat 64 en.toNat)
  | .lcTransition tgt confirm => some (SEC_CMD_GO.reg, secWord 1 (confirm % 256 * 256 + tgt % 8))
  | .quote mask => some (SEC_CMD_GO.reg, secWord 2 mask.toNat)
  | .mrExtend i => some (SEC_CMD_GO.reg, secWord 3 i)
  | .patchStage => some (SEC_CMD_GO.reg, secWord 4 0)
  | .patchClear => some (SEC_CMD_GO.reg, secWord 5 0)
  | .rollbackAdvance v => some (SEC_CMD_GO.reg, secWord 6 v)
  | .cryptoErase confirm => some (SEC_CMD_GO.reg, secWord 7 (confirm % 256 * 256))
  | .installCert => some (SEC_CMD_GO.reg, secWord 8 0)
  | .tdmAck fatal seq => some (TDM_ACK_SEQ.reg, ackWord fatal seq)
  | .dumpRelease => some (TDM_DUMP_VALID.reg, 1)
  | .twnPair => some (TWN_CMD_GO.reg, twnWord 1)
  | .verdictWindward => some (TWN_CMD_GO.reg, twnWord 2)
  | .verdictLeeward => some (TWN_CMD_GO.reg, twnWord 3)
  | .twnSolo => some (TWN_CMD_GO.reg, twnWord 4)
  | .twnTakeover => some (TWN_CMD_GO.reg, twnWord 5)
  | .twnFence => some (TWN_CMD_GO.reg, twnWord 6)
  | _ => none

/-! ### Invariants -/

/-- The meter's log holds at most 1,024 entries, the newest first, numbered down from the log counter (R554). -/
def Meter.wf (m : Meter) : Prop :=
  m.log.length ≤ 1024 ∧ ∀ i e, m.log[i]? = some e → e.seq = m.count - BitVec.ofNat 32 i

/-- The fuses of one state do not lie behind those of another: no code and no count is lower (R514, R530). -/
def Otp.notBefore (o o' : Otp) : Prop :=
  o.lc0.toNat ≤ o'.lc0.toNat ∧ o.lc1.toNat ≤ o'.lc1.toNat ∧ o.count ≤ o'.count

/-- The pool's memory has its canonical form. -/
abbrev State.memWf (s : State) : Prop := Memory.wf s.dev.pool

end Sys2Proof.Machine
end

