-- ==== Sys2Proof/Certificates/Slice0/Obligations.lean ====
section
/-! DEFINITION. The statements about the module, one for each obligation of OBLIGATIONS.json. -/

open Sys2Proof Sys2Proof.Machine

/-- For every command c and state s, step of s with c at the front of its queue is exec of c on s with the queue's rest. The queue itself is the model's (assumption 1). -/
def Obligations.StepTakesFrontCommand : Prop :=
  ∀ (c : Instr) (rest : List Instr) (s : State), step { s with pending := c :: rest } = exec c { s with pending := rest }

/-- After reset the queue is empty, the module is without power or clocks, no register holds anything but its reset value, and these read the reset values of their maps: REEF_SRAM_LIMIT LS_MIN 2 and LS_MAX 14, REEF_LOCKSTEP WINDOW 1,000, GLB_STATUS READY 0, GLB_TIME 0, SEC_LC_STATE BLANK, TWN_STATUS OFF. The sequencers' registers and every byte of the memory read 0 (the model's choice, assumption 5). -/
def Obligations.ResetLeavesSpecValues : Prop :=
  let d := State.reset.dev
  State.reset.pending = [] ∧ d.live = false ∧ d.regs = [] ∧
  d.rd REEF_SRAM_LIMIT_LS_MIN = 2 ∧ d.rd REEF_SRAM_LIMIT_LS_MAX = 14 ∧ d.rd REEF_LOCKSTEP_WINDOW = 1000 ∧
  d.rd GLB_STATUS_READY = 0 ∧ d.rd GLB_TIME_TIME = 0 ∧ d.lcState = 0 ∧ d.twState = 0 ∧
  (∀ r, d.seq.xr r = 0) ∧ (∀ a, d.byteAt a = 0)

/-- With an empty queue and good power and clocks, a step advances the device time counter by 1 (the model's reading of an idle step, assumption 2), and FE_TICK by the ARITH cycles that DIV_NOW makes of 84 root cycles and what was left before; the domain clock of a member advances by 1, the cores in a task by 21 cycles; memory, queues, engines, fuses and meter stay. A module without power or clocks stays as it is. -/
def Obligations.EmptyQueueTicksClocks : Prop :=
  ∀ s : State, s.pending = [] →
    (s.dev.live = true ∧ s.dev.pw.pwrGood = true →
      ∃ t, step s = .next t ∧ t.otp = s.otp ∧ t.meter = s.meter ∧ t.pending = [] ∧
        t.dev.now = (s.dev.now + 1) % 2 ^ 64 ∧
        t.dev.tick = (s.dev.tick + (s.dev.pw.rootAcc + 84) / max 1 (s.dev.rd PWR_THROTTLE_DIV_NOW)) % 2 ^ 64 ∧
        RegsKept s.dev t.dev [GLB_TIME_TIME.reg, FE_TICK_TICK.reg] ∧
        t.dev.nfp.dom.clock = (if s.dev.rd NFP_DOM_STATUS_STATE = 0 then s.dev.nfp.dom.clock else (s.dev.nfp.dom.clock + 1) % 2 ^ 64) ∧
        (∀ k ∈ s.dev.cores.cores, (if k.task.isSome then { k with cycle := k.cycle + 21 } else k) ∈ t.dev.cores.cores) ∧
        t.dev = { s.dev with regs := t.dev.regs, cores := t.dev.cores, pw := t.dev.pw, nfp := t.dev.nfp }) ∧
    (s.dev.live = false → step s = .next s)

/-- For every command and every state, exec answers a next state, never a fault or a refusal, and the queue of waiting commands is as it was: no command of the opcode table is without an effect in the model (the module sends what it queues to other agents in its output, not to its own queue). -/
def Obligations.EveryCommandIsAnswered : Prop :=
  ∀ (c : Instr) (s : State), ∃ t, exec c s = .next t ∧ t.pending = s.pending

/-- A module whose rails are down or whose clocks have stopped answers every command with an unchanged state, except the power and reset pins (converter start, PWR_GOOD, fall of MOD_EN, loss of input, rail fault, COLD_RST_N) and the commands of the sealed meter, which has a supply of its own. -/
def Obligations.DarkModuleOnlyPinsAct : Prop :=
  ∀ (c : Instr) (s : State), s.dev.live = false → isPowerPin c = false → isMeterCommand c = false → exec c s = .next s

/-- Every command other than the meter's own leaves the whole meter as it was: its energy register, its log, its counters and its seal. The meter's own commands in turn change nothing of the module, its fuses or its queue. -/
def Obligations.MeterIsOutOfReach : Prop :=
  ∀ (c : Instr) (s t : State), exec c s = .next t →
    (isMeterCommand c = false → t.meter = s.meter) ∧
    (isMeterCommand c = true → t.dev = s.dev ∧ t.otp = s.otp ∧ t.pending = s.pending)

/-- Every step that answers a next state leaves the life-cycle code of each control die and the anti-rollback count at least where they were; and a command that is none of those that reach the fuses (a register write, by the host too, LC_TRANSITION, LC_ADVANCE, the completion of a SEC command, the die-reset release, the start of the services) leaves every fuse as it was. -/
def Obligations.FusesNeverGoBack : Prop :=
  (∀ s t : State, step s = .next t → s.otp.notBefore t.otp) ∧
  (∀ (c : Instr) (s t : State), exec c s = .next t → reachesFuses c = false → t.otp = s.otp)

/-- If the meter's log holds at most 1,024 entries, the newest first, numbered down from the log counter, then it does so after every step that answers a next state; and no step lowers the energy register except by its wrapping round: it changes only at a METER_PULSE with the supply on, by 100 mWh. -/
def Obligations.MeterLogKeepsForm : Prop :=
  ∀ s t : State, step s = .next t →
    (s.meter.wf → t.meter.wf) ∧
    (t.meter.energy ≠ s.meter.energy →
      s.pending.head? = some .meterPulse ∧ s.meter.powered = true ∧ t.meter.energy = s.meter.energy + 100)

/-- The log of the meter after reset, empty, holds at most 1,024 entries numbered down from the log counter (the reset value of the meter is the model's choice, assumption 5). -/
def Obligations.ResetMeterLogForm : Prop :=
  State.reset.meter.wf

/-- A register command on a running module: in END it only records a SECURITY INFO event 5 (R519); after a stopped discovery, in a block that does not answer, it changes nothing (R445); before READY it is discarded with the ACCESS INFO event 2 that names its block, its address and its value (R571, R577). -/
def Obligations.ClosedRegistersTakeNoCommand : Prop :=
  ∀ (c : Instr) (s : State) (off : Nat) (v : Word), s.runs → regWriteOf c = some (off, v) →
    (s.dev.lcState = 5 → GivesDev c s (s.dev.event 15 0 5 0 0 0 0)) ∧
    (s.dev.lcState ≠ 5 → s.dev.discStopped = true → off / 2 ^ 24 ∉ [0, 9, 11, 12] → GivesDev c s s.dev) ∧
    (s.dev.lcState ≠ 5 → (s.dev.discStopped = false ∨ off / 2 ^ 24 ∈ [0, 9, 11, 12]) → s.dev.rd GLB_STATUS_READY = 0 →
      GivesDev c s (s.dev.event 0 0 2 (off / 2 ^ 24) (0x7F0000000000 + off) v.toNat 0))

/-- For every state in which the sequencers take an instruction and every slot that executes: ADD, SUB, AND, OR, XOR, SHL, SHR, SAR, MUL, MIN, MAX, MINU and MAXU write X[RD] from X[RA] and X[RB], their immediate forms from X[RA] and the sign-extended IMM, and LIH the immediate over the low half of X[RA]; shifts use bits [5:0]; X0 ignores the write. Every other X register, every other part of the sequencer, memory and every register but REEF_SEQ_STATUS.PC keep what they held, and the PC is the next slot. -/
def Obligations.SequencerAluWritesDestination : Prop :=
  SeqWrites Instr.seqAdd (fun x y => x + y) ∧
  SeqWrites Instr.seqSub (fun x y => x - y) ∧
  SeqWrites Instr.seqAnd (fun x y => x &&& y) ∧
  SeqWrites Instr.seqOr (fun x y => x ||| y) ∧
  SeqWrites Instr.seqXor (fun x y => x ^^^ y) ∧
  SeqWrites Instr.seqShl (fun x y => x <<< (y.toNat % 64)) ∧
  SeqWrites Instr.seqShr (fun x y => x >>> (y.toNat % 64)) ∧
  SeqWrites Instr.seqSar (fun x y => x.sshiftRight (y.toNat % 64)) ∧
  SeqWrites Instr.seqMul (fun x y => x * y) ∧
  SeqWrites Instr.seqMin (fun x y => if x.slt y then x else y) ∧
  SeqWrites Instr.seqMax (fun x y => if x.slt y then y else x) ∧
  SeqWrites Instr.seqMinu (fun x y => if x.ult y then x else y) ∧
  SeqWrites Instr.seqMaxu (fun x y => if x.ult y then y else x) ∧
  SeqWritesImm Instr.seqAddi (fun x y => x + y) ∧
  SeqWritesImm Instr.seqSubi (fun x y => x - y) ∧
  SeqWritesImm Instr.seqAndi (fun x y => x &&& y) ∧
  SeqWritesImm Instr.seqOri (fun x y => x ||| y) ∧
  SeqWritesImm Instr.seqXori (fun x y => x ^^^ y) ∧
  SeqWritesImm Instr.seqShli (fun x y => x <<< (y.toNat % 64)) ∧
  SeqWritesImm Instr.seqShri (fun x y => x >>> (y.toNat % 64)) ∧
  SeqWritesImm Instr.seqSari (fun x y => x.sshiftRight (y.toNat % 64)) ∧
  SeqWritesImm Instr.seqMuli (fun x y => x * y) ∧
  SeqWritesImm Instr.seqMini (fun x y => if x.slt y then x else y) ∧
  SeqWritesImm Instr.seqMaxi (fun x y => if x.slt y then y else x) ∧
  SeqWritesImm Instr.seqMinui (fun x y => if x.ult y then x else y) ∧
  SeqWritesImm Instr.seqMaxui (fun x y => if x.ult y then y else x) ∧
  SeqWritesImm Instr.seqLih (fun x y => (y <<< 32) ||| (x &&& 0xFFFFFFFF))

/-- A sequencer instruction of one slot that needs no wait and does not execute leaves everything as it was but the PC: no register, guard, descriptor, order, summary, token, queue or fence changes. It holds for NOP, executing or not, for every ALU, comparison and constant-memory instruction, for BR and LOOP, for ENQ and FSIG, and, while nothing that they wait for is outstanding, for the summary, movement, END, ROTP, YLDP and TALLY instructions. -/
def Obligations.SequencerFalseGuardDoesNothing : Prop :=
  ∀ (s : State) (a : SeqArgs) (c : Instr), s.seqFree → s.dev.seq.pc + 1 < s.dev.seq.imem.length →
    (s.dev.guarded a.gi a.gn = false ∧
        (c ∈ [Instr.seqAdd a, .seqSub a, .seqAnd a, .seqOr a, .seqXor a, .seqShl a, .seqShr a, .seqSar a, .seqMul a, .seqMin a,
          .seqMax a, .seqMinu a, .seqMaxu a, .seqAddi a, .seqSubi a, .seqAndi a, .seqOri a, .seqXori a, .seqShli a, .seqShri a,
          .seqSari a, .seqMuli a, .seqMini a, .seqMaxi a, .seqMinui a, .seqMaxui a, .seqLih a, .seqCmp a, .seqCmpi a, .seqLdc a,
          .seqLdd a, .seqOrdl a, .seqDbase a, .seqDscale a, .seqBr a, .seqLoop a, .seqEnq a, .seqFsig a, .seqYldp a] ∨
         (s.dev.seq.ops = [] ∧ s.dev.seq.moves = [] ∧
          (c ∈ [Instr.seqMovh a, .seqHcmp a, .seqHclr a, .seqLdt a, .seqStt a, .seqEnd a, .seqRotp a, .seqTally a] ∨
            (c = .seqXlt a ∧ a.imm.extractLsb' 20 11 = 0)))) ∨
      c = .seqNop a) →
    Gives c s fun t => AtSlot s t (s.dev.seq.pc + 1) s.dev.seq

/-- CMP compares X[RA] with X[RB], CMPI with the sign-extended IMM, under the condition of RD[5:3]: EQ, NE, LT, GE (signed), LTU, GEU; the guard RD[2:0] takes the result, G0 stays 1, every other guard and every X register stays, and the PC goes on. Condition codes 6 and 7 are illegal with cause 0x0A. -/
def Obligations.SequencerComparisonsSetGuard : Prop :=
  ∀ (s : State) (a : SeqArgs), s.seqTakes a →
    (∀ p ∈ [(Instr.seqCmp a, s.dev.seq.xr a.rb.toNat), (Instr.seqCmpi a, a.imm.signExtend 64)],
      (∀ b, seqCond (a.rd.toNat / 8) (s.dev.seq.xr a.ra.toNat) p.2 = some b →
        Gives p.1 s fun t => AtSlot s t (s.dev.seq.pc + 1) { s.dev.seq with g := t.dev.seq.g } ∧
          ∀ i, i < 8 → t.dev.seq.g.getLsbD i = if i = a.rd.toNat % 8 ∧ i ≠ 0 then b else s.dev.seq.g.getLsbD i) ∧
      (6 ≤ a.rd.toNat / 8 → StopsIllegal p.1 s 0x0A))

/-- LDC loads the 8 little-endian bytes at X[RA] + IMM, 8-byte aligned and within the constant buffer, into X[RD]; LDD loads 32 aligned bytes that pass the descriptor checks into D[RD]; ORDL loads X[RB] 16-bit entries that are a permutation of 0 to n - 1 into order memory from entry X[RD] and records the segment; DBASE adds X[RA] + IMM to the 57-bit BASE and keeps the rest, checked again; DSCALE replaces the tensor scale. Off the alignment or beyond the buffer LDC and LDD are illegal with cause 0x06; a load that is no permutation or runs past entry 8,191 with cause 0x05; a descriptor that fails its checks with cause 0x04. -/
def Obligations.SequencerConstantMemory : Prop :=
  ∀ (s : State) (a : SeqArgs), s.seqTakes a →
    let q := s.dev.seq
    let p := (q.xr a.ra.toNat + a.imm.signExtend 64).toNat
    (p % 8 = 0 → p + 8 ≤ q.cmem.length → Gives (.seqLdc a) s fun t => AtSlot s t (q.pc + 1) { q with x := t.dev.seq.x } ∧
      ∀ r, r < 64 → t.dev.seq.xr r =
        if r = a.rd.toNat ∧ r ≠ 0 then BitVec.ofNat 64 (leNat ((q.cmem.drop p).take 8)) else q.xr r) ∧
    (p % 8 ≠ 0 ∨ q.cmem.length < p + 8 → StopsIllegal (.seqLdc a) s 0x06) ∧
    (let v := BitVec.ofNat 256 (leNat ((q.cmem.drop p).take 32))
     p % 32 = 0 → p + 32 ≤ q.cmem.length →
      (descOk v s.dev.lsBytes = true → Gives (.seqLdd a) s fun t => AtSlot s t (q.pc + 1) { q with d := t.dev.seq.d } ∧
        ∀ r, t.dev.seq.dr r = if r = a.rd.toNat then v else q.dr r) ∧
      (descOk v s.dev.lsBytes = false → StopsIllegal (.seqLdd a) s 0x04)) ∧
    (p % 32 ≠ 0 ∨ q.cmem.length < p + 32 → StopsIllegal (.seqLdd a) s 0x06) ∧
    (let n := (q.xr a.rb.toNat).toNat
     let first := (q.xr a.rd.toNat).toNat
     let es := chunks 2 n ((q.cmem.drop p).take (2 * n))
     (8192 < first + n → StopsIllegal (.seqOrdl a) s 0x05) ∧
     (first + n ≤ 8192 → p + 2 * n ≤ q.cmem.length →
      ((∀ i, i < n → i ∈ es) → Gives (.seqOrdl a) s fun t =>
        AtSlot s t (q.pc + 1) { q with ordMem := t.dev.seq.ordMem, ordSegs := t.dev.seq.ordSegs } ∧
        (first, n) ∈ t.dev.seq.ordSegs ∧
        (∀ g ∈ t.dev.seq.ordSegs, g = (first, n) ∨ (g ∈ q.ordSegs ∧ (first + n ≤ g.1 ∨ g.1 + g.2 ≤ first)))) ∧
      ((∃ i, i < n ∧ i ∉ es) → StopsIllegal (.seqOrdl a) s 0x05))) ∧
    (let v := q.dr a.rd.toNat
     let w := BitVec.ofNat 256 (v.toNat - descBase v + (descBase v + p) % 2 ^ 57)
     (descOk w s.dev.lsBytes = true → Gives (.seqDbase a) s fun t => AtSlot s t (q.pc + 1) { q with d := t.dev.seq.d } ∧
        ∀ r, t.dev.seq.dr r = if r = a.rd.toNat then w else q.dr r) ∧
     (descOk w s.dev.lsBytes = false → StopsIllegal (.seqDbase a) s 0x04)) ∧
    (Gives (.seqDscale a) s fun t => AtSlot s t (q.pc + 1) { q with d := t.dev.seq.d } ∧
      ∀ r, t.dev.seq.dr r =
        if r = a.rd.toNat then BitVec.ofNat 256 ((q.dr r).toNat % 2 ^ 224 + (q.xr a.ra.toNat).toNat % 2 ^ 32 * 2 ^ 224) else q.dr r)

/-- On a summary register that an issued operation has still to write, MOVH, HCMP and HCLR stall with WAIT 2 and nothing else changes. Otherwise, on a valid register, MOVH writes it to X[RD]; HCMP sets the guard RD[2:0] to the comparison with X[RB] that MODE and RD[5:3] select (signed and unsigned words, binary32 and binary64, a NaN making NE true and all else false); and HCLR makes the register invalid. MOVH and HCMP on an invalid register are illegal with cause 0x07. -/
def Obligations.SequencerSummaryInstructions : Prop :=
  ∀ (s : State) (a : SeqArgs),
    let q := s.dev.seq
    let r := a.ra.toNat % 16
    (s.seqFree → q.hPending r = true → ∀ p ∈ [(0x40, Instr.seqMovh a), (0x41, .seqHcmp a), (0x42, .seqHclr a)],
      Gives p.2 s fun t => t.dev.seq = { q with stall := some (.instr p.1 a), stallAt := s.dev.tick } ∧
        t = { s with dev := { s.dev with regs := (s.dev.wr REEF_SEQ_STATUS_WAIT 2).regs, seq := t.dev.seq } }) ∧
    (s.seqTakes a → q.hPending r = false →
      (q.hValid.getLsbD r = true →
        (Gives (.seqMovh a) s fun t => AtSlot s t (q.pc + 1) { q with x := t.dev.seq.x } ∧
          ∀ k, k < 64 → t.dev.seq.xr k = if k = a.rd.toNat ∧ k ≠ 0 then q.hr r else q.xr k) ∧
        (∀ b, hcmp a.mode.toNat (a.rd.toNat / 8) (q.hr r) (q.xr a.rb.toNat) = some b →
          Gives (.seqHcmp a) s fun t => AtSlot s t (q.pc + 1) { q with g := t.dev.seq.g } ∧
            ∀ i, i < 8 → t.dev.seq.g.getLsbD i = if i = a.rd.toNat % 8 ∧ i ≠ 0 then b else q.g.getLsbD i)) ∧
      (Gives (.seqHclr a) s fun t => AtSlot s t (q.pc + 1) { q with hValid := t.dev.seq.hValid } ∧
        ∀ i, i < 16 → t.dev.seq.hValid.getLsbD i = (q.hValid.getLsbD i && i != r)) ∧
      (q.hValid.getLsbD r = false → StopsIllegal (.seqMovh a) s 0x07 ∧ StopsIllegal (.seqHcmp a) s 0x07)) ∧
    (∀ x y : Word, hcmp 0 2 x y = some (x.slt y) ∧ hcmp 1 2 x y = some (x.ult y) ∧ hcmp 0 0 x y = some (x == y))

/-- A BR that executes goes on at its own slot plus IMM, and a LOOP first counts X[RD] down and goes there unless the result is 0, when it goes to the next slot; a target outside the image or inside an array operation is illegal with cause 0x08, on a pass that falls through too. WAITA waits with WAIT 4 while an operation is issued and not done, WAITM with WAIT 3 while a named token is busy, and then they go on. END with nothing outstanding ends the launch: STATE reads 3, the sequencers hold no launch, and its operation is done OK with IMM as exit value. -/
def Obligations.SequencerBranchesAndEnd : Prop :=
  ∀ (s : State) (a : SeqArgs),
    let q := s.dev.seq
    (s.seqFree → s.dev.guarded a.gi a.gn = true →
      (∀ k, s.dev.target a = .ok k →
        (Gives (.seqBr a) s fun t => AtSlot s t k q) ∧
        (q.xr a.rd.toNat ≠ 1 → Gives (.seqLoop a) s fun t => AtSlot s t k { q with x := t.dev.seq.x } ∧
          ∀ r, r < 64 → t.dev.seq.xr r = if r = a.rd.toNat ∧ r ≠ 0 then q.xr r - 1 else q.xr r) ∧
        (q.xr a.rd.toNat = 1 → q.pc + 1 < q.imem.length →
          Gives (.seqLoop a) s fun t => AtSlot s t (q.pc + 1) { q with x := t.dev.seq.x } ∧
            ∀ r, r < 64 → t.dev.seq.xr r = if r = a.rd.toNat then 0 else q.xr r)) ∧
      (∀ c, s.dev.target a = .error c → c = 0x08 ∧ StopsIllegal (.seqBr a) s 0x08 ∧ StopsIllegal (.seqLoop a) s 0x08)) ∧
    (s.seqFree → q.pc + 1 < q.imem.length →
      (q.ops = [] → Gives (.seqWaita a) s fun t => AtSlot s t (q.pc + 1) q) ∧
      (q.ops ≠ [] → Gives (.seqWaita a) s fun t => t.dev.seq = { q with stall := some (.instr 0x61 a), stallAt := s.dev.tick } ∧
        t.dev.regs = (s.dev.wr REEF_SEQ_STATUS_WAIT 4).regs) ∧
      ((∀ m ∈ q.moves, a.imm.getLsbD m.tok = false ∨ 16 ≤ m.tok) → Gives (.seqWaitm a) s fun t => AtSlot s t (q.pc + 1) q) ∧
      ((∃ m ∈ q.moves, a.imm.getLsbD m.tok = true ∧ m.tok < 16) → Gives (.seqWaitm a) s fun t =>
        t.dev.seq = { q with stall := some (.instr 0x73 a), stallAt := s.dev.tick } ∧
        t.dev.regs = (s.dev.wr REEF_SEQ_STATUS_WAIT 3).regs)) ∧
    (s.seqFree → s.dev.guarded a.gi a.gn = true → q.ops = [] → q.moves = [] → s.dev.handDue = false →
      ∀ l, q.launch = some l → Gives (.seqEnd a) s fun t =>
        t.dev.seq = { q with launch := none, stall := none, inIssue := none } ∧
        t.dev.rd REEF_SEQ_STATUS_STATE = 3 ∧ t.dev.rd REEF_SEQ_STATUS_WAIT = 0 ∧
        (∀ o, s.dev.op? l.op = some o → o.ended = false →
          ∃ o', t.dev.op? l.op = some o' ∧ o'.phase = .done .ok 0 a.imm ∧ o'.entry = o.entry) ∧
        t = { s with dev := { s.dev with regs := t.dev.regs, seq := t.dev.seq, fe := t.dev.fe, out := t.dev.out } })

/-- A movement whose descriptors agree and lie in the spaces that its instruction names (moveCheck finds no cause) is added under token RD[3:0] with the two descriptors as captured, and the program goes on; a cause makes it illegal; a busy token makes it stall with WAIT 3; XLT with a reserved bit of IMM set is illegal with cause 0x01. MOVE_COMPLETE of a busy token without an error has the whole copy done on every tile and the token idle, and with a status it ends the launch with it and cause 0xFF at the movement's own slot, the token idle. -/
def Obligations.SequencerMovesData : Prop :=
  ∀ (s : State) (a : SeqArgs),
    let q := s.dev.seq
    let tok := a.rd.toNat % 16
    let check := fun k => moveCheck k s.dev.lsBytes a.imm (q.dr a.ra.toNat) (q.dr a.rb.toNat)
    (∀ p ∈ [(0, Instr.seqLdt a), (1, .seqStt a), (2, .seqXlt a)], (p.1 = 2 → a.imm.extractLsb' 20 11 = 0) →
      (s.seqTakes a → (∀ m ∈ q.moves, m.tok ≠ tok) →
        (check p.1 = none → Gives p.2 s fun t => AtSlot s t (q.pc + 1)
          { q with moves := q.moves ++ [⟨tok, p.1, q.pc, q.dr a.ra.toNat, q.dr a.rb.toNat, a.imm⟩] }) ∧
        (∀ c, check p.1 = some c → StopsIllegal p.2 s c)) ∧
      (s.seqFree → (∃ m ∈ q.moves, m.tok = tok) → Gives p.2 s fun t =>
        t = { s with dev := { s.dev with
          regs := (s.dev.wr REEF_SEQ_STATUS_WAIT 3).regs
          seq := { q with stall := some (.instr (0x70 + p.1) a), stallAt := s.dev.tick } } })) ∧
    (s.seqFree → a.imm.extractLsb' 20 11 ≠ 0 → StopsIllegal (.seqXlt a) s 0x01) ∧
    (∀ m l tk, s.runs → q.moves.find? (·.tok == tk) = some m → q.launch = some l → l.err = none →
      let d := (s.dev.moveAll m l.tag).dev
      (d.seq = q → q.stall = none → d.handDue = false → (s.dev.moveAll m l.tag).err = none → (s.dev.moveAll m l.tag).waits = false →
        GivesDev (.moveComplete tk none) s { d with seq := { q with moves := q.moves.filter (·.tok != tk) } }) ∧
      (∀ st, st ≠ .ok → d.seq = q → (q.ops ≠ [] ∨ ∃ n ∈ q.moves, n.tok ≠ tk) → d.handing = false → d.handDue = false →
        Gives (.moveComplete tk (some st)) s fun t =>
          t.dev.seq.launch = some { l with err := some (st, 0xFF, m.pc) } ∧ t.dev.seq.moves = q.moves.filter (·.tok != tk) ∧
          t.dev.seq.x = q.x ∧ t.dev.seq.pc = q.pc))

/-- With four equal digests, an AOP that executes, sets no reserved field and breaks no rule of R120 is issued when no operation is in issue: it captures the descriptors that KIND names, becomes the operation in issue, and the program goes on four slots later; nothing else changes. Behind an operation in issue it stalls with WAIT 1; a broken rule makes it illegal with the lowest of its causes; a reserved field set makes it illegal with cause 0x01 whether or not it executes; one that does not execute only goes on. -/
def Obligations.ArrayOperationIssues : Prop :=
  ∀ (s : State) (a : AopArgs) (v : Word),
    let q := s.dev.seq
    let g := s.dev.guarded (a.s0.extractLsb' 52 3) (a.s0.getLsbD 55)
    let c := Instr.aop a ⟨v, v, v, v⟩
    s.seqFree → q.pc + 4 < q.imem.length →
      (aopReserved a = false → g = true → q.aopCause a s.dev.lsBytes = none →
        (q.inIssue = none → Gives c s fun t => ∃ o : ArrayOp, o = q.captureAop a ∧
          o.id = q.nextOp ∧ o.pc = q.pc ∧ o.kind = (a.s0.extractLsb' 50 2).toNat ∧
          (o.kind % 2 = 1 → o.da = q.dr (a.s0.extractLsb' 36 6).toNat ∧ o.db = q.dr (a.s0.extractLsb' 30 6).toNat ∧ o.mStarted = false) ∧
          (2 ≤ o.kind → o.dc = q.dr (a.s0.extractLsb' 24 6).toNat ∧ o.df = q.dr (a.s0.extractLsb' 18 6).toNat ∧ o.fStarted = false) ∧
          AtSlot s t (q.pc + 4) { q with ops := q.ops ++ [o], nextOp := q.nextOp + 1, inIssue := some o.id }) ∧
        (q.inIssue.isSome = true → Gives c s fun t =>
          t.dev.seq = { q with stall := some (.aop a), stallAt := s.dev.tick } ∧ t.dev.regs = (s.dev.wr REEF_SEQ_STATUS_WAIT 1).regs)) ∧
      (aopReserved a = false → g = true → ∀ k, q.aopCause a s.dev.lsBytes = some k → StopsIllegal c s k) ∧
      (aopReserved a = true → StopsIllegal c s 0x01) ∧
      (aopReserved a = false → g = false → q.inIssue = none → Gives c s fun t => AtSlot s t (q.pc + 4) q)

/-- When three sequencers agree on the digest of an AOP and one differs, the operation is not issued: the die's FAULTED bit is set and its LIVE bit cleared, one CORRECTED event names the die, and the sequencers wait for the resynchronisation with WAIT 7. RESYNC_COMPLETE then sets its LIVE bit, counts RESYNCS, hands the leader's role to the next die when the faulted one led, and issues the operation. When no three digests agree, the coherent domain goes down. -/
def Obligations.LockstepFaultsAreFound : Prop :=
  ∀ (s : State) (a : AopArgs) (v w : Word) (die : Nat), s.runs →
    let q := s.dev.seq
    (v ≠ w → die < 4 → s.seqFree → q.faultAt.getD die none = none →
      let dig : Digests := ⟨if die = 0 then w else v, if die = 1 then w else v, if die = 2 then w else v, if die = 3 then w else v⟩
      Gives (.aop a dig) s fun t =>
        t.dev.seq.ops = q.ops ∧ t.dev.seq.x = q.x ∧ t.dev.seq.pc = q.pc ∧ t.dev.seq.stall = some (.resync a die) ∧
        t.dev.rd REEF_SEQ_STATUS_WAIT = 7 ∧ (t.dev.rd REEF_LOCKSTEP_FAULTED).testBit die = true ∧
        (t.dev.rd REEF_SEQ_STATUS_LIVE).testBit die = false ∧
        t.dev.tdm.reports = s.dev.tdm.reports ++ [⟨1, 1, 1, die, q.pc, 0, 0⟩] ∧
        t.dev.tiles = s.dev.tiles ∧ t.dev.pool = s.dev.pool) ∧
    (v ≠ w → ∀ x y, x ≠ v → x ≠ w → y ≠ v → y ≠ w → s.seqFree → Gives (.aop a ⟨v, w, x, y⟩) s fun t =>
      t.dev.rd COH_STATUS_FATAL = 1 ∧ t.dev.rd COH_STATUS_FATAL_CAUSE = 3 ∧ t.dev.seq = q) ∧
    (die < 4 → q.stall = some (.resync a die) → s.dev.rd REEF_SEQ_STATUS_WAIT = 7 → q.inIssue = none →
      s.dev.guarded (a.s0.extractLsb' 52 3) (a.s0.getLsbD 55) = true → aopReserved a = false →
      q.aopCause a s.dev.lsBytes = none → q.pc + 4 < q.imem.length →
      Gives (.resyncComplete ⟨v, v, v, v⟩) s fun t =>
        t.dev.seq = { q with ops := q.ops ++ [q.captureAop a], nextOp := q.nextOp + 1, inIssue := some q.nextOp, stall := none, pc := q.pc + 4 } ∧
        (t.dev.rd REEF_SEQ_STATUS_LIVE).testBit die = true ∧
        t.dev.rd REEF_LOCKSTEP_RESYNCS = min (2 ^ 32 - 1) (s.dev.rd REEF_LOCKSTEP_RESYNCS + 1) ∧
        t.dev.rd REEF_STATUS_LEADER = (if s.dev.rd REEF_STATUS_LEADER = die then (die + 1) % 4 else s.dev.rd REEF_STATUS_LEADER))

/-- A matrix part that may start writes each output of its region in its bank as the blocks in order give it, on every tile, and leaves local store and the other bank; the operation is no longer in issue when it was. A flow part that may start only starts; at its end its outputs are those of the flow chain, and with HEN its Reef-wide summary stands valid in H[HSEL]. ARRAY_OP_DONE removes an operation whose parts have ended. None of them touches an X register, a guard, a descriptor or the PC, and a part that may not start changes nothing. -/
def Obligations.ArrayOperationPartsRun : Prop :=
  ∀ (s : State) (op : Nat) (o : ArrayOp) (l : SeqLaunch), s.runs →
    let q := s.dev.seq
    q.ops.find? (·.id == op) = some o → q.launch = some l → l.err = none → q.stall = none → s.dev.handDue = false →
    let mine := fun (f : ArrayOp → ArrayOp) => { q with ops := updWhere (·.id == op) f q.ops }
    (q.matrixMay o = true → (s.dev.matrixPart o).2 = false → descRows o.da ≤ 64 → descCols o.db ≤ 128 → o.mbank < 2 →
      Gives (.matrixPartStart op) s fun t =>
        (∀ tile i j, tile < 640 → i < descRows o.da → j < descCols o.db →
          t.dev.tiles.accAt tile o.mbank i j = (outputAt s.dev.tiles tile o i j).1 % 2 ^ 32) ∧
        (∀ tile i j, tile < 640 → i < 64 → j < 128 → t.dev.tiles.accAt tile (1 - o.mbank) i j = s.dev.tiles.accAt tile (1 - o.mbank) i j) ∧
        t.dev.tiles.ls = s.dev.tiles.ls ∧
        t.dev = { s.dev with tiles := t.dev.tiles, seq := { mine (fun o => { o with mStarted := true }) with
          inIssue := if q.inIssue = some op then none else q.inIssue } }) ∧
    (q.matrixMay o = false → GivesDev (.matrixPartStart op) s s.dev) ∧
    (q.flowMay o = true → (∀ tile, tile < 640 → flowBad s.dev.tiles tile o = false) → Gives (.flowPartStart op) s fun t =>
      t.dev = { s.dev with seq := { mine (fun o => { o with fStarted := true }) with
        inIssue := if o.kind = 2 ∧ q.inIssue = some op then none else q.inIssue } }) ∧
    (q.flowMay o = false → GivesDev (.flowPartStart op) s s.dev) ∧
    (o.fStarted = true → o.fEnded = false → (s.dev.flowPart o).1.handDue = false →
      Gives (.flowPartEnd op) s fun t =>
        t.dev.tiles = (s.dev.flowPart o).1.tiles ∧
        t.dev.seq = { mine (fun o => { o with fEnded := true }) with h := t.dev.seq.h, hValid := t.dev.seq.hValid } ∧
        (∀ r, t.dev.seq.hr r = if o.hen = true ∧ r = o.hsel then BitVec.ofNat 64 (s.dev.flowPart o).2 else q.hr r) ∧
        (∀ r, r < 16 → t.dev.seq.hValid.getLsbD r = (q.hValid.getLsbD r || (o.hen && r == o.hsel)))) ∧
    (o.mStarted = true → o.fEnded = true → GivesDev (.arrayOpDone op) s { s.dev with seq := { q with
      ops := q.ops.filter (·.id != op), inIssue := if q.inIssue = some op then none else q.inIssue } })

/-- ENQ hands the 128 bytes of constant memory at X[RA] + IMM to the queue X[RB]: X[RD] takes HANDLE_INVALID (5) for a queue that is not device-owned, not of the launch's context or draining; BUSY (14) when it holds 2^LOG2 entries; else OK, and the queue holds the entry with SEQ set to TAIL + 1 and the launch as its parent, and TAIL has risen by 1. Beyond the constant buffer ENQ is illegal with cause 0x06. FSIG raises VALUE of the fence X[RA] to the larger of itself and X[RB], at most 2^63 - 1, when the fence is of the launch's context and its queue is the signaller; any other signal is discarded with FRONT_END INFO event 5. Nothing else changes but the PC. -/
def Obligations.SequencerEnqueuesAndSignals : Prop :=
  ∀ (s : State) (a : SeqArgs) (l : SeqLaunch), s.seqTakes a → s.dev.seq.launch = some l →
    let q := s.dev.seq
    let p := (q.xr a.ra.toNat + a.imm.signExtend 64).toNat
    let qid := (q.xr a.rb.toNat).toNat
    let answers := fun (code : Word) => Gives (.seqEnq a) s fun t => AtSlot s t (q.pc + 1) { q with x := t.dev.seq.x } ∧
      ∀ r, r < 64 → t.dev.seq.xr r = if r = a.rd.toNat ∧ r ≠ 0 then code else q.xr r
    (p + 128 ≤ q.cmem.length → qid < 8192 →
      ((s.dev.queue? qid = none ∨ s.dev.rd (FE_Q_STATE_DEVICE_OWNED qid) = 0 ∨ s.dev.rd (FE_Q_STATE_TAG qid) ≠ l.tag ∨
        s.dev.qState qid = 6) → answers 5) ∧
      (∀ qu, s.dev.queue? qid = some qu → s.dev.rd (FE_Q_STATE_DEVICE_OWNED qid) = 1 → s.dev.rd (FE_Q_STATE_TAG qid) = l.tag →
        s.dev.qState qid ≠ 6 →
        (2 ^ qu.sqLog2 ≤ qu.devRing.length → answers 14) ∧
        (qu.devRing.length < 2 ^ qu.sqLog2 → Gives (.seqEnq a) s fun t =>
          let bs := (q.cmem.drop p).take 128
          let e := BitVec.ofNat 1024 (leNat (bs.take 4 ++ leBytes 4 (s.dev.rd (FE_Q_COUNT_TAIL qid) + 1) ++ bs.drop 8))
          t.dev.queue? qid = some { qu with devRing := qu.devRing ++ [(e, l.op)] } ∧
          t.dev.rd (FE_Q_COUNT_TAIL qid) = (s.dev.rd (FE_Q_COUNT_TAIL qid) + 1) % 2 ^ 32 ∧
          RegsKept s.dev t.dev [(FE_Q_COUNT_TAIL qid).reg, REEF_SEQ_STATUS_PC.reg] ∧
          (∀ r, r < 64 → t.dev.seq.xr r = if r = a.rd.toNat ∧ r ≠ 0 then 0 else q.xr r) ∧
          t = { s with dev := { s.dev with regs := t.dev.regs, seq := { q with x := t.dev.seq.x, pc := q.pc + 1 },
                                           fe := { s.dev.fe with queues := t.dev.fe.queues } } }))) ∧
    (q.cmem.length < p + 128 → StopsIllegal (.seqEnq a) s 0x06) ∧
    (∀ o, s.dev.op? l.op = some o →
      let i := (q.xr a.ra.toNat).toNat
      let v := (q.xr a.rb.toNat).toNat
      (∀ f, i < 65536 → s.dev.fence? i = some f → f.tag = l.tag → f.signaller = some o.qid → Gives (.seqFsig a) s fun t =>
        t.dev.rd (FE_FENCE_VALUE i) = max (s.dev.rd (FE_FENCE_VALUE i)) (min v (2 ^ 63 - 1)) ∧
        RegsKept s.dev t.dev [(FE_FENCE_VALUE i).reg, REEF_SEQ_STATUS_PC.reg] ∧
        t = { s with dev := { s.dev with regs := t.dev.regs, seq := { q with pc := q.pc + 1 } } }) ∧
      ((∀ f, s.dev.fence? i = some f → f.tag ≠ l.tag ∨ f.signaller ≠ some o.qid) → Gives (.seqFsig a) s fun t =>
        t.dev.tdm.reports = s.dev.tdm.reports ++ [⟨7, 0, 5, o.qid, i, v, 0⟩] ∧
        t = { s with dev := { s.dev with regs := (s.dev.wr REEF_SEQ_STATUS_PC (q.pc + 1)).regs, seq := { q with pc := q.pc + 1 },
                                         tdm := t.dev.tdm } }))

/-- ROTP waits with WAIT 4 for issued operations and then runs the rotation slot on the four dies; with no die due it counts 4 SKIPPED and clears FORCE_NEXT. YLDP with a hand-over due, another context waiting and nothing outstanding begins the save: REEF_STATUS.STATE reads 3, the saved range is X[RA], X[RB] and the banks IMM[1:0]; with no hand-over due it only goes on. TALLY outside MIRRORING only goes on; on a mirroring windward TSEQ rises by 1, the digest over TSEQ, IMM and the sets is sent and the launch is held until it is answered; IMM with reserved bits, no set or a set beyond 63 is illegal with cause 0x01. A slot whose opcode Table 4.8 does not list ends the launch ABORTED with cause 0x01 and a CONTAINED event, guard or not. -/
def Obligations.SequencerMarkedPoints : Prop :=
  ∀ (s : State) (a : SeqArgs) (l : SeqLaunch), s.seqFree → s.dev.seq.launch = some l → s.dev.seq.pc + 1 < s.dev.seq.imem.length →
    let q := s.dev.seq
    let exe := s.dev.guarded a.gi a.gn = true
    (q.ops ≠ [] → Gives (.seqRotp a) s fun t => t.dev.seq = { q with stall := some (.instr 0x90 a), stallAt := s.dev.tick } ∧
      t.dev.regs = (s.dev.wr REEF_SEQ_STATUS_WAIT 4).regs) ∧
    (exe → q.ops = [] →
      (Gives (.seqRotp a) s fun t => AtSlot { s with dev := s.dev.rotate [0, 1, 2, 3] } t (q.pc + 1) q) ∧
      ((∀ die, die < 4 → s.dev.swapDue die = false) →
        (s.dev.rotate [0, 1, 2, 3]).rd REEF_ROT_STATUS_SKIPPED = min (2 ^ 24 - 1) (s.dev.rd REEF_ROT_STATUS_SKIPPED + 4) ∧
        (s.dev.rotate [0, 1, 2, 3]).rd REEF_ROT_CTRL_FORCE_NEXT = 0 ∧
        RegsKept s.dev (s.dev.rotate [0, 1, 2, 3]) [REEF_ROT_STATUS_SKIPPED.reg, REEF_ROT_CTRL_FORCE_NEXT.reg] ∧
        s.dev.rotate [0, 1, 2, 3] = { s.dev with regs := (s.dev.rotate [0, 1, 2, 3]).regs })) ∧
    (s.dev.handDue = false → Gives (.seqYldp a) s fun t => AtSlot s t (q.pc + 1) q) ∧
    (∀ w r, exe → s.dev.handDue = true → s.dev.tiles.waiting = w :: r → l.startTick = none → q.ops = [] → q.moves = [] →
      Gives (.seqYldp a) s fun t =>
        t.dev.rd REEF_STATUS_STATE = 3 ∧ t.dev.rd REEF_SEQ_STATUS_PC = (q.pc + 1) % 2 ^ 16 ∧
        RegsKept s.dev t.dev [REEF_STATUS_STATE.reg, REEF_SEQ_STATUS_PC.reg] ∧
        t = { s with dev := { s.dev with
          regs := t.dev.regs, tiles := { s.dev.tiles with handover := .saving w, waiting := r },
          seq := { q with pc := q.pc + 1, yldRange := ((q.xr a.ra.toNat).toNat, (q.xr a.rb.toNat).toNat), yldBanks := a.imm.extractLsb' 0 2 } } }) ∧
    (let count := (a.imm.extractLsb' 8 8).toNat
     let first := (a.imm.extractLsb' 0 8).toNat
     (exe → (a.imm.extractLsb' 16 16 ≠ 0 ∨ count = 0 ∨ 64 < first + count) → StopsIllegal (.seqTally a) s 0x01) ∧
     (exe → a.imm.extractLsb' 16 16 = 0 → count ≠ 0 → first + count ≤ 64 → q.ops = [] → q.moves = [] →
      (s.dev.twState ≠ 3 → Gives (.seqTally a) s fun t => AtSlot s t (q.pc + 1) q) ∧
      (∀ d' sets, s.dev.twState = 3 → s.dev.tallySets l.tag count first = .ok (d', sets) → d'.seq = q → d'.isWindward = true →
        Gives (.seqTally a) s fun t =>
          let n := d'.twn.tseq + 1
          let g := digest256 (leBytes 8 n ++ leBytes 4 a.imm.toNat ++ sets)
          t.dev.twn = { d'.twn with tseq := n, ownDig := some (n, g), heldTally := some l.op } ∧
          t.dev.rd TWN_TALLY_LAST_TAKEN = n % 2 ^ 32 ∧ t.dev.out = d'.out ++ [.twin n 5 g] ∧
          t.dev.seq = { q with pc := q.pc + 1 } ∧
          t = { s with dev := { d' with regs := t.dev.regs, twn := t.dev.twn, out := t.dev.out, seq := t.dev.seq } }))) ∧
    (∀ op : BitVec 8, knownOpcode op.toNat = false →
      StopsIllegal (.unknownOpcode op) s 0x01 ∧
      (q.ops = [] → q.moves = [] → s.dev.handDue = false → ∀ o, s.dev.op? l.op = some o → o.ended = false →
        Gives (.unknownOpcode op) s fun t =>
          t.dev.seq = { q with launch := none, stall := none, inIssue := none } ∧ t.dev.rd REEF_SEQ_STATUS_STATE = 4 ∧
          t.dev.rd REEF_SEQ_FAULT_VALID = 1 ∧ t.dev.rd REEF_SEQ_FAULT_PC = q.pc % 2 ^ 16 ∧ t.dev.rd REEF_SEQ_FAULT_CAUSE = 1 ∧
          t.dev.rd REEF_SEQ_FAULT_STATUS = 1 ∧
          t.dev.tdm.reports = s.dev.tdm.reports ++ [⟨1, 2, 2, s.dev.rd REEF_STATUS_LEADER, q.pc, 1, 0⟩] ∧
          (∃ o', t.dev.op? l.op = some o' ∧ o'.phase = .done .aborted 1 0)))

/-- LAUNCH_ARRAY on free sequencers takes the oldest dispatched array launch of the Reef's owner, with its image address and start tick, and STATE reads LOADING; while a launch is held it changes nothing. IMAGE_LOAD_COMPLETE of a header in range and clean slots sets the launch state: X, H, D, order memory and moves clear, G0 alone 1, PC at ENTRY, instruction memory the slots, constant memory the relocated buffer; a launch without start tick starts and its operation runs, a poisoned image ends it POISON_CONSUMED with cause 0xFF. DOMAIN_LAUNCH_START before the tick changes nothing, in cycle 0 of the tick starts the launch with TD_OK 1 when the offset is within 20,000, and later starts it with TD_OK 0 and counts LATE. A split change walks every tile's L1, and the end of the last walk sets the new split. -/
def Obligations.ArrayLaunchesStart : Prop :=
  ∀ (s : State), s.runs → s.dev.handing = false →
    let q := s.dev.seq
    (∀ op o, s.dev.ready? op 1 = some o →
      (q.launch.isSome = true → GivesDev (.launchArray op) s s.dev) ∧
      (q.launch = none → s.dev.tiles.splitNext = none →
        (s.dev.fe.ops.find? fun p => p.opcode == 1 && p.phase == .dispatched && p.tag == s.dev.rd REEF_STATUS_OWNER_TAG).map (·.id) = some op →
        let st := entF o.entry 64 8
        GivesDev (.launchArray op) s { s.dev with
          regs := (s.dev.wr REEF_SEQ_STATUS_STATE 1).regs
          seq := { q with launch := some ⟨op, o.tag, BitVec.ofNat 64 (entF o.entry 32 8), if st = 2 ^ 64 - 1 then none else some st, false, false, none⟩ } })) ∧
    (∀ l d hb, q.launch = some l → l.loaded = false → s.dev.vgather l.tag l.image.toNat 64 .image = .ok (d, hb) →
      let h := leNat (hb.map (·.1))
      (∀ d' ib o, hb.any (·.2) = false → imageOk h = true → l.startTick = none →
        d.vgather l.tag (l.image.toNat + 64) (8 * hdrF h 4 4) .image = .ok (d', ib) → ib.any (·.2) = false →
        d'.op? l.op = some o → o.phase = .dispatched → Gives (.imageLoadComplete false) s fun t =>
          t.dev.seq = { d'.seq with
            x := [], g := 1, h := [], hValid := 0, d := [], pc := hdrF h 8 4, ordMem := [], ordSegs := [], moves := [], ops := []
            imem := (chunks 8 (hdrF h 4 4) (ib.map (·.1))).map (BitVec.ofNat 64), cmem := o.cb, inIssue := none, stall := none
            launch := some { l with loaded := true, started := true } } ∧
          t.dev.rd REEF_SEQ_STATUS_STATE = 2 ∧ t.dev.rd REEF_SEQ_STATUS_WAIT = 0 ∧ t.dev.rd REEF_SEQ_STATUS_PC = hdrF h 8 4 % 2 ^ 16 ∧
          t.dev.op? l.op = some { o with phase := .running, start := d'.tick } ∧
          t = { s with dev := { d' with regs := t.dev.regs, seq := t.dev.seq, fe := { d'.fe with ops := t.dev.fe.ops } } }) ∧
      (∀ o, d.seq = q → q.ops = [] → q.moves = [] → l.err = none → d.op? l.op = some o → o.ended = false →
        Gives (.imageLoadComplete true) s fun t =>
          t.dev.seq.launch = none ∧ t.dev.rd REEF_SEQ_STATUS_STATE = 3 ∧
          ∃ o', t.dev.op? l.op = some o' ∧ o'.phase = .done .poisonConsumed 0xFF 0)) ∧
    (∀ l k, q.launch = some l → l.startTick = some k → l.loaded = true → l.started = false → s.dev.domRunning = true →
      let off := sgn 16 (s.dev.rd NFP_DOM_STATUS_OFFSET)
      let begun := fun (t : State) => t.dev.seq = { q with launch := some { l with loaded := true, started := true } } ∧
        t.dev.rd REEF_SEQ_STATUS_STATE = 2 ∧
        t = { s with dev := { s.dev with regs := t.dev.regs, seq := t.dev.seq, fe := { s.dev.fe with ops := t.dev.fe.ops } } }
      (s.dev.rd NFP_DOM_TICK_TICK < k → GivesDev .domainLaunchStart s s.dev) ∧
      (s.dev.rd NFP_DOM_TICK_TICK = k → s.dev.nfp.dom.clock = s.dev.nfp.dom.tickAt → Gives .domainLaunchStart s fun t =>
        begun t ∧ t.dev.rd NFP_DOM_STATUS_TD_OK = (if -20000 ≤ off ∧ off ≤ 20000 then 1 else s.dev.rd NFP_DOM_STATUS_TD_OK)) ∧
      (k < s.dev.rd NFP_DOM_TICK_TICK → Gives .domainLaunchStart s fun t =>
        begun t ∧ t.dev.rd NFP_DOM_STATUS_TD_OK = 0 ∧ t.dev.rd NFP_DOM_STATUS_TD_CAUSE = 1 ∧
        t.dev.rd REEF_DET_STATUS_LATE = min (2 ^ 16 - 1) (s.dev.rd REEF_DET_STATUS_LATE + 1))) ∧
    (∀ op ls ps, s.dev.tiles.splitNext = some (op, ls, ps) → s.dev.thr.launches = [] →
      (q.launch = none → s.dev.tiles.splitWalk = false → s.dev.tiles.l1Busy = [] →
        GivesDev (.splitChange op) s { s.dev with tiles := { s.dev.tiles with splitWalk := true, l1Busy := List.range 640 } }) ∧
      (∀ tile, s.dev.tiles.splitWalk = true → s.dev.tiles.l1Busy = [tile] → (∀ x ∈ s.dev.l1Lines tile, x.dirty = 0) →
        Gives (.l1InvalidateAllComplete tile) s fun t =>
          t.dev.tiles = { s.dev.tiles with l1 := s.dev.tiles.l1.filter (·.tile != tile), l1Busy := [], split := ls, pool := ps,
                                           splitNext := none, splitWalk := false } ∧
          t.dev.rd REEF_STATUS_LS_SEGS = ls % 2 ^ 4 ∧
          t = { s with dev := { s.dev with regs := (s.dev.wr REEF_STATUS_LS_SEGS ls).regs, tiles := t.dev.tiles } }))

/-- SLICE_EXPIRY with another context waiting, SLICE not 0 and the Reef owned makes a hand-over due; with no array program it begins at once, saving all local store and both banks; otherwise nothing more changes. YIELD_WAIT_EXPIRY moves a due hand-over to the next array-operation boundary, begins it where the program stands at one, and does nothing in a domain launch. REEF_SAVE_COMPLETE waits for the threads' accesses; with clean L1s it keeps the owner's sequencers, threads, split, local store and banks, puts the owner at the end of the waiting contexts, and begins the restore, REEF_STATUS unowned in RESTORING with the cycles in LAST_SAVE. REEF_RESTORE_COMPLETE gives the Reef to the new owner, counts HANDOVERS and puts back what was saved of it: split, pool, threads and, in the saved range, local store. -/
def Obligations.ReefChangesHands : Prop :=
  ∀ (s : State), s.runs →
    let T := s.dev.tiles
    let q := s.dev.seq
    (∀ w r, T.handover = .idle → T.waiting = w :: r → s.dev.rd REEF_HANDOVER_SLICE ≠ 0 → s.dev.rd REEF_STATUS_OWNER_VALID = 1 →
      ((∃ l, q.launch = some l ∧ l.loaded = true) →
        GivesDev .sliceExpiry s { s.dev with tiles := { T with handover := .due, dueAt := s.dev.now } }) ∧
      (q.launch = none → GivesDev .sliceExpiry s { s.dev with
        regs := (s.dev.wr REEF_STATUS_STATE 3).regs
        tiles := { T with handover := .saving w, waiting := r, dueAt := s.dev.now }
        seq := { q with yldRange := (0, T.split * 131072), yldBanks := 3 } })) ∧
    ((T.handover ≠ .idle ∨ T.waiting = [] ∨ s.dev.rd REEF_HANDOVER_SLICE = 0) → GivesDev .sliceExpiry s s.dev) ∧
    (∀ l, q.launch = some l → l.loaded = true → l.err = none →
      (l.startTick.isSome = true ∨ T.handover ≠ .due → GivesDev .yieldWaitExpiry s s.dev) ∧
      (l.startTick = none → T.handover = .due → (q.ops ≠ [] ∨ q.moves ≠ []) →
        GivesDev .yieldWaitExpiry s { s.dev with tiles := { T with handover := .dueBoundary } }) ∧
      (∀ w r, l.startTick = none → T.handover = .due → T.waiting = w :: r → s.dev.rd REEF_STATUS_OWNER_VALID = 1 → q.ops = [] → q.moves = [] →
        GivesDev .yieldWaitExpiry s { s.dev with
          regs := (s.dev.wr REEF_STATUS_STATE 3).regs, tiles := { T with handover := .saving w, waiting := r }
          seq := { q with yldRange := (0, T.split * 131072), yldBanks := 3 } })) ∧
    (∀ w cycles, T.handover = .saving w →
      (s.dev.thr.accs ≠ [] → GivesDev (.reefSaveComplete cycles) s s.dev) ∧
      (s.dev.thr.accs = [] → T.l1 = [] → s.dev.resident = true → Gives (.reefSaveComplete cycles) s fun t =>
        let tag := s.dev.rd REEF_STATUS_OWNER_TAG
        (∃ v : Saved, t.dev.tiles = { T with handover := .restoring w, waiting := T.waiting ++ [tag], saved := T.saved.filter (·.tag != tag) ++ [v] } ∧
          v.tag = tag ∧ v.seq = q ∧ v.thr = s.dev.thr ∧ v.split = T.split ∧ v.pool = T.pool ∧
          (v.lo, v.len) = q.yldRange ∧ v.banks = q.yldBanks ∧
          (∀ p, p ∈ v.ls ↔ p ∈ T.ls ∧ inRange v.lo v.len 1 p.1 = true) ∧ (∀ p, p ∈ v.acc ↔ p ∈ T.acc ∧ inBanks v.banks p.1 = true)) ∧
        t.dev.rd REEF_STATUS_OWNER_VALID = 0 ∧ t.dev.rd REEF_STATUS_STATE = 4 ∧ t.dev.rd REEF_HO_STATUS_LAST_SAVE = min cycles (2 ^ 32 - 1) ∧
        t = { s with dev := { s.dev with regs := t.dev.regs, tiles := t.dev.tiles, thr := { nextAcc := s.dev.thr.nextAcc },
                                         seq := { faultAt := q.faultAt, nextOp := q.nextOp } } })) ∧
    (∀ w, T.handover = .restoring w → (s.dev.context? w).isSome = true →
      (T.saved.find? (·.tag == w) = none → Gives .reefRestoreComplete s fun t =>
        t.dev.rd REEF_STATUS_OWNER_TAG = w % 2 ^ 16 ∧ t.dev.rd REEF_STATUS_OWNER_VALID = 1 ∧ t.dev.rd REEF_STATUS_STATE = 1 ∧
        t.dev.rd REEF_HO_STATUS_HANDOVERS = min (2 ^ 32 - 1) (s.dev.rd REEF_HO_STATUS_HANDOVERS + 1) ∧
        RegsKept s.dev t.dev [REEF_STATUS_STATE.reg, REEF_HO_STATUS_HANDOVERS.reg] ∧
        t = { s with dev := { s.dev with regs := t.dev.regs, tiles := { T with handover := .idle, ownerSince := s.dev.now } } }) ∧
      (∀ v, T.saved.find? (·.tag == w) = some v → v.seq.launch = none → Gives .reefRestoreComplete s fun t =>
        t.dev.rd REEF_STATUS_OWNER_TAG = w % 2 ^ 16 ∧ t.dev.rd REEF_STATUS_STATE = 1 ∧ t.dev.rd REEF_STATUS_LS_SEGS = v.split % 2 ^ 4 ∧
        t.dev.tiles.split = v.split ∧ t.dev.tiles.pool = v.pool ∧ t.dev.tiles.handover = .idle ∧
        t.dev.tiles.saved = T.saved.filter (·.tag != w) ∧ t.dev.thr = { v.thr with nextAcc := s.dev.thr.nextAcc } ∧
        t.dev.seq = { v.seq with faultAt := q.faultAt, stallAt := s.dev.tick } ∧
        (swf (fun _ => (0 : Byte)) v.ls = true → (∀ p ∈ v.ls, inRange v.lo v.len 1 p.1 = true) → ∀ tile a, tile < 640 → a < 2 ^ 21 →
          t.dev.tiles.lsByte tile a = if v.lo ≤ a ∧ a < v.lo + v.len then sget (fun _ => 0) v.ls (tile * 2 ^ 21 + a) else T.lsByte tile a) ∧
        t = { s with dev := { s.dev with regs := t.dev.regs, tiles := t.dev.tiles, seq := t.dev.seq, thr := t.dev.thr } }))

/-- A consistent write of REEF_SRAM_LIMIT sets both limits; an inconsistent one is discarded with the ACCESS INFO event 2. A firmware rotation of a die that is due swaps its next tile for its lowest spare: the logical tile's map entry names the spare, which is ACTIVE, and the other is UNDER_TEST from now; ROTATIONS, LAST_OUT and FORCE_NEXT follow; a die not due counts SKIPPED; while an array program runs nothing happens. A spare due for retest goes UNDER_TEST. A tile in test that passes becomes SPARE with its test ended now; one that fails becomes RETIRED with a record entry of kind 1, a RAS CONTAINED event, and FAILED counted; both count TESTED. -/
def Obligations.TilesAreTestedInRotation : Prop :=
  ∀ (s : State), s.runs → s.dev.rd GLB_STATUS_READY = 1 →
    let T := s.dev.tiles
    (∀ v, s.ready → s.dev.isWindward = false →
      (2 ≤ fieldOf v 3 0 ∧ fieldOf v 3 0 ≤ fieldOf v 7 4 ∧ fieldOf v 7 4 ≤ 14 → Gives (.reefSramLimitWrite v) s fun t =>
        t.dev.rd REEF_SRAM_LIMIT_LS_MIN = fieldOf v 3 0 ∧ t.dev.rd REEF_SRAM_LIMIT_LS_MAX = fieldOf v 7 4 ∧
        RegsKept s.dev t.dev [REEF_SRAM_LIMIT_LS_MIN.reg] ∧ t = { s with dev := { s.dev with regs := t.dev.regs } }) ∧
      (fieldOf v 3 0 < 2 ∨ fieldOf v 7 4 < fieldOf v 3 0 ∨ 14 < fieldOf v 7 4 →
        GivesDev (.reefSramLimitWrite v) s (s.dev.event 0 0 2 6 0x7F0006000108 v.toNat 0))) ∧
    (∀ die dies, die < 4 → (∀ i, i < 4 → dies.getLsbD i = decide (i = die)) → s.dev.seq.launch = none → s.dev.handing = false →
      (∀ out inn l, s.dev.swapDue die = true → s.dev.nextOut die = some out → (s.dev.tilesIn die 2).head? = some inn →
        s.dev.logicalOf die out = some l → Gives (.firmwareRotation dies) s fun t =>
          t.dev.rd (tmapFld l) = tileCoord die inn ∧ t.dev.pts die inn = 1 ∧ t.dev.pts die out = 3 ∧
          (∀ i, i < 168 → i ≠ inn → i ≠ out → t.dev.pts die i = s.dev.pts die i) ∧
          t.dev.rd REEF_ROT_STATUS_ROTATIONS = min (2 ^ 24 - 1) (s.dev.rd REEF_ROT_STATUS_ROTATIONS + 1) ∧
          t.dev.rd REEF_ROT_STATUS_LAST_OUT = tileCoord die out ∧ t.dev.rd REEF_ROT_CTRL_FORCE_NEXT = 0 ∧
          (die * 192 + out, s.dev.now) ∈ t.dev.tiles.testing ∧
          t = { s with dev := { s.dev with regs := t.dev.regs, tiles := { T with
            testing := t.dev.tiles.testing, mark := T.mark.filter (· != die * 192 + out), lastSwap := T.lastSwap.set die (some s.dev.now) } } }) ∧
      (s.dev.swapDue die = false → Gives (.firmwareRotation dies) s fun t =>
        t.dev.rd REEF_ROT_STATUS_SKIPPED = min (2 ^ 24 - 1) (s.dev.rd REEF_ROT_STATUS_SKIPPED + 1) ∧ t.dev.rd REEF_ROT_CTRL_FORCE_NEXT = 0 ∧
        RegsKept s.dev t.dev [REEF_ROT_STATUS_SKIPPED.reg, REEF_ROT_CTRL_FORCE_NEXT.reg] ∧
        t = { s with dev := { s.dev with regs := t.dev.regs } })) ∧
    (∀ dies, s.dev.seq.launch.isSome = true → GivesDev (.firmwareRotation dies) s s.dev) ∧
    (∀ die i, die < 4 → i < 168 → s.dev.pts die i = 2 → Gives (.spareRetestDue die i) s fun t =>
      t.dev.pts die i = 3 ∧ (∀ k, k < 168 → k ≠ i → t.dev.pts die k = s.dev.pts die k) ∧
      (die * 192 + i, s.dev.now) ∈ t.dev.tiles.testing ∧
      RegsKept s.dev t.dev [(REEF_PTS_STATE die (i / 32)).reg, REEF_STATUS_STATE.reg] ∧
      t = { s with dev := { s.dev with regs := t.dev.regs, tiles := { T with testing := t.dev.tiles.testing } } }) ∧
    (∀ die i unit, die < 4 → i < 168 → T.testing.any (·.1 == die * 192 + i) = true → s.dev.pts die i = 3 →
      (Gives (.tileSelfTestEnd die i 0) s fun t =>
        t.dev.pts die i = 2 ∧ t.dev.rd RAS_TILE_CNT_TESTED = min (2 ^ 32 - 1) (s.dev.rd RAS_TILE_CNT_TESTED + 1) ∧
        t.dev.tiles = { T with testing := T.testing.filter (·.1 != die * 192 + i), lastTest := t.dev.tiles.lastTest } ∧
        sget (fun _ => 0) t.dev.tiles.lastTest (die * 192 + i) = s.dev.now ∧
        RegsKept s.dev t.dev [(REEF_PTS_STATE die (i / 32)).reg, REEF_STATUS_STATE.reg, RAS_TILE_CNT_TESTED.reg] ∧
        t = { s with dev := { s.dev with regs := t.dev.regs, tiles := t.dev.tiles } }) ∧
      (unit ≠ 0 → s.dev.nv.record.length < 65536 → s.dev.tilesLeft die ≠ 161 → Gives (.tileSelfTestEnd die i unit) s fun t =>
        t.dev.pts die i = 0 ∧ t.dev.rd RAS_TILE_CNT_FAILED = min (2 ^ 16 - 1) (s.dev.rd RAS_TILE_CNT_FAILED + 1) ∧
        t.dev.nv.record = s.dev.nv.record ++ [rasEntry 1 0 (tileCoord die i) 0 s.dev.now] ∧
        t.dev.tdm.reports = s.dev.tdm.reports ++ [⟨12, 2, 1, tileCoord die i, unit, 0, 0⟩] ∧
        t.dev.tiles = { T with testing := T.testing.filter (·.1 != die * 192 + i) } ∧
        t = { s with dev := { s.dev with regs := t.dev.regs, tiles := t.dev.tiles, nv := t.dev.nv, tdm := t.dev.tdm } }))

/-- ADD, SUB, MUL, MULHI, MULHIU, AND, OR, XOR, SHL, SHR, SAR, MIN, MAX, MINU, MAXU, POPC, CLZ, MAD and MOV work on 32-bit registers, or with FUNC[6] on pairs, and take the sign-extended IMM in place of RB with FUNC[7]: every executing lane's RD takes the function of its own operands as they were before, every other register and every predicate stays, and the path goes on. A shift by the width or more leaves a value that nothing constrains (the spec gives none; assumption 14). MAD in I form and a reserved bit of the R form are illegal with cause 0x01, a register beyond the thread's or an odd pair with cause 0x02, an instruction past the image's end with cause 0x06: the launch ends ABORTED. -/
def Obligations.LaneIntegerInstructions : Prop :=
  LaneInteger Instr.intAdd (fun a => a.ra.toNat :: if a.func.getLsbD 7 then [] else [a.rb]) (fun _ x y _ => some (x + y)) ∧
  LaneInteger Instr.intSub (fun a => a.ra.toNat :: if a.func.getLsbD 7 then [] else [a.rb]) (fun _ x y _ => some (x - y)) ∧
  LaneInteger Instr.intMul (fun a => a.ra.toNat :: if a.func.getLsbD 7 then [] else [a.rb]) (fun _ x y _ => some (x * y)) ∧
  LaneInteger Instr.intMulhi (fun a => a.ra.toNat :: if a.func.getLsbD 7 then [] else [a.rb]) (fun w x y _ => some (BitVec.ofInt w (x.toInt * y.toInt / 2 ^ w))) ∧
  LaneInteger Instr.intMulhiu (fun a => a.ra.toNat :: if a.func.getLsbD 7 then [] else [a.rb]) (fun w x y _ => some (BitVec.ofNat w (x.toNat * y.toNat / 2 ^ w))) ∧
  LaneInteger Instr.intAnd (fun a => a.ra.toNat :: if a.func.getLsbD 7 then [] else [a.rb]) (fun _ x y _ => some (x &&& y)) ∧
  LaneInteger Instr.intOr (fun a => a.ra.toNat :: if a.func.getLsbD 7 then [] else [a.rb]) (fun _ x y _ => some (x ||| y)) ∧
  LaneInteger Instr.intXor (fun a => a.ra.toNat :: if a.func.getLsbD 7 then [] else [a.rb]) (fun _ x y _ => some (x ^^^ y)) ∧
  LaneInteger Instr.intShl (fun a => a.ra.toNat :: if a.func.getLsbD 7 then [] else [a.rb]) (fun w x y _ => if y.toNat < w then some (x <<< y.toNat) else none) ∧
  LaneInteger Instr.intShr (fun a => a.ra.toNat :: if a.func.getLsbD 7 then [] else [a.rb]) (fun w x y _ => if y.toNat < w then some (x >>> y.toNat) else none) ∧
  LaneInteger Instr.intSar (fun a => a.ra.toNat :: if a.func.getLsbD 7 then [] else [a.rb]) (fun w x y _ => if y.toNat < w then some (x.sshiftRight y.toNat) else none) ∧
  LaneInteger Instr.intMin (fun a => a.ra.toNat :: if a.func.getLsbD 7 then [] else [a.rb]) (fun _ x y _ => some (if x.slt y then x else y)) ∧
  LaneInteger Instr.intMax (fun a => a.ra.toNat :: if a.func.getLsbD 7 then [] else [a.rb]) (fun _ x y _ => some (if x.slt y then y else x)) ∧
  LaneInteger Instr.intMinu (fun a => a.ra.toNat :: if a.func.getLsbD 7 then [] else [a.rb]) (fun _ x y _ => some (if x.ult y then x else y)) ∧
  LaneInteger Instr.intMaxu (fun a => a.ra.toNat :: if a.func.getLsbD 7 then [] else [a.rb]) (fun _ x y _ => some (if x.ult y then y else x)) ∧
  LaneInteger Instr.intPopc (fun a => [a.ra.toNat]) (fun w x _ _ => some (BitVec.ofNat w ((List.range w).countP fun i => x.getLsbD i))) ∧
  LaneInteger Instr.intClz (fun a => [a.ra.toNat]) (fun w x _ _ => some (BitVec.ofNat w ((List.range w).countP fun i => decide (x.toNat < 2 ^ i)))) ∧
  LaneInteger Instr.intMov (fun a => if a.func.getLsbD 7 then [] else [a.rb]) (fun _ _ y _ => some y) ∧
  LaneWrites Instr.intMad (fun _ a i => !a.func.getLsbD 7 && a.rsvd == 0 && namedOk i ([a.rd.toNat, a.ra.toNat, a.rb, a.rc].map (·, a.func.getLsbD 6)))
    (fun d i _ a k =>
      let get := fun r => d.thr.operand (a.func.getLsbD 6) (laneKey i.g.tile i.g.slot k) r
      let v := get a.ra.toNat * get a.rb + get a.rc
      if a.func.getLsbD 6 then .r64 (v % 2 ^ 64) else .r32 (v % 2 ^ 32)) ∧
  (∀ s a i, s.laneIssues a i → a.func.getLsbD 7 = true → LaneStops (.intMad a) s i .aborted 0x01 i.first) ∧
  (∀ s a i, s.laneIssues a i → a.func.getLsbD 7 = false → (a.rsvd ≠ 0 → LaneStops (.intAdd a) s i .aborted 0x01 i.first) ∧
    (a.rsvd = 0 → namedOk i ([a.rd.toNat, a.ra.toNat, a.rb].map (·, a.func.getLsbD 6)) = false → LaneStops (.intAdd a) s i .aborted 0x02 i.first)) ∧
  (∀ (s : State) a i, s.runs → s.dev.issue? a = some i → i.l.ninstr ≤ i.p.pc → LaneStops (.intAdd a) s i .aborted 0x06 i.first)

/-- ADD, SUB, MUL, FMA, MIN, MAX, ABS, NEG, RINT, LDEXP, RCP, DIV, SQRT, RSQRT, EXP, EXP2, LOG, LOG2, TANH, SIGMOID, ERF, SIN and COS of FP32 work on registers, those of FP64 on pairs: every executing lane's RD takes the function of Table 5.5 of its operands' values as they were before, computed exactly and rounded once, by RM where Table 5.5 names a rounding and to nearest for MIN, MAX, RSQRT and the functions marked correctly rounded; every other register and every predicate stays, and the path goes on. A pair beyond the thread's registers or odd is illegal with cause 0x02. -/
def Obligations.LaneFloatingPointInstructions : Prop :=
  (∀ p ∈ [(Fmt.b32, Instr.fp32Add), (Fmt.b64, Instr.fp64Add)], let g := p.1
    LaneFloat p.2 g 2 fun rm a b _ => g.round rm false (Machine.Num.add rm (g.decode a) (g.decode b))) ∧
  (∀ p ∈ [(Fmt.b32, Instr.fp32Sub), (Fmt.b64, Instr.fp64Sub)], let g := p.1
    LaneFloat p.2 g 2 fun rm a b _ => g.round rm false (Machine.Num.add rm (g.decode a) (g.decode b).neg)) ∧
  (∀ p ∈ [(Fmt.b32, Instr.fp32Mul), (Fmt.b64, Instr.fp64Mul)], let g := p.1
    LaneFloat p.2 g 2 fun rm a b _ => g.round rm false (Machine.Num.mul (g.decode a) (g.decode b))) ∧
  (∀ p ∈ [(Fmt.b32, Instr.fp32Fma), (Fmt.b64, Instr.fp64Fma)], let g := p.1
    LaneFloat p.2 g 3 fun rm a b c => g.round rm false (Machine.Num.add rm (Machine.Num.mul (g.decode a) (g.decode b)) (g.decode c))) ∧
  (∀ p ∈ [(Fmt.b32, Instr.fp32Min), (Fmt.b64, Instr.fp64Min)], let g := p.1
    LaneFloat p.2 g 2 fun _ a b _ => g.round 0 false (Machine.Num.minMax false (g.decode a) (g.decode b))) ∧
  (∀ p ∈ [(Fmt.b32, Instr.fp32Max), (Fmt.b64, Instr.fp64Max)], let g := p.1
    LaneFloat p.2 g 2 fun _ a b _ => g.round 0 false (Machine.Num.minMax true (g.decode a) (g.decode b))) ∧
  (∀ p ∈ [(Fmt.b32, Instr.fp32Abs), (Fmt.b64, Instr.fp64Abs)], let g := p.1
    LaneFloat p.2 g 1 fun _ a _ _ => g.round 0 false (g.decode a).abs) ∧
  (∀ p ∈ [(Fmt.b32, Instr.fp32Neg), (Fmt.b64, Instr.fp64Neg)], let g := p.1
    LaneFloat p.2 g 1 fun _ a _ _ => g.round 0 false (g.decode a).neg) ∧
  (∀ p ∈ [(Fmt.b32, Instr.fp32Rint), (Fmt.b64, Instr.fp64Rint)], let g := p.1
    LaneFloat p.2 g 1 fun rm a _ _ => g.round 0 false ((g.decode a).rint rm)) ∧
  (∀ p ∈ [(Fmt.b32, Instr.fp32Ldexp), (Fmt.b64, Instr.fp64Ldexp)], let g := p.1
    LaneFloat p.2 g 2 fun rm a b _ => g.round rm false (Machine.Num.ldexp (g.decode a) (g.decode b))) ∧
  (∀ p ∈ [(Fmt.b32, Instr.fp32Rcp), (Fmt.b64, Instr.fp64Rcp)], let g := p.1
    LaneFloat p.2 g 1 fun rm a _ _ => g.div rm (.fin false 1 0) (g.decode a)) ∧
  (∀ p ∈ [(Fmt.b32, Instr.fp32Div), (Fmt.b64, Instr.fp64Div)], let g := p.1
    LaneFloat p.2 g 2 fun rm a b _ => g.div rm (g.decode a) (g.decode b)) ∧
  (∀ p ∈ [(Fmt.b32, Instr.fp32Sqrt), (Fmt.b64, Instr.fp64Sqrt)], let g := p.1
    LaneFloat p.2 g 1 fun rm a _ _ => g.sqrt rm (g.decode a)) ∧
  (∀ p ∈ [(Fmt.b32, Instr.fp32Rsqrt), (Fmt.b64, Instr.fp64Rsqrt)], let g := p.1
    LaneFloat p.2 g 1 fun _ a _ _ => g.rsqrt (g.decode a)) ∧
  (∀ p ∈ [(Fmt.b32, Instr.fp32Exp), (Fmt.b64, Instr.fp64Exp)], let g := p.1
    LaneFloat p.2 g 1 fun _ a _ _ => Func.exp.eval g a) ∧
  (∀ p ∈ [(Fmt.b32, Instr.fp32Exp2), (Fmt.b64, Instr.fp64Exp2)], let g := p.1
    LaneFloat p.2 g 1 fun _ a _ _ => Func.exp2.eval g a) ∧
  (∀ p ∈ [(Fmt.b32, Instr.fp32Log), (Fmt.b64, Instr.fp64Log)], let g := p.1
    LaneFloat p.2 g 1 fun _ a _ _ => Func.log.eval g a) ∧
  (∀ p ∈ [(Fmt.b32, Instr.fp32Log2), (Fmt.b64, Instr.fp64Log2)], let g := p.1
    LaneFloat p.2 g 1 fun _ a _ _ => Func.log2.eval g a) ∧
  (∀ p ∈ [(Fmt.b32, Instr.fp32Tanh), (Fmt.b64, Instr.fp64Tanh)], let g := p.1
    LaneFloat p.2 g 1 fun _ a _ _ => Func.tanh.eval g a) ∧
  (∀ p ∈ [(Fmt.b32, Instr.fp32Sigmoid), (Fmt.b64, Instr.fp64Sigmoid)], let g := p.1
    LaneFloat p.2 g 1 fun _ a _ _ => Func.sigmoid.eval g a) ∧
  (∀ p ∈ [(Fmt.b32, Instr.fp32Erf), (Fmt.b64, Instr.fp64Erf)], let g := p.1
    LaneFloat p.2 g 1 fun _ a _ _ => Func.erf.eval g a) ∧
  (∀ p ∈ [(Fmt.b32, Instr.fp32Sin), (Fmt.b64, Instr.fp64Sin)], let g := p.1
    LaneFloat p.2 g 1 fun _ a _ _ => Func.sin.eval g a) ∧
  (∀ p ∈ [(Fmt.b32, Instr.fp32Cos), (Fmt.b64, Instr.fp64Cos)], let g := p.1
    LaneFloat p.2 g 1 fun _ a _ _ => Func.cos.eval g a) ∧
  (∀ s a i, s.laneIssues a i → a.rsvd = 0 → namedOk i ([a.rd.toNat, a.ra.toNat, a.rb].map (·, true)) = false →
    LaneStops (.fp64Add a) s i .aborted 0x02 i.first)

/-- CVT rounds a float to a narrower one by RM with SAT, rounds it to a signed integer, or an integer to a float; an integer outside a narrower integer type leaves a value that nothing constrains (the spec gives none, assumption 14). CMP and the predicate instructions write P[RD[2:0]], P0 staying true; SEL, LREAD, LPAIR, LROT, VMASK, VFIRST, PMASK and S2R write V[RD]. An exchange reads the source lane's register as it was before, its own where the source does not execute; VFIRST without a true predicate gives 32; S2R code 7 gives the time's low word and latches the high one for code 8. All else stays and the path goes on. CMP with a condition or type code not listed, and S2R codes 9 to 15, are illegal with cause 0x01, as is any CLASS or FUNC not in Table 6.4. -/
def Obligations.LaneConversionsAndPredicates : Prop :=
  LaneWrites Instr.laneCvt (fun _ a i => let src := a.func.toNat / 16; let dst := a.func.toNat % 16
      cvtType src && cvtType dst && a.rsvd == 0 && namedOk i [(a.rd.toNat, elemBits dst == 64), (a.ra.toNat, elemBits src == 64)])
    (fun d i _ a k =>
      let src := a.func.toNat / 16
      let dst := a.func.toNat % 16
      let code := d.thr.operand (elemBits src == 64) (laneKey i.g.tile i.g.slot k) a.ra.toNat
      let out := fun v => if elemBits dst == 64 then LRes.r64 v else .r32 v
      match elemFmt src, elemFmt dst with
      | some f, some g => out (g.round a.rm (a.sat && !(decide (f.ebits ≤ g.ebits) && decide (f.mbits ≤ g.mbits))) (f.decode (code % 2 ^ elemBits src)))
      | some f, none => out (codeOf (elemBits dst) (Machine.Num.toInt a.rm (elemBits dst) (f.decode (code % 2 ^ elemBits src))))
      | none, some g => out (g.round a.rm a.sat (.ofInt (signedOf (elemBits src) code)))
      | none, none =>
        let v := signedOf (elemBits src) code
        if -(2 ^ (elemBits dst - 1) : Int) ≤ v ∧ v < 2 ^ (elemBits dst - 1) then out (codeOf (elemBits dst) v)
        else if elemBits dst == 64 then .open64 else .open32) ∧
  (let ok := fun (_ : Dev) (a : LaneArgs) (i : Issue) => let ty := a.func.toNat / 16 % 8
     !a.func.getLsbD 3 && decide (ty < 6) && decide (a.func.toNat % 8 < 6) && (a.func.getLsbD 7 || a.rsvd == 0) &&
       namedOk i (((a.ra.toNat :: if a.func.getLsbD 7 then [] else [a.rb]).map (·, decide (3 ≤ ty))))
   LaneWrites Instr.laneCmp ok (fun d i _ a k =>
      let ty := a.func.toNat / 16 % 8
      let get := fun r => d.thr.operand (decide (3 ≤ ty)) (laneKey i.g.tile i.g.slot k) r
      .p ((laneCond ty (a.func.toNat % 8) (get a.ra.toNat)
        (if a.func.getLsbD 7 then codeOf (if 3 ≤ ty then 64 else 32) a.imm else get a.rb)).getD false))) ∧
  (∀ x y : BitVec 32, laneCond 0 0 x.toNat y.toNat = some (x == y) ∧ laneCond 0 2 x.toNat y.toNat = some (x.slt y) ∧
    laneCond 1 2 x.toNat y.toNat = some (x.ult y) ∧ laneCond 1 3 x.toNat y.toNat = some (!x.ult y) ∧ laneCond 1 4 x.toNat y.toNat = some (y.ult x)) ∧
  LaneWrites Instr.laneSel (fun _ a i => a.rsvd == 0 && namedOk i ([a.rd.toNat, a.ra.toNat, a.rb].map (·, false)))
    (fun d i _ a k => .r32 (d.thr.reg (laneKey i.g.tile i.g.slot k) (if d.thr.pred (laneKey i.g.tile i.g.slot k) a.rc then a.ra.toNat else a.rb))) ∧
  (∀ p ∈ [(Instr.lanePand, fun x y : Bool => x && y), (.lanePor, fun x y => x || y), (.lanePxor, fun x y => xor x y), (.lanePnot, fun x _ => !x)],
    LaneWrites p.1 (fun _ a _ => a.rsvd == 0)
      fun d i _ a k => .p (p.2 (d.thr.pred (laneKey i.g.tile i.g.slot k) a.ra.toNat) (d.thr.pred (laneKey i.g.tile i.g.slot k) a.rb))) ∧
  (∀ p ∈ [(Instr.laneLread, fun _ v : Nat => v), (.laneLpair, fun k v => Nat.xor k v), (.laneLrot, fun k v => (k + v) % 32)],
    LaneWrites p.1 (fun _ a i => a.rsvd == 0 && namedOk i ([a.rd.toNat, a.ra.toNat, a.rb].map (·, false)))
      fun d i lanes a k =>
        let src := p.2 k (d.thr.reg (laneKey i.g.tile i.g.slot k) a.rb % 32)
        .r32 (d.thr.reg (laneKey i.g.tile i.g.slot (if lanes.contains src then src else k)) a.ra.toNat)) ∧
  (let yes := fun (d : Dev) (i : Issue) (lanes : List Nat) (a : LaneArgs) => lanes.filter fun k => d.thr.pred (laneKey i.g.tile i.g.slot k) a.ra.toNat
   let ok := fun (_ : Dev) (a : LaneArgs) (i : Issue) => a.rsvd == 0 && namedOk i [(a.rd.toNat, false)]
   LaneWrites Instr.laneVmask ok (fun d i lanes a _ => .r32 ((yes d i lanes a).map (2 ^ ·)).sum) ∧
   LaneWrites Instr.laneVfirst ok (fun d i lanes a _ => .r32 ((yes d i lanes a).headD 32)) ∧
   LaneWrites Instr.lanePmask ok (fun _ i _ _ _ => .r32 i.p.mask.toNat)) ∧
  (let value := fun (d : Dev) (i : Issue) (code k : Nat) => match code with
     | 0 => k | 1 => i.g.gnum | 2 => i.g.blk | 3 => i.l.nblocks | 4 => i.l.groups | 5 => i.g.tile | 6 => i.g.slot
     | 7 => d.now % 2 ^ 32
     | _ => (sget (fun _ => 0) d.thr.latch (laneKey i.g.tile i.g.slot k)).toNat
   LaneWrites Instr.laneS2r (fun _ a i => a.low.toNat % 16 != 7 && decide (a.low.toNat % 16 < 9) && namedOk i [(a.rd.toNat, false)])
      (fun d i _ a k => .r32 (value d i (a.low.toNat % 16) k)) ∧
   (∀ s a i, s.laneIssues a i → a.low.toNat % 16 = 7 → namedOk i [(a.rd.toNat, false)] = true → Gives (.laneS2r a) s fun t =>
      LaneNext s t i { s.dev.thr with v := t.dev.thr.v, latch := t.dev.thr.latch } s.dev.fresh ∧
      ∀ k ∈ s.dev.runLanes i a, sget (fun _ => 0) t.dev.thr.latch (laneKey i.g.tile i.g.slot k) = BitVec.ofNat 32 (s.dev.now / 2 ^ 32) ∧
        (a.rd ≠ 0 → t.dev.thr.reg (laneKey i.g.tile i.g.slot k) a.rd.toNat = s.dev.now % 2 ^ 32))) ∧
  (∀ s a i, s.laneIssues a i →
    (a.func.getLsbD 3 = true ∨ 6 ≤ a.func.toNat / 16 % 8 ∨ 6 ≤ a.func.toNat % 8 → LaneStops (.laneCmp a) s i .aborted 0x01 i.first) ∧
    (9 ≤ a.low.toNat % 16 → LaneStops (.laneS2r a) s i .aborted 0x01 i.first) ∧
    LaneStops (.laneIllegalInstruction a) s i .aborted 0x01 i.first)

/-- A control instruction that executes on no lane, and NOP, only go on. BRA with every lane of the path takes it to PC + IMM; where it splits a group's only path, the lanes that do not branch go on and the others are ready at the target, the ones that go on being current unless the target is the branch itself; a target outside the image is illegal with cause 0x06. JOIN on a group's only path goes on; below a ready path of a lower PC it waits and that path is current; with JOIN_SPIN 0 it goes on. BAR makes its lanes arrive; when every thread of the block has arrived or exited, the path goes on and the barrier's timer stops, else it waits with the timer running. EXIT takes its lanes out of the group; with the last of the block the groups and the block leave the tile, and the launch's final walk begins when no block is left. BARRIER_EXPIRY ends the launch BARRIER_ORPHAN with cause 0x08. -/
def Obligations.ThreadPathsAndBarriers : Prop :=
  (∀ s a i, s.laneIssues a i →
    Gives (.laneNop a) s (fun t => LaneNext s t i s.dev.thr s.dev.fresh) ∧
    (s.dev.runLanes i a = [] → ∀ c ∈ [Instr.laneBra a, .laneJoin a, .laneBar a, .laneExit a],
      Gives c s fun t => LaneNext s t i s.dev.thr s.dev.fresh)) ∧
  (∀ s a i, s.laneIssues a i → ∀ k r, s.dev.runLanes i a = k :: r →
    let m := lanesMask (k :: r)
    let tgt := (i.p.pc : Int) + a.imm
    (tgt < 0 ∨ (i.l.ninstr : Int) ≤ tgt → LaneStops (.laneBra a) s i .aborted 0x06 k) ∧
    (0 ≤ tgt → tgt < (i.l.ninstr : Int) → i.g.paths = [i.p] →
      (m = i.p.mask → Gives (.laneBra a) s fun t => PathsBecome s t i a [⟨tgt.toNat, m, .ready⟩]) ∧
      (m ≠ i.p.mask →
        let stay : Path := ⟨i.p.pc + 1, i.p.mask &&& ~~~m, .ready⟩
        (tgt < i.p.pc ∨ (i.p.pc : Int) + 1 < tgt → Gives (.laneBra a) s fun t => PathsBecome s t i a [stay, ⟨tgt.toNat, m, .ready⟩]) ∧
        (tgt = i.p.pc → Gives (.laneBra a) s fun t => PathsBecome s t i a [⟨i.p.pc, m, .ready⟩, stay]))) ∧
    (i.l.joinSpin = 0 → Gives (.laneJoin a) s fun t => LaneNext s t i s.dev.thr s.dev.fresh) ∧
    (i.l.joinSpin ≠ 0 →
      (i.g.paths = [i.p] → Gives (.laneJoin a) s fun t => PathsBecome s t i a [⟨i.p.pc + 1, i.p.mask, .ready⟩]) ∧
      (∀ q, i.g.paths = [i.p, q] → q.st = .ready → q.pc < i.p.pc →
        Gives (.laneJoin a) s fun t => PathsBecome s t i a [q, ⟨i.p.pc, i.p.mask, .join 0⟩])) ∧
    (s.dev.thr.groups.filter (fun g => g.launch == i.l.op && g.blk == i.g.blk) = [i.g] →
      s.dev.thr.groups.filter (fun g => g.tile == i.g.tile && g.slot == i.g.slot) = [i.g] → i.g.paths = [i.p] →
      let mine := fun (b : Block) => b.launch = i.l.op ∧ b.blk = i.g.blk ∧ b.tile = i.g.tile
      (m ||| i.g.exited = BitVec.allOnes 32 → Gives (.laneBar a) s fun t =>
        t.dev.group? a.tile a.slot = some { i.g with paths := [⟨i.p.pc + 1, i.p.mask, .ready⟩] } ∧
        (∀ b ∈ t.dev.thr.blocks, mine b → b.barAt = none) ∧
        t = { s with dev := { s.dev with thr := { s.dev.thr with groups := t.dev.thr.groups, blocks := t.dev.thr.blocks } } }) ∧
      (m ||| i.g.exited ≠ BitVec.allOnes 32 → Gives (.laneBar a) s fun t =>
        t.dev.group? a.tile a.slot = some { i.g with paths := [⟨i.p.pc, i.p.mask, .bar m⟩] } ∧
        (∀ b ∈ t.dev.thr.blocks, mine b → b.barAt.isSome = true) ∧
        t = { s with dev := { s.dev with thr := { s.dev.thr with groups := t.dev.thr.groups, blocks := t.dev.thr.blocks } } }) ∧
      (m ||| i.g.exited ≠ BitVec.allOnes 32 → Gives (.laneExit a) s fun t =>
        t.dev.group? a.tile a.slot = some { i.g with
          exited := i.g.exited ||| m
          paths := if i.p.mask = m then [] else [⟨i.p.pc + 1, i.p.mask &&& ~~~m, .ready⟩] } ∧
        t = { s with dev := { s.dev with thr := { s.dev.thr with groups := t.dev.thr.groups } } }) ∧
      (m ||| i.g.exited = BitVec.allOnes 32 → i.l.targets = [] → Gives (.laneExit a) s fun t =>
        t.dev.thr.groups = s.dev.thr.groups.filter (fun g => !(g.launch == i.l.op && g.blk == i.g.blk)) ∧
        t.dev.thr.blocks = s.dev.thr.blocks.filter (fun b => !(b.launch == i.l.op && b.blk == i.g.blk)) ∧
        (i.l.nextBlk = i.l.nblocks → (∀ b ∈ t.dev.thr.blocks, b.launch ≠ i.l.op) → i.l.ended = false →
          (t.dev.thrL? i.l.op).any (·.ended) = true ∧ ∀ tl ∈ i.l.tiles, tl ∈ t.dev.tiles.l1Busy) ∧
        t.dev.thr.v = s.dev.thr.v ∧ t.dev.thr.p = s.dev.thr.p ∧ t.dev.tiles.ls = s.dev.tiles.ls ∧ t.dev.pool = s.dev.pool ∧
        t = { s with dev := { s.dev with regs := t.dev.regs, thr := t.dev.thr, tiles := { s.dev.tiles with l1Busy := t.dev.tiles.l1Busy } } }))) ∧
  (∀ (s : State) tile blk, s.runs →
    (s.dev.thr.blocks.find? (fun b => b.tile == tile && b.blk == blk && b.barAt.isSome) = none → GivesDev (.barrierExpiry tile blk) s s.dev) ∧
    (∀ b l, s.dev.thr.blocks.find? (fun b => b.tile == tile && b.blk == blk && b.barAt.isSome) = some b →
      s.dev.thrL? b.launch = some l → l.err = none → Gives (.barrierExpiry tile blk) s fun t =>
        t.dev.rd REEF_THR_FAULT_VALID = 1 ∧ t.dev.rd REEF_THR_FAULT_STATUS = 10 ∧ t.dev.rd REEF_THR_FAULT_CAUSE = 0x08 ∧
        t.dev.rd REEF_THR_FAULT_LTILE = tile % 2 ^ 10 ∧
        (t.dev.thrL? b.launch).any (fun l => l.err == some (.barrierOrphan, 8) && l.ended) = true ∧
        (∀ g ∈ t.dev.thr.groups, g.launch ≠ b.launch) ∧ t.dev.pool = s.dev.pool ∧ t.dev.tiles.ls = s.dev.tiles.ls))

/-- A dispatched thread launch whose header is in range and fits, and whose target records have meaning, becomes resident with the sizes of its header, NBLOCKS of its entry and no block placed, and its operation runs; with 16 launches resident, or a split change under way, it waits; a header out of range ends it ABORTED with cause 0x09. BLOCK_PLACEMENT puts the next block of the earliest launch with blocks left on the lowest tile of the die with room: its groups stand at ENTRY with all 32 lanes ready, their registers 0 and predicates false, its local-store range at the lowest address that fits; a tile new to the launch walks its L1 first. Without room, or during a save or restore, nothing changes. -/
def Obligations.ThreadLaunchesAndPlacement : Prop :=
  (∀ (s : State) op o hb, s.runs → s.dev.ready? op 2 = some o → s.dev.op? op = some o →
    (16 ≤ s.dev.thr.launches.length → GivesDev (.launchThreads op) s s.dev) ∧
    (s.dev.tiles.splitNext.isSome = true → GivesDev (.launchThreads op) s s.dev) ∧
    (s.dev.thr.launches.length < 16 → s.dev.tiles.splitNext = none →
      s.dev.vread o.tag .image (entF o.entry 32 8) 64 = .ok hb → hb.any (·.2) = false →
      let h := leNat (hb.map (·.1))
      (kernelOk h s.dev.tiles.pool = false → Gives (.launchThreads op) s fun t =>
        t.dev.thr = s.dev.thr ∧ (∃ o', t.dev.op? op = some o' ∧ o'.phase = .done .aborted 9 0) ∧ t.dev.rd REEF_THR_FAULT_CAUSE = 9) ∧
      (∀ tb ts, kernelOk h s.dev.tiles.pool = true →
        s.dev.vread o.tag .read (entF o.entry 72 8) (32 * hdrF h 7 1) = .ok tb → tb.any (·.2) = false →
        redTargets (hdrF h 7 1) (tb.map (·.1)) = some ts → Gives (.launchThreads op) s fun t =>
          (∃ l : ThrLaunch, t.dev.thr = { s.dev.thr with launches := s.dev.thr.launches ++ [l] } ∧
            l.op = op ∧ l.tag = o.tag ∧ l.regs = 8 * hdrF h 3 1 ∧ l.groups = hdrF h 4 1 ∧ l.joinSpin = hdrF h 6 1 ∧ l.targets = ts ∧
            l.ninstr = hdrF h 8 4 ∧ l.entry = hdrF h 12 4 ∧ l.bls = hdrF h 16 4 ∧ l.nblocks = entF o.entry 64 4 ∧ l.nextBlk = 0 ∧
            l.tiles = [] ∧ l.cb = o.cb ∧ l.err = none ∧ l.ended = false) ∧
          (∃ o', t.dev.op? op = some o' ∧ o'.phase = .running) ∧
          t = { s with dev := { s.dev with thr := t.dev.thr, fe := { s.dev.fe with ops := t.dev.fe.ops } } }))) ∧
  (∀ (s : State) die l, s.runs → die < 4 → s.dev.handing = false →
    s.dev.thr.launches.find? (fun l => decide (l.nextBlk < l.nblocks)) = some l →
    ((∀ tl, die * 160 ≤ tl → tl < die * 160 + 160 → s.dev.blockRoom l tl = false) → GivesDev (.blockPlacement die) s s.dev) ∧
    (∀ tl base, die * 160 ≤ tl → tl < die * 160 + 160 → s.dev.blockRoom l tl = true →
      (∀ u, die * 160 ≤ u → u < tl → s.dev.blockRoom l u = false) → s.dev.poolFit tl l.bls = some base →
      Gives (.blockPlacement die) s fun t =>
        t.dev.thr.blocks = s.dev.thr.blocks ++ [⟨l.op, l.nextBlk, tl, base, none⟩] ∧
        (∃ gs, t.dev.thr.groups = s.dev.thr.groups ++ gs ∧ gs.length = l.groups ∧
          (∀ g ∈ gs, g.launch = l.op ∧ g.blk = l.nextBlk ∧ g.tile = tl ∧ g.paths = [⟨l.entry, BitVec.allOnes 32, .ready⟩] ∧ g.exited = 0 ∧
            s.dev.group? tl g.slot = none ∧
            ∀ k r, k < 32 → r < 256 → t.dev.thr.reg (laneKey tl g.slot k) r = 0 ∧ t.dev.thr.pred (laneKey tl g.slot k) r = (r % 8 == 0)) ∧
          (∀ j, j < l.groups → (gs[j]?).map (·.gnum) = some j)) ∧
        t.dev.thr.launches = updWhere (·.op == l.op) (fun l => { l with
          nextBlk := l.nextBlk + 1, tiles := if l.tiles.contains tl then l.tiles else l.tiles ++ [tl] }) s.dev.thr.launches ∧
        (l.tiles.contains tl = false → tl ∈ t.dev.tiles.l1Busy) ∧
        t = { s with dev := { s.dev with regs := t.dev.regs, thr := t.dev.thr, tiles := { s.dev.tiles with l1Busy := t.dev.tiles.l1Busy } } }))

/-- LDS8 to LDS64, LDS8S and LDS16S load from the block's own range of local store, LDSA32 and LDSA64 from the tile's whole local store, LDC32 and LDC64 from the launch's constant buffer: every executing lane's RD, or pair, takes the little-endian bytes at V[RA] + OFF, zero- or sign-extended, all else stays and the path goes on. STS8 to STS64 store V[RB], or the pair, there: of lanes that store to one byte the highest stands, and every other byte of every tile, every register and all of memory stay. The lowest executing lane's error ends the launch: off its alignment ABORTED with cause 0x03; outside the range RIGHTS with cause 0x04, for LDC ABORTED with cause 0x05; a load of poison POISON_CONSUMED with cause 0xFF. -/
def Obligations.LaneLocalStoreAndConstantAccess : Prop :=
  (let x := fun (d : Dev) (i : Issue) (a : LaneArgs) (k : Nat) => (d.thr.reg (laneKey i.g.tile i.g.slot k) a.ra.toNat : Int) + a.off
   let range := fun (d : Dev) (i : Issue) (abs : Bool) => if abs then (0, d.tiles.split * 131072)
     else (((d.thr.blocks.find? fun b => b.launch == i.l.op && b.blk == i.g.blk).map (·.base)).getD 0, i.l.bls)
   let fits := fun (n len : Nat) (v : Int) => v % (n : Int) == 0 && decide (0 ≤ v) && decide (v + n ≤ len)
   (∀ p ∈ [(Instr.lds8, 1, false, false), (.lds16, 2, false, false), (.lds32, 4, false, false), (.lds64, 8, false, false),
      (.lds8s, 1, true, false), (.lds16s, 2, true, false), (.ldsa32, 4, false, true), (.ldsa64, 8, false, true)],
    let n := p.2.1
    let abs := p.2.2.2
    LaneWrites p.1 (fun d a i => namedOk i [(a.rd.toNat, n == 8), (a.ra.toNat, false)] && (d.runLanes i a).all fun k =>
        fits n (range d i abs).2 (x d i a k) && !d.tiles.lsBad i.g.tile ((range d i abs).1 + (x d i a k).toNat) n)
      (fun d i _ a k =>
        let v := d.tiles.lsNat i.g.tile ((range d i abs).1 + (x d i a k).toNat) n
        if n = 8 then .r64 v else if p.2.2.1 then .r32 (codeOf 32 (signedOf (8 * n) v)) else .r32 v) ∧
    (∀ s a i k r, s.laneIssues a i → namedOk i [(a.rd.toNat, n == 8), (a.ra.toNat, false)] = true → s.dev.runLanes i a = k :: r →
      (x s.dev i a k % n ≠ 0 → LaneStops (p.1 a) s i .aborted 0x03 k) ∧
      (x s.dev i a k % n = 0 → fits n (range s.dev i abs).2 (x s.dev i a k) = false → LaneStops (p.1 a) s i .rights 0x04 k) ∧
      (fits n (range s.dev i abs).2 (x s.dev i a k) = true → s.dev.tiles.lsBad i.g.tile ((range s.dev i abs).1 + (x s.dev i a k).toNat) n = true →
        LaneStops (p.1 a) s i .poisonConsumed 0xFF k))) ∧
   (∀ p ∈ [(Instr.sts8, 1), (.sts16, 2), (.sts32, 4), (.sts64, 8)],
    let n := p.2
    ∀ s a i, s.laneIssues a i → namedOk i [(a.rb, n == 8), (a.ra.toNat, false)] = true →
      (range s.dev i false).1 + i.l.bls ≤ 2 ^ 21 → (∀ k ∈ s.dev.runLanes i a, fits n i.l.bls (x s.dev i a k) = true) →
      Gives (p.1 a) s fun t =>
        let first := fun k => (range s.dev i false).1 + (x s.dev i a k).toNat
        (∀ k ∈ s.dev.runLanes i a, ∀ j, j < n → (∀ m ∈ s.dev.runLanes i a, k < m → ¬(first m ≤ first k + j ∧ first k + j < first m + n)) →
          t.dev.tiles.lsByte i.g.tile (first k + j) = BitVec.ofNat 8 (s.dev.thr.operand (n == 8) (laneKey i.g.tile i.g.slot k) a.rb / 256 ^ j)) ∧
        (∀ tl b, b < 2 ^ 21 → (tl = i.g.tile → ∀ k ∈ s.dev.runLanes i a, b < first k ∨ first k + n ≤ b) →
          t.dev.tiles.lsByte tl b = s.dev.tiles.lsByte tl b) ∧
        LaneNext { s with dev := { s.dev with tiles := { s.dev.tiles with ls := t.dev.tiles.ls, lsPoison := t.dev.tiles.lsPoison } } } t i s.dev.thr s.dev.fresh) ∧
   (∀ p ∈ [(Instr.ldc32, 4), (.ldc64, 8)],
    let n := p.2
    LaneWrites p.1 (fun d a i => namedOk i [(a.rd.toNat, n == 8), (a.ra.toNat, false)] && (d.runLanes i a).all fun k => fits n i.l.cb.length (x d i a k))
      (fun d i _ a k =>
        let v := leNat ((i.l.cb.drop (x d i a k).toNat).take n)
        if n = 8 then .r64 v else .r32 v) ∧
    (∀ s a i k r, s.laneIssues a i → namedOk i [(a.rd.toNat, n == 8), (a.ra.toNat, false)] = true → s.dev.runLanes i a = k :: r →
      (x s.dev i a k % n ≠ 0 → LaneStops (p.1 a) s i .aborted 0x03 k) ∧
      (x s.dev i a k % n = 0 → fits n i.l.cb.length (x s.dev i a k) = false → LaneStops (p.1 a) s i .aborted 0x05 k))))

/-- LD, LDCG and ATOM of naturally aligned addresses in HBM leave one access of their executing lanes outstanding, at V[RA]:V[RA+1] + OFF, and the path goes on; an ATOM of an ORDERED_ONLY image is illegal with cause 0x07. ST puts its bytes into the tile L1's line, where they are valid and dirty, the line's other bytes and all other lines staying; memory does not change. The lowest lane off its alignment ends the launch ABORTED with cause 0x03. FENCE waits for the thread group's accesses; TILE then goes on, DEVICE and SYSTEM leave a write-back outstanding; scope 3 is illegal. REDO folds V[RB], or the pair, of each executing lane into that lane's contribution to target OFF[3:0]; a target the image does not name is illegal with cause 0x07. -/
def Obligations.LaneMemoryAccessesIssue : Prop :=
  ∀ (s : State) (a : LaneArgs) (i : Issue), s.laneIssues a i →
    let lanes := s.dev.runLanes i a
    let va := fun k => codeOf 64 ((s.dev.thr.pair (laneKey i.g.tile i.g.slot k) a.ra.toNat : Int) + a.off)
    let inside := fun acc => ∀ k ∈ lanes, ∀ pa, s.dev.xlate i.l.tag (va k) acc = .pa pa → inPool pa = true
    let waits := fun (c : Instr) (kind n func : Nat) => Gives c s fun t => ∃ x : LaneAcc,
      LaneNext s t i { s.dev.thr with accs := s.dev.thr.accs ++ [x], nextAcc := s.dev.thr.nextAcc + 1 } s.dev.fresh ∧
      x.id = s.dev.thr.nextAcc ∧ x.kind = kind ∧ x.bytes = n ∧ x.func.toNat = func ∧ x.tile = i.g.tile ∧ x.slot = i.g.slot ∧ x.launch = i.l.op ∧
      x.pc = i.p.pc ∧ x.rd = a.rd.toNat ∧ x.rb = a.rb ∧ x.addrs = if kind = 3 then [] else lanes.map fun k => (k, BitVec.ofNat 64 (va k))
    (∀ p ∈ [(Instr.ld8, 0, 1), (.ld16, 0, 2), (.ld32, 0, 4), (.ld64, 0, 8), (.ldcg8, 1, 1), (.ldcg16, 1, 2), (.ldcg32, 1, 4), (.ldcg64, 1, 8)],
      namedOk i [(a.rd.toNat, p.2.2 == 8), (a.ra.toNat, true)] = true →
      (lanes ≠ [] → (∀ k ∈ lanes, va k % p.2.2 = 0) → inside .read → waits (p.1 a) p.2.1 p.2.2 0) ∧
      (∀ k r, lanes = k :: r → va k % p.2.2 ≠ 0 → LaneStops (p.1 a) s i .aborted 0x03 k)) ∧
    (∀ p ∈ [(Instr.atomAdd, 0), (.atomFadd, 1), (.atomMin, 2), (.atomMax, 3), (.atomMinu, 4), (.atomMaxu, 5), (.atomAnd, 6), (.atomOr, 7), (.atomXor, 8), (.atomExch, 9), (.atomCas, 10)], let wide := a.func.getLsbD 7
      let n := if wide then 8 else 4
      let data := if p.2 = 10 then [a.rb, if wide then a.rb + 2 else a.rb + 1] else [a.rb]
      (i.l.orderedOnly = true → LaneStops (p.1 a) s i .aborted 0x07 i.first) ∧
      (i.l.orderedOnly = false → namedOk i ((a.ra.toNat, true) :: (a.rd.toNat :: data).map (·, wide)) = true →
        (lanes ≠ [] → (∀ k ∈ lanes, va k % n = 0 ∧ s.dev.l1? i.g.tile i.l.tag (va k / 64) = none) → inside .atomic →
          waits (p.1 a) 2 n (p.2 + if wide then 64 else 0)) ∧
        (∀ k r, lanes = k :: r → va k % n ≠ 0 → LaneStops (p.1 a) s i .aborted 0x03 k))) ∧
    (∀ p ∈ [(Instr.st8, 1), (.st16, 2), (.st32, 4), (.st64, 8)], let n := p.2
      namedOk i [(a.rb, n == 8), (a.ra.toNat, true)] = true → ∀ k r, lanes = k :: r →
      (va k % n ≠ 0 → LaneStops (p.1 a) s i .aborted 0x03 k) ∧
      (va k % n = 0 → r = [] →
        let vl := va k / 64
        let off := va k % 64
        let v := s.dev.thr.operand (n == 8) (laneKey i.g.tile i.g.slot k) a.rb
        let x := (s.dev.l1? i.g.tile i.l.tag vl).getD ⟨i.g.tile, i.l.tag, vl, 0, 0, 0, false⟩
        ((s.dev.l1? i.g.tile i.l.tag vl).isSome = true ∨
          (s.dev.tiles.l1.filter fun x => x.tile == i.g.tile && x.vline % 2048 == vl % 2048).length < 16 - s.dev.tiles.split) →
        Gives (p.1 a) s fun t =>
          (∃ y, t.dev.l1? i.g.tile i.l.tag vl = some y ∧ y.poisoned = x.poisoned ∧ ∀ j, j < 64 →
            (off ≤ j ∧ j < off + n → y.valid.getLsbD j = true ∧ y.dirty.getLsbD j = true ∧ lineByte y.data j = BitVec.ofNat 8 (v / 256 ^ (j - off))) ∧
            (j < off ∨ off + n ≤ j → y.valid.getLsbD j = x.valid.getLsbD j ∧ y.dirty.getLsbD j = x.dirty.getLsbD j ∧ lineByte y.data j = lineByte x.data j)) ∧
          (∀ tl tg l, (tl, tg, l) ≠ (i.g.tile, i.l.tag, vl) → t.dev.l1? tl tg l = s.dev.l1? tl tg l) ∧
          LaneNext { s with dev := { s.dev with tiles := { s.dev.tiles with l1 := t.dev.tiles.l1 } } } t i s.dev.thr s.dev.fresh)) ∧
    (let scope := a.low.toNat % 4
     (scope = 3 → LaneStops (.laneFence a) s i .aborted 0x01 i.first) ∧
     (scope ≠ 3 → lanes ≠ [] →
      (s.dev.thr.accs.any (fun x => x.tile == i.g.tile && x.slot == i.g.slot) = true → GivesDev (.laneFence a) s s.dev) ∧
      (s.dev.thr.accs.any (fun x => x.tile == i.g.tile && x.slot == i.g.slot) = false →
        (scope = 0 → Gives (.laneFence a) s fun t => LaneNext s t i s.dev.thr s.dev.fresh) ∧
        (scope ≠ 0 → waits (.laneFence a) 3 0 scope)))) ∧
    (let n := a.offBits % 16
     (i.l.targets[n]? = none → LaneStops (.redo a) s i .aborted 0x07 i.first) ∧
     (∀ t0, i.l.targets[n]? = some t0 → namedOk i [(a.rb, redWide t0.ty)] = true → Gives (.redo a) s fun t =>
        LaneNext s t i { s.dev.thr with red := t.dev.thr.red } s.dev.fresh ∧
        (∀ k ∈ lanes, let v := s.dev.thr.operand (redWide t0.ty) (laneKey i.g.tile i.g.slot k) a.rb
          sget (fun _ => none) t.dev.thr.red (laneKey i.g.tile i.g.slot k * 16 + n) =
            some (BitVec.ofNat 64 (match sget (fun _ => none) s.dev.thr.red (laneKey i.g.tile i.g.slot k * 16 + n) with | some w => redOp t0.ty t0.op w.toNat v | none => v))) ∧
        (∀ key, (∀ k ∈ lanes, key ≠ laneKey i.g.tile i.g.slot k * 16 + n) → sget (fun _ => none) t.dev.thr.red key = sget (fun _ => none) s.dev.thr.red key)))

/-- The answer of a one-lane access in HBM: a plain load takes the valid bytes of the tile's own line, else fills a clean line from the home and takes the home's bytes; LDCG takes the home's bytes; an atomic leaves the result of its function at the address, every other byte staying, and gives the value before; RD, or the pair, takes the value and the access is gone; an atomic with RD V0 writes no register. An access whose page denies it ends the launch with the status, poisoned data ends it POISON_CONSUMED, both with cause 0xFF, and an access that waits on a fault stays until its answer comes. The answer of a FENCE on a clean tile only ends it. -/
def Obligations.LaneMemoryAccessesAreAnswered : Prop :=
  ∀ (s : State) (id : Nat) (x : LaneAcc) (l : ThrLaunch) (ext : BitVec 2048), s.runs →
    s.dev.thr.accs.find? (·.id == id) = some x → s.dev.thrL? x.launch = some l → l.err = none →
    let c := Instr.laneMemoryResponse id none ext
    let gone := s.dev.thr.accs.filter (·.id != id)
    let stops := fun (c : Instr) (st : Status) (k : Nat) => ∀ i : Issue,
      i.p.pc = x.pc → i.g.tile = x.tile → i.g.slot = x.slot → i.l.op = l.op → LaneStops c s i st 0xFF k
    (x.kind = 3 → x.func.toNat ≠ 2 → (∀ y ∈ s.dev.l1Lines x.tile, y.dirty = 0) →
      GivesDev c s { s.dev with thr := { s.dev.thr with accs := gone } }) ∧
    (∀ k w, x.addrs = [(k, w)] → x.bytes ∈ [1, 2, 4, 8] → x.rd < 255 →
      let va := w.toNat
      let lk := laneKey x.tile x.slot k
      let wide := x.bytes == 8
      let loaded := fun (t : State) (v : Nat) => (0 < x.rd → t.dev.thr.operand wide lk x.rd = v) ∧ (wide = true → t.dev.thr.reg lk (x.rd + 1) = v / 2 ^ 32) ∧
        (∀ key r, r < 256 → (key, r) ≠ (lk, x.rd) → (wide = true → (key, r) ≠ (lk, x.rd + 1)) → t.dev.thr.reg key r = s.dev.thr.reg key r) ∧
        t.dev.thr = { s.dev.thr with accs := gone, v := t.dev.thr.v }
      (∀ y, x.kind = 0 → s.dev.l1? x.tile l.tag (va / 64) = some y → va % 64 + x.bytes ≤ 64 → y.poisoned = false →
        (∀ j, j < x.bytes → y.valid.getLsbD (va % 64 + j) = true) →
        Gives c s fun t => loaded t (y.data.toNat / 2 ^ (8 * (va % 64)) % 2 ^ (8 * x.bytes)) ∧ t = { s with dev := { s.dev with thr := t.dev.thr } }) ∧
      (∀ pa, x.kind < 2 → s.dev.l1? x.tile l.tag (va / 64) = none → s.dev.xlate l.tag va .read = .pa pa → inPool pa = true →
        pa % 64 = va % 64 → pa % x.bytes = 0 →
        (x.kind = 0 → (s.dev.tiles.l1.filter fun y => y.tile == x.tile && y.vline % 2048 == va / 64 % 2048).length < 16 - s.dev.tiles.split →
          s.dev.poisonAt pa = false → Gives c s fun t => loaded t (s.dev.natAt pa x.bytes) ∧
            (∃ y, t.dev.l1? x.tile l.tag (va / 64) = some y ∧ y.dirty = 0 ∧ y.valid = BitVec.allOnes 64 ∧
              ∀ j, j < 64 → lineByte y.data j = s.dev.byteAt (pa / 64 * 64 + j)) ∧
            t = { s with dev := { s.dev with thr := t.dev.thr, tiles := { s.dev.tiles with l1 := t.dev.tiles.l1 } } }) ∧
        (x.kind = 1 → s.dev.poisonAt pa = false → Gives c s fun t => loaded t (s.dev.natAt pa x.bytes) ∧ t = { s with dev := { s.dev with thr := t.dev.thr } }) ∧
        (x.kind = 1 → s.dev.poisonAt pa = true → stops c .poisonConsumed k)) ∧
      (∀ pa new, x.kind = 2 → 4 ≤ x.bytes → s.dev.xlate l.tag va .atomic = .pa pa → inPool pa = true → pa % x.bytes = 0 → s.dev.poisonAt pa = false →
        let n := 2 ^ (8 * x.bytes)
        let func := x.func.toNat % 64
        let A := s.dev.thr.operand wide lk x.rb
        let B := if func = 10 then s.dev.thr.operand wide lk (if wide then x.rb + 2 else x.rb + 1) else 0
        atomResult func wide (s.dev.natAt pa x.bytes) (A % n) (B % n) = some new → Gives c s fun t =>
          (if x.rd = 0 then t.dev.thr = { s.dev.thr with accs := gone } else loaded t (s.dev.natAt pa x.bytes)) ∧ t.dev.natAt pa x.bytes = new % n ∧
          (∀ b, b < pa ∨ pa + x.bytes ≤ b → t.dev.byteAt b = s.dev.byteAt b) ∧
          t = { s with dev := { s.dev with thr := t.dev.thr, pool := t.dev.pool, coh := t.dev.coh, cores := t.dev.cores, out := t.dev.out } }) ∧
      (∀ st, x.kind = 2 → s.dev.xlate l.tag va .atomic = .ended st → stops c st k) ∧
      (∀ st, x.kind = 1 → s.dev.xlate l.tag va .read = .ended st → stops c st k) ∧
      (x.kind = 1 → s.dev.xlate l.tag va .read = .waits → GivesDev c s s.dev ∧ ∀ st, stops (.laneMemoryResponse id (some st) ext) st k))

/-- A write of NFP_DOM_CTRL that sets ENABLE and keeps R206 takes an OFF member to COARSE with REF as reference; one that breaks R206, or any but a clearing one while the member is not OFF, is discarded. A Sync message in COARSE steps the clock by its offset, and the sixteenth in a row within 1 µs enters FINE, the reference LOCKED. An exchange gives the offset ((t2 - t1) - (t4 - t3)) / 2, filtered over the last 8: only FINE steps the clock; beyond 20 ns TD_OK clears with cause 6; the eighth within it locks; the eighth exchange without an answer takes the next member as reference with cause 8. At NFP_DOM_START a LOCKED member is RUNNING from tick 0, any other enters late. A tick begins at its announced divisor and start, or, unannounced, at the present one with cause 5. The reference takes members' words, a member an announcement for a later tick. -/
def Obligations.DomainClockAndTicks : Prop :=
  ∀ (s : State), s.runs →
    let D := s.dev.nfp.dom
    let st := s.dev.rd NFP_DOM_STATUS_STATE
    let ref := D.ref = s.dev.rd NFP_DOM_CTRL_DRANK
    let dom := fun (t : State) (l : List Nat) => RegsKept s.dev t.dev l ∧
      t = { s with dev := { s.dev with regs := t.dev.regs, nfp := { s.dev.nfp with dom := t.dev.nfp.dom } } }
    (∀ v : Word, s.ready → s.dev.isWindward = false → v.getLsbD 0 = true →
      let keeps := 1 ≤ fieldOf v 31 22 ∧ fieldOf v 31 22 ≤ 512 ∧ fieldOf v 21 13 < fieldOf v 31 22 ∧ fieldOf v 12 4 < fieldOf v 31 22 ∧
        fieldOf v 46 32 + fieldOf v 31 22 ≤ 32768 ∧ 16 ≤ fieldOf v 63 48
      (st = 0 → keeps → Gives (.nfpDomCtrlWrite v) s fun t => t.dev.rd NFP_DOM_STATUS_STATE = 1 ∧ t.dev.nfp.dom = { D with ref := fieldOf v 12 4 } ∧
        t.dev.rd NFP_DOM_CTRL_ENABLE = 1 ∧ t.dev.rd NFP_DOM_CTRL_DRANK = fieldOf v 21 13 ∧ t.dev.rd NFP_DOM_CTRL_MEMBERS = fieldOf v 31 22 ∧
        t.dev.rd NFP_DOM_CTRL_TICK_UNITS = fieldOf v 63 48 ∧ dom t [NFP_DOM_CTRL_ENABLE.reg, NFP_DOM_STATUS_STATE.reg]) ∧
      ((st ≠ 0 ∨ ¬keeps) → GivesDev (.nfpDomCtrlWrite v) s (s.dev.event 0 0 2 7 0x7F0007008000 v.toNat 0))) ∧
    (∀ port (off : Int), port ≤ 7 → s.dev.portUp port = true → s.dev.rd NFP_PTP_CTRL_ENABLE = 1 → s.dev.rd NFP_PTP_CTRL_PORTS / 2 ^ port % 2 = 1 → st = 1 →
      let n := if off.natAbs ≤ 1000 then D.ptpRun + 1 else 0
      let clock := ((D.clock : Int) - off / 10).toNat % 2 ^ 64
      GivesDev (.ptpMessage port false off) s s.dev ∧
      (n < 16 → GivesDev (.ptpMessage port true off) s { s.dev with nfp := { s.dev.nfp with dom := { D with clock := clock, ptpRun := n } } }) ∧
      (16 ≤ n → Gives (.ptpMessage port true off) s fun t => t.dev.rd NFP_DOM_STATUS_STATE = (if ref then 3 else 2) ∧
        t.dev.nfp.dom.clock = clock ∧ dom t [NFP_DOM_STATUS_STATE.reg])) ∧
    (2 ≤ st → ¬ref →
      (∀ x : SyncStamps,
        let off := ((x.t2 - x.t1) - (x.t4 - x.t3)) / 2
        let offs := (off :: D.offsets).take 8
        let mean : Int := offs.foldl (· + ·) 0 / (offs.length : Int)
        let trim := sgn 32 (s.dev.rd NFP_DOM_SYNC_TRIM)
        trim < 19999 → -19999 < trim → Gives (.fineSyncExchange (some x)) s fun t =>
          t.dev.nfp.dom.offsets = offs ∧ t.dev.nfp.dom.missed = 0 ∧
          t.dev.rd NFP_DOM_SYNC_MEASURES = min (2 ^ 32 - 1) (s.dev.rd NFP_DOM_SYNC_MEASURES + 1) ∧
          t.dev.rd NFP_DOM_STATUS_OFFSET = unsgn 16 (max (-32767) (min 32767 mean)) ∧
          sgn 32 (t.dev.rd NFP_DOM_SYNC_TRIM) = (if 0 < mean then trim + 1 else if mean < 0 then trim - 1 else trim) ∧
          t.dev.nfp.dom.clock = (if st = 2 then ((D.clock : Int) + mean / 10000).toNat % 2 ^ 64 else D.clock) ∧
          t.dev.rd NFP_DOM_STATUS_STATE = (if st = 2 then (if mean.natAbs ≤ 20000 ∧ 8 ≤ D.within20 + 1 then 3 else 2) else if 1000000 < mean.natAbs ∧ 8 ≤ D.beyond1us + 1 then 2 else st) ∧
          (20000 < mean.natAbs → t.dev.rd NFP_DOM_STATUS_TD_OK = 0 ∧ t.dev.rd NFP_DOM_STATUS_TD_CAUSE = 6) ∧
          (mean.natAbs ≤ 20000 → t.dev.rd NFP_DOM_STATUS_TD_OK = s.dev.rd NFP_DOM_STATUS_TD_OK) ∧ dom t [NFP_DOM_STATUS_STATE.reg, NFP_DOM_SYNC_TRIM.reg]) ∧
      (D.missed + 1 < 8 → GivesDev (.fineSyncExchange none) s { s.dev with nfp := { s.dev.nfp with dom := { D with missed := D.missed + 1 } } }) ∧
      (8 ≤ D.missed + 1 → Gives (.fineSyncExchange none) s fun t =>
        t.dev.nfp.dom = { D with missed := 0, ref := (D.ref + 1) % max 1 (s.dev.rd NFP_DOM_CTRL_MEMBERS) } ∧
        t.dev.rd NFP_DOM_STATUS_TD_OK = 0 ∧ t.dev.rd NFP_DOM_STATUS_TD_CAUSE = 8 ∧ RegsKept s.dev t.dev [NFP_DOM_STATUS_STATE.reg])) ∧
    ((s.dev.rd NFP_DOM_START_START > D.clock ∨ st = 0 ∨ st = 4 → GivesDev .domainStart s s.dev) ∧
     (s.dev.rd NFP_DOM_START_START ≤ D.clock → D.lateEntry = false →
       (st = 3 → Gives .domainStart s fun t => t.dev.rd NFP_DOM_STATUS_STATE = 4 ∧ t.dev.rd NFP_DOM_TICK_TICK = 0 ∧
         t.dev.nfp.dom.tickAt = s.dev.rd NFP_DOM_START_START ∧ t.dev.nfp.dom.tickDiv = s.dev.rd PWR_THROTTLE_DIV_NOW ∧ t.dev.nfp.dom.clock = D.clock ∧
         t.dev.rd NFP_DOM_STATUS_TD_OK = s.dev.rd NFP_DOM_STATUS_TD_OK) ∧
       (st = 1 ∨ st = 2 → GivesDev .domainStart s { s.dev with nfp := { s.dev.nfp with dom := { D with lateEntry := true } } }))) ∧
    (st = 4 → s.dev.rd PWR_THROTTLE_EMERGENCY = 0 → ¬ref → s.dev.mute = false →
      let tick := s.dev.rd NFP_DOM_TICK_TICK + 1
      let word := fun (t : State) => t.dev.out = s.dev.out ++ [.domWord (s.dev.rd NFP_DOM_CTRL_BASE_RANK + D.ref) t.dev.nfp.dom.request]
      (∀ div start, D.announced.find? (·.1 == tick) = some (tick, div, start) → div < 16 → Gives .tickBoundary s fun t =>
        t.dev.rd NFP_DOM_TICK_TICK = tick % 2 ^ 64 ∧ t.dev.nfp.dom.tickAt = start ∧ t.dev.nfp.dom.tickDiv = div ∧
        t.dev.rd PWR_THROTTLE_DIV_NOW = div ∧ t.dev.rd NFP_DOM_STATUS_TD_OK = s.dev.rd NFP_DOM_STATUS_TD_OK ∧ word t) ∧
      (D.announced.find? (·.1 == tick) = none → 2 ≤ tick → Gives .tickBoundary s fun t =>
        t.dev.rd NFP_DOM_TICK_TICK = tick % 2 ^ 64 ∧ t.dev.nfp.dom.tickAt = D.tickAt + s.dev.rd NFP_DOM_CTRL_TICK_UNITS * D.tickDiv / 2 ∧
        t.dev.rd PWR_THROTTLE_DIV_NOW = s.dev.rd PWR_THROTTLE_DIV_NOW ∧ t.dev.rd NFP_DOM_STATUS_TD_OK = 0 ∧
        t.dev.rd NFP_DOM_STATUS_TD_CAUSE = 5 ∧ word t)) ∧
    (∀ r div, st = 4 → ref → r < s.dev.rd NFP_DOM_CTRL_MEMBERS → div ∈ [8, 10, 12] →
      GivesDev (.domainWord (s.dev.rd NFP_DOM_CTRL_BASE_RANK + r) div) s
        { s.dev with nfp := { s.dev.nfp with dom := { D with requests := putKey D.requests r div } } }) ∧
    (∀ div tick start, st = 4 → ¬ref → div ∈ [8, 10, 12] → s.dev.rd NFP_DOM_TICK_TICK < tick → Gives (.announcement div tick start) s fun t =>
      t.dev.nfp.dom = { D with announced := D.announced.filter (·.1 != tick) ++ [(tick, div, start)] } ∧
      t.dev.rd NFP_DOM_STATUS_DIV_NEXT = div ∧ dom t [NFP_DOM_STATUS_DIV_NEXT.reg])

/-- LOAD of an image in memory, unpoisoned and without a faulty entry, copies every entry into the inactive banks, which are LOADED; the active banks stay. A faulty entry refuses the whole image with its code and place in NFP_SCHED_STATUS and loads nothing, and an image beyond the pool or poisoned with code 5. In RUNNING, a SCHEDULED slot of an UP port sends what waits in its queue for its rank within LEN × 8,000 bytes at the port's lanes; data that is late or left over makes the slot overrun: OVERRUNS counts and TD_OK clears with cause 7. An OPEN slot sends waiting answers and the queues that no SCHEDULED entry names, and leaves those that one names. -/
def Obligations.SlotTablesRule : Prop :=
  (∀ (s : State), s.ready →
    let a := s.dev.rd NFP_SCHED_ADDR_ADDR * 2 ^ 14
    let entry := fun p e => BitVec.ofNat 64 (s.dev.natAt (a + p * 2048 + e * 8) 8)
    let err := fun p => firstErr (s.dev.rd NFP_DOM_CTRL_TICK_UNITS) 0 0 0 (slotsInUse ((List.range 256).map (entry p)))
    let status := fun (t : State) (i c : Nat) => t.dev.rd NFP_SCHED_STATUS_ERR_INDEX = i ∧ t.dev.rd NFP_SCHED_STATUS_ERR = c ∧
      t.dev.rd NFP_SCHED_ADDR_LOAD = 0 ∧ t.dev.rd NFP_SCHED_STATUS_ACTIVE = s.dev.rd NFP_SCHED_STATUS_ACTIVE ∧
      RegsKept s.dev t.dev [NFP_SCHED_ADDR_LOAD.reg, NFP_SCHED_STATUS_ERR.reg]
    (0x6000000000 < a + 16384 ∨ s.dev.poisonIn a 16384 = true → Gives .schedLoad s fun t => status t 0 5 ∧
      t = { s with dev := { s.dev with regs := t.dev.regs } }) ∧
    (a + 16384 ≤ 0x6000000000 → s.dev.poisonIn a 16384 = false →
      ((∀ p, p < 8 → err p = none) → Gives .schedLoad s fun t => status t 0 0 ∧ t.dev.rd NFP_SCHED_STATUS_LOADED = 1 ∧
        (∀ p e, p < 8 → e < 256 → t.dev.slot (1 - s.dev.rd NFP_SCHED_STATUS_ACTIVE) p e = entry p e ∧
          t.dev.slot (s.dev.rd NFP_SCHED_STATUS_ACTIVE) p e = s.dev.slot (s.dev.rd NFP_SCHED_STATUS_ACTIVE) p e) ∧
        t = { s with dev := { s.dev with regs := t.dev.regs, nfp := { s.dev.nfp with slots := t.dev.nfp.slots } } }) ∧
      (∀ p i c, p < 8 → (∀ q, q < p → err q = none) → err p = some (i, c) → i < 256 → c < 256 → Gives .schedLoad s fun t => status t (p * 256 + i) c ∧
        t.dev.rd NFP_SCHED_STATUS_LOADED = s.dev.rd NFP_SCHED_STATUS_LOADED ∧ t = { s with dev := { s.dev with regs := t.dev.regs } }))) ∧
  (∀ (s : State) port n e kind k, s.runs → port ≤ 7 → s.dev.domRunning = true → s.dev.mute = false → s.dev.portUp port = true →
    (s.dev.activeSlots port)[n]? = some e → slotClass e = 0 → s.dev.nfp.sqs = [(fieldOf e 45 40, kind, k)] → k.dst = fieldOf e 60 46 →
    let fits := nfpFlits k * 256 ≤ slotLen e * 8000 * s.dev.rd (lnLanes port) / 4 ∧ s.dev.portTakes port kind k = true
    (fits → Gives (.scheduledSlot port n false) s fun t => t.dev.out = s.dev.out ++ [.nfp port (kind % 256) k] ∧ t.dev.nfp.sqs = [] ∧ t.dev.regs = s.dev.regs) ∧
    (fits → Gives (.scheduledSlot port n true) s fun t => t.dev.out = s.dev.out ++ [.nfp port (kind % 256) k] ∧ t.dev.nfp.sqs = [] ∧
      t.dev.rd NFP_SCHED_STATUS_OVERRUNS = min (2 ^ 32 - 1) (s.dev.rd NFP_SCHED_STATUS_OVERRUNS + 1) ∧ t.dev.rd NFP_DOM_STATUS_TD_OK = 0 ∧ t.dev.rd NFP_DOM_STATUS_TD_CAUSE = 7) ∧
    (∀ late, ¬fits → Gives (.scheduledSlot port n late) s fun t =>
      t.dev.rd NFP_SCHED_STATUS_OVERRUNS = min (2 ^ 32 - 1) (s.dev.rd NFP_SCHED_STATUS_OVERRUNS + 1) ∧ t.dev.rd NFP_DOM_STATUS_TD_OK = 0 ∧
      t.dev.rd NFP_DOM_STATUS_TD_CAUSE = 7 ∧ t = { s with dev := { s.dev with regs := t.dev.regs } })) ∧
  (∀ (s : State) port sq kind k, s.runs → port ≤ 7 → s.dev.domRunning = true → s.dev.mute = false → s.dev.portUp port = true →
    (s.dev.activeSlots port).any (fun e => slotClass e == 1) = true → s.dev.nfp.mgmt = [] → sq < 64 →
    (s.dev.portsFor kind k.dst).contains port = true → s.dev.portTakes port kind k = true →
    (s.dev.nfp.answers = [] → s.dev.nfp.sqs = [(sq, kind, k)] →
      (s.dev.sqScheduled sq = false → Gives (.openSlot port) s fun t => t.dev.out = s.dev.out ++ [.nfp port (kind % 256) k] ∧ t.dev.nfp.sqs = [] ∧ t.dev.regs = s.dev.regs) ∧
      (s.dev.sqScheduled sq = true → GivesDev (.openSlot port) s s.dev)) ∧
    (s.dev.nfp.answers = [(kind, k)] → s.dev.nfp.sqs = [] → Gives (.openSlot port) s fun t =>
      t.dev.out = s.dev.out ++ [.nfp port (kind % 256) k] ∧ t.dev.nfp.answers = [] ∧ t.dev.regs = s.dev.regs))

/-- HBM_READ and SCRUB of a good line change nothing; up to three corrected symbols count in CE with event 1 and, once another line of the row was corrected within 24 hours, repair the row; four or more poison the line, fill MEM_ERR_LOG, count in UE with event 2 and repair the row: a spare row goes, PPR counts, the record gains an entry, event 3. HBM_WRITE leaves the line and its mark and no other. A refresh made ahead covers one that falls due, up to eight wait behind LAT reads, an idle pseudo-channel makes up or gets ahead by up to eight. A retrained channel is trained at the present time; one that cannot be is lost, or retiring with AUTO_RETIRE. A second parity error of a channel within 1 ms retrains it. A saturated window counts in SAT, with event 5 when LOG is 1. -/
def Obligations.MemoryLinesAndRefresh : Prop :=
  ∀ (s : State), s.runs →
    let get := fun (t : Sparse Nat) k => sget (fun _ => 0) t k
    (∀ c ∈ [Instr.hbmRead, .scrub], ∀ a sym,
      let p := (s.dev.placeNow a).1
      let off := (s.dev.placeNow a).2
      let bank := off / 1024 % 48
      let row := off / 1024 / 48
      let key := p * 2 ^ 32 + bank * 2 ^ 14 + row
      let used := get s.dev.pool.spareRows (p * 48 + bank)
      let good := inPool a = true ∧ reserveFrame (a / 2 ^ 21) = false ∧ s.dev.memPoison a = false
      let up := fun (t : State) f => t.dev.rd f = min (Fld.max f) (s.dev.rd f + 1)
      let other := fun (e : Nat × Nat × Nat) => e.1 = key ∧ e.2.1 ≠ a / 64 ∧ s.dev.now < e.2.2 + 8640000000000
      let few := (s.dev.pool.ceTimes.filter (fun e => e.1 == p && decide (s.dev.now < e.2 + 360000000000))).length + 1 < s.dev.rd MEM_RAS_CTRL_CE_LIMIT
      let repaired := fun (t : State) => get t.dev.pool.spareRows (p * 48 + bank) = used + 1 ∧ up t (MEM_PC_STATE_PPR p) ∧
        t.dev.nv.record = s.dev.nv.record ++ [rasEntry 2 0 p (bank * 2 ^ 14 + row) s.dev.now]
      (sym = 0 ∨ ¬good → GivesDev (c a sym) s s.dev) ∧
      (good → 0 < sym → sym < 4 → few →
        ((∀ e ∈ s.dev.pool.ceLines, ¬other e) → Gives (c a sym) s fun t => up t (MEM_PC_STATE_CE p) ∧
          t.dev.tdm.reports = s.dev.tdm.reports ++ [⟨3, 1, 1, p, key, 0, 0⟩] ∧ RegsKept s.dev t.dev [(MEM_PC_STATE_CE p).reg] ∧
          t = { s with dev := { s.dev with regs := t.dev.regs, tdm := t.dev.tdm, pool := { s.dev.pool with ceLines := t.dev.pool.ceLines, ceTimes := t.dev.pool.ceTimes } } }) ∧
        ((∃ e ∈ s.dev.pool.ceLines, other e) → used < 4 → s.dev.nv.record.length < 65536 → Gives (c a sym) s fun t => up t (MEM_PC_STATE_CE p) ∧
          repaired t ∧ t.dev.tdm.reports = s.dev.tdm.reports ++ [⟨3, 1, 1, p, key, 0, 0⟩, ⟨3, 1, 3, p, key, 0, 0⟩] ∧ MemKept s.dev t.dev)) ∧
      (good → 4 ≤ sym → used < 4 → s.dev.nv.record.length < 65536 →
        (s.dev.pool.ueTimes.filter (fun e => e.1 == p && decide (s.dev.now < e.2 + 8640000000000))).length + 1 < s.dev.rd MEM_RAS_CTRL_UE_LIMIT →
        Gives (c a sym) s fun t => up t (MEM_PC_STATE_UE p) ∧ repaired t ∧ t.dev.memPoison a = true ∧ (∀ b, t.dev.memByte b = s.dev.memByte b) ∧
          (∀ b, b / 64 ≠ a / 64 → t.dev.memPoison b = s.dev.memPoison b) ∧
          t.dev.tdm.reports = s.dev.tdm.reports ++ [⟨3, 2, 2, p, key, 0, 0⟩, ⟨3, 1, 3, p, key, 0, 0⟩] ∧
          t.dev.rd MEM_ERR_LOG_VALID = 1 ∧ t.dev.rd MEM_ERR_LOG_KIND = 1 ∧ (p < 512 → t.dev.rd MEM_ERR_LOG_PC = p) ∧ t.dev.rd MEM_ERR_LOG_BANK = bank ∧
          (row < 2 ^ 14 → t.dev.rd MEM_ERR_LOG_ROW = row) ∧ t.dev.rd MEM_ERR_LOG_SYMBOLS = if 5 < sym then 15 else sym)) ∧
    (∀ a data bad, (inPool a = true → reserveFrame (a / 2 ^ 21) = false → Gives (.hbmWrite a data bad) s fun t =>
        (∀ b, t.dev.memByte b = if b / 64 = a / 64 then lineByte data (b % 64) else s.dev.memByte b) ∧
        (∀ b, t.dev.memPoison b = if b / 64 = a / 64 then bad || s.dev.pool.lost.contains (placePc b) else s.dev.memPoison b) ∧
        t = { s with dev := { s.dev with pool := { s.dev.pool with hbm := t.dev.pool.hbm, poison := t.dev.pool.poison } } }) ∧
      ((inPool a = false ∨ reserveFrame (a / 2 ^ 21) = true) → GivesDev (.hbmWrite a data bad) s s.dev)) ∧
    (∀ pc, pc < 512 →
      let post := get s.dev.pool.postponed pc
      let ahead := get s.dev.pool.ahead pc
      let issues := fun lat idle n po ah => Gives (.perBankRefresh pc lat idle) s fun t =>
        get t.dev.pool.nextBank pc = (get s.dev.pool.nextBank pc + n) % 48 ∧ get t.dev.pool.postponed pc = po ∧ get t.dev.pool.ahead pc = ah ∧
        (∀ q, q ≠ pc → get t.dev.pool.nextBank q = get s.dev.pool.nextBank q ∧ get t.dev.pool.postponed q = get s.dev.pool.postponed q ∧
          get t.dev.pool.ahead q = get s.dev.pool.ahead q) ∧
        t = { s with dev := { s.dev with pool := { s.dev.pool with nextBank := t.dev.pool.nextBank, postponed := t.dev.pool.postponed, ahead := t.dev.pool.ahead } } }
      (∀ lat, (0 < post → issues lat true 1 (post - 1) ahead) ∧ (post = 0 → ahead < 8 → issues lat true 1 0 (ahead + 1)) ∧
        (post = 0 → 8 ≤ ahead → GivesDev (.perBankRefresh pc lat true) s s.dev) ∧ (0 < ahead → issues lat false 0 post (ahead - 1))) ∧
      (ahead = 0 → post < 8 → issues true false 0 (post + 1) 0) ∧ (ahead = 0 → 8 ≤ post → issues true false (post + 1) 0 0) ∧
      (ahead = 0 → issues false false (post + 1) 0 0) ∧
      (∀ bank, bank < 48 → Gives (.refreshManagementRequest pc bank) s fun t =>
        (∀ k, get t.dev.pool.extraRefresh k = get s.dev.pool.extraRefresh k + if k = pc * 48 + bank then 1 else 0) ∧
        t = { s with dev := { s.dev with pool := { s.dev.pool with extraRefresh := t.dev.pool.extraRefresh } } }) ∧
      (∀ full, let sat := s.dev.rd MEM_SAT_CTRL_SAT_PCT * s.dev.rd MEM_SAT_CTRL_WINDOW
        (full * 16 < sat → GivesDev (.saturationWindowEnd pc full) s s.dev) ∧
        (sat ≤ full * 16 → Gives (.saturationWindowEnd pc full) s fun t =>
          t.dev.rd (MEM_PC_STATE_SAT pc) = min (Fld.max (MEM_PC_STATE_SAT pc)) (s.dev.rd (MEM_PC_STATE_SAT pc) + 1) ∧
          t.dev.tdm.reports = s.dev.tdm.reports ++ (if s.dev.rd MEM_SAT_CTRL_LOG = 1 then [⟨3, 0, 5, pc, pc * 2 ^ 32, 0, 0⟩] else []) ∧
          RegsKept s.dev t.dev [(MEM_PC_STATE_SAT pc).reg] ∧ t = { s with dev := { s.dev with regs := t.dev.regs, tdm := t.dev.tdm } }))) ∧
    (∀ chan, chan < 256 →
      let trained := fun (c : Instr) => Gives c s fun t => get t.dev.pool.trained chan = s.dev.now ∧
        getKey t.dev.pool.trainTemp chan = some (sgn 16 (s.dev.rd (PWR_TEMP_NOW (6 + chan / 16)))) ∧ (∀ p ∈ t.dev.pool.lost, p ∈ s.dev.pool.lost ∧ p / 2 ≠ chan) ∧
        t = { s with dev := { s.dev with pool := { s.dev.pool with trained := t.dev.pool.trained, trainTemp := t.dev.pool.trainTemp, lost := t.dev.pool.lost, parityAt := t.dev.pool.parityAt } } }
      let lost := fun (c : Instr) => Gives c s fun t => (∀ p, p ∈ t.dev.pool.lost ↔ p ∈ s.dev.pool.lost ∨ p / 2 = chan) ∧
        t = { s with dev := { s.dev with regs := t.dev.regs, pool := { s.dev.pool with lost := t.dev.pool.lost, parityAt := t.dev.pool.parityAt } } }
      let both := s.dev.pcState (2 * chan) = 0 ∧ s.dev.pcState (2 * chan + 1) = 0
      trained (.channelRetrain chan true) ∧
      (both → s.dev.rd MEM_RAS_CTRL_AUTO_RETIRE = 0 → lost (.channelRetrain chan false)) ∧
      (both → s.dev.rd MEM_RAS_CTRL_AUTO_RETIRE = 1 → s.dev.pcsOut.length ≤ 8 → Gives (.channelRetrain chan false) s fun t =>
        t.dev.pcState (2 * chan) = 4 ∧ t.dev.pcState (2 * chan + 1) = 4 ∧
        RegsKept s.dev t.dev [(MEM_PC_STATE_STATE (2 * chan)).reg, (MEM_PC_STATE_STATE (2 * chan + 1)).reg] ∧ t = { s with dev := { s.dev with regs := t.dev.regs } }) ∧
      (∀ ok, getKey s.dev.pool.parityAt chan = none → Gives (.parityError chan ok) s fun t => getKey t.dev.pool.parityAt chan = some s.dev.now ∧
        t = { s with dev := { s.dev with pool := { s.dev.pool with parityAt := t.dev.pool.parityAt } } }) ∧
      (∀ at_, getKey s.dev.pool.parityAt chan = some at_ →
        (at_ + 100000 ≤ s.dev.now → ∀ ok, Gives (.parityError chan ok) s fun t => getKey t.dev.pool.parityAt chan = some s.dev.now ∧
          t = { s with dev := { s.dev with pool := { s.dev.pool with parityAt := t.dev.pool.parityAt } } }) ∧
        (s.dev.now < at_ + 100000 → trained (.parityError chan true) ∧
          (both → s.dev.rd MEM_RAS_CTRL_AUTO_RETIRE = 0 → lost (.parityError chan false) ∧ Gives (.parityError chan false) s fun t =>
            t.dev.rd MEM_ERR_LOG_VALID = 1 ∧ t.dev.rd MEM_ERR_LOG_KIND = 2 ∧ t.dev.rd MEM_ERR_LOG_PC = 2 * chan))))

/-- With no command running: TAKE_OUT of an IN pseudo-channel, none leaving, out or returning, makes it LEAVING, RETURN of an OUT one RETURNING, MARGIN of an OUT one starts its run, RETIRE of an IN one makes it RETIRING and of an OUT one RETIRED, with an entry in the record and event 4; an eleventh retirement is FAILED with RSV_EXHAUSTED and event 6. SWEEP in MAINTENANCE makes the first channel leave. Anything else is BUSY in MEM_MARGIN_RESULT, also while a command runs, and NOT_PERMITTED for what margins where the life-cycle state does not permit it; a KIND above 3 is discarded. The copy's end makes the pseudo-channel OUT, its shares at the free reserve shares in order, or IN again, and the command OK; a run's end gives LEFT and RIGHT, and a poor margin retires the pseudo-channel. -/
def Obligations.PseudoChannelCommands : Prop :=
  ∀ (s : State),
    let d := s.dev
    let cmdRegs := [MEM_PC_CMD_GO.reg, MEM_MARGIN_RESULT_DONE.reg]
    let starts := fun (t : State) (cmd : Nat × Nat × Nat) (pc st : Nat) => t.dev.pool.cmd = some cmd ∧ t.dev.rd MEM_PC_CMD_GO = 1 ∧ t.dev.pcState pc = st ∧
      RegsKept d t.dev (cmdRegs ++ [(MEM_PC_STATE_STATE pc).reg, MEM_STATUS_OUT.reg, RAS_SUMMARY_HBM_ROOM.reg]) ∧
      t = { s with dev := { d with regs := t.dev.regs, pool := { d.pool with cmd := t.dev.pool.cmd } } }
    let result := fun (t : State) (st : Status) (op pc kind : Nat) => t.dev.rd MEM_MARGIN_RESULT_STATUS = statusCode st ∧ t.dev.rd MEM_MARGIN_RESULT_OP = op ∧
      t.dev.rd MEM_MARGIN_RESULT_PC = pc ∧ t.dev.rd MEM_MARGIN_RESULT_KIND = kind ∧ t.dev.rd MEM_MARGIN_RESULT_DONE = 1
    let ends := fun (t : State) (st : Status) (op pc kind : Nat) => result t st op pc kind ∧ t.dev.pool.cmd = none ∧ t.dev.rd MEM_PC_CMD_GO = 0
    let turned := fun (c : Instr) (st : Status) (op pc kind : Nat) (reports : List TReport) => Gives c s fun t => ends t st op pc kind ∧
      t.dev.tdm.reports = d.tdm.reports ++ reports ∧ RegsKept d t.dev cmdRegs ∧
      t = { s with dev := { d with regs := t.dev.regs, tdm := t.dev.tdm, pool := { d.pool with cmd := none, sweepLeft := t.dev.pool.sweepLeft } } }
    d.svcState ≠ 3 →
    (∀ pc kind, s.ready → pc < 512 → kind < 4 →
      let margins := [(Instr.takeOut pc, 1, pc, 0), (.memReturn pc, 2, pc, 0), (.margin pc kind, 3, pc, kind)]
      (d.pool.cmd = none → d.marginOpen = true →
        (d.pcState pc = 0 → d.pcsOut.length < 10 → d.pcsIn [1, 2, 3] = [] → Gives (.takeOut pc) s fun t => starts t (1, pc, 0) pc 1) ∧
        (d.pcState pc ≠ 0 ∨ 10 ≤ d.pcsOut.length ∨ d.pcsIn [1, 2, 3] ≠ [] → turned (.takeOut pc) .busy 1 pc 0 []) ∧
        (d.pcState pc = 2 → Gives (.memReturn pc) s (fun t => starts t (2, pc, 0) pc 3) ∧ Gives (.margin pc kind) s (fun t => starts t (3, pc, kind) pc 2)) ∧
        (d.pcState pc ≠ 2 → turned (.memReturn pc) .busy 2 pc 0 [] ∧ turned (.margin pc kind) .busy 3 pc kind [])) ∧
      (∀ x ∈ margins, d.pool.cmd = none → d.marginOpen = false → turned x.1 .notPermitted x.2.1 x.2.2.1 x.2.2.2 [⟨15, 0, 5, 0, 0, 0, 0⟩]) ∧
      (∀ x ∈ margins ++ [(.retire pc, 4, pc, 0)], d.pool.cmd.isSome → Gives x.1 s fun t => result t .busy x.2.1 x.2.2.1 x.2.2.2 ∧
        t.dev.rd MEM_PC_CMD_GO = d.rd MEM_PC_CMD_GO ∧ RegsKept d t.dev cmdRegs ∧ t = { s with dev := { d with regs := t.dev.regs } }) ∧
      GivesDev (.margin pc (kind + 4)) s (d.event 0 0 2 3 (0x7F0000000000 + MEM_PC_CMD_GO.reg) (pcCmdWord pc 3 (kind + 4) 0).toNat 0) ∧
      (d.pool.cmd = none →
        (d.pcState pc = 0 → (d.pcsIn [4, 5]).length < 10 → d.pcsOut.length < 10 → d.pool.retireWait = [] → Gives (.retire pc) s fun t => starts t (4, pc, 0) pc 4) ∧
        (d.pcState pc = 2 → d.nv.record.length < 65536 → Gives (.retire pc) s fun t => ends t .ok 4 pc 0 ∧ t.dev.pcState pc = 5 ∧
          t.dev.nv.record = d.nv.record ++ [rasEntry 3 0 pc 0 d.now] ∧ t.dev.tdm.reports = d.tdm.reports ++ [⟨3, 2, 4, pc, pc * 2 ^ 32, 0, 0⟩]) ∧
        (d.pcState pc = 0 → 10 ≤ (d.pcsIn [4, 5]).length → d.pool.retireWait = [] → Gives (.retire pc) s fun t => ends t .ok 4 pc 0 ∧ t.dev.pcState pc = 6 ∧
          t.dev.rd MEM_STATUS_RSV_EXHAUSTED = 1 ∧ t.dev.tdm.reports = d.tdm.reports ++ [⟨3, 2, 6, pc, pc * 2 ^ 32, 0, 0⟩] ∧ t.dev.nv = d.nv))) ∧
    (∀ stack, s.ready → stack < 16 → d.pool.cmd = none → d.marginOpen = true →
      (d.svcState = 2 → d.pcsOut.length ≤ 8 → d.pcState (stack * 32) = 0 → d.pcState (stack * 32 + 1) = 0 → Gives (.sweep stack false) s fun t =>
        t.dev.pool.cmd = some (5, stack * 32, 0) ∧ t.dev.pool.sweepLeft = (List.range 16).map (stack * 16 + ·) ∧ t.dev.rd MEM_PC_CMD_GO = 1 ∧
        t.dev.pcState (stack * 32) = 1 ∧ t.dev.pcState (stack * 32 + 1) = 1) ∧
      (∀ all, d.svcState ≠ 2 ∨ 8 < d.pcsOut.length → turned (.sweep stack all) .busy 5 (stack * 32) 0 [])) ∧
    (∀ pc kind, s.runs → pc < 512 →
      (d.pcState pc = 1 → d.pool.cmd = some (1, pc, kind) → d.pool.redirect = [] → Gives (.takeOutCopyComplete pc) s fun t => ends t .ok 1 pc (kind % 16) ∧ t.dev.pcState pc = 2 ∧
        (∀ (i f x : Nat), plainFrames[i]? = some f → (d.freeShares (pc :: d.pcsOut))[i]? = some x → sget (fun _ => 0) t.dev.pool.redirect (pc * 196608 + f) = x + 1) ∧
        (∀ a, t.dev.memByte a = d.memByte a ∧ t.dev.memPoison a = d.memPoison a)) ∧
      (d.pcState pc ∉ [1, 4] → GivesDev (.takeOutCopyComplete pc) s d) ∧
      (d.pcState pc = 3 → d.pool.cmd = some (2, pc, kind) → d.pool.retireWait = [] → Gives (.returnCopyComplete pc) s fun t => ends t .ok 2 pc (kind % 16) ∧ t.dev.pcState pc = 0 ∧
        (∀ k, sget (fun _ => 0) t.dev.pool.redirect k = if k / 196608 = pc then 0 else sget (fun _ => 0) d.pool.redirect k) ∧
        (∀ a, t.dev.memByte a = d.memByte a ∧ t.dev.memPoison a = d.memPoison a)) ∧
      (d.pcState pc ≠ 3 → GivesDev (.returnCopyComplete pc) s d) ∧
      (∀ left right, d.pool.cmd = some (3, pc, kind) → kind < 16 →
        let shown := fun (t : State) => ends t .ok 3 pc kind ∧ t.dev.rd MEM_MARGIN_RESULT_LEFT = min left 255 ∧ t.dev.rd MEM_MARGIN_RESULT_RIGHT = min right 255
        (d.rd MEM_RAS_CTRL_MARGIN_MIN ≤ left + right → Gives (.marginRunComplete left right) s fun t => shown t ∧ RegsKept d t.dev cmdRegs ∧
          t = { s with dev := { d with regs := t.dev.regs, pool := { d.pool with cmd := none, sweepLeft := [] } } }) ∧
        (left + right < d.rd MEM_RAS_CTRL_MARGIN_MIN → d.rd MEM_RAS_CTRL_AUTO_RETIRE = 1 → d.pcState pc = 2 → Gives (.marginRunComplete left right) s fun t =>
          shown t ∧ t.dev.pcState pc = 5)))

/-- A tier task whose turn it is. PUBLISH_OPEN of a new name with a legal segment table takes the lowest free index for an OPEN entry and ends OK with it; a name in use, or a table of no segment or of one that is not whole frames, ends ABORTED, no room BUSY. PUBLISH_WRITE of whole stripes of an OPEN entry puts the bytes to the Shelf and runs; one off the stripes, or beyond the object, ends ABORTED with cause 0x82, poison POISON_CONSUMED, no OPEN entry HANDLE_INVALID. PUBLISH_PROGRAM_COMPLETE records the stripes as written with their digests and ends the task OK. PUBLISH_SEAL with every stripe written gives the object digest at its address and makes the entry SEALED, else ends ABORTED. DELETE frees an OPEN entry; a SEALED one of which handles are open becomes DELETING; without an entry it ends HANDLE_INVALID. -/
def Obligations.TierPublishing : Prop :=
  ∀ (s : State) (o : FeOp), s.dev.isWindward = false →
    let d := s.dev
    let e := o.entry
    let i := entF e 36 4
    let starts := fun (t : State) => OpBecomes s t o { o with phase := .running, start := d.tick }
    let oks := fun (t : State) (exit : BitVec 32) => OpBecomes s t o (o.ends d.tick .ok 0 exit)
    let others := fun (t : State) (i : Nat) => ∀ j, j ≠ i → t.dev.dirent? j = d.dirent? j
    (s.tierReady o 1 →
      let n := entF e 64 4
      let name := BitVec.ofNat 64 (entF e 40 8)
      let stop := fun st => Concludes (.publishOpen o.id) s o st 0 0
      (n = 0 ∨ 65535 < n → stop .aborted) ∧
      (∀ segs, 0 < n → n ≤ 65535 → d.vnums o.tag (entF e 48 8) 8 n = .ok (d, segs) →
        let legal := (∀ x ∈ d.nv.dir, x.name ≠ name) ∧ ∀ l ∈ segs, 0 < l ∧ l % 2 ^ 21 = 0 ∧ l ≤ 2 ^ 36
        let room := d.nv.dir.length < 65536 ∧ segs.sum / 2 ^ 20 ≤ d.rd TIER_SHELF_STATUS_FREE_STRIPES ∧ ∀ p, p < 16 → 246 ≤ d.spareBlocks p
        (¬legal → stop .aborted) ∧ (legal → ¬room → stop .busy) ∧
        (∀ k, legal → room → k < 65536 → d.dirent? k = none → (∀ j, j < k → d.dirent? j ≠ none) → Gives (.publishOpen o.id) s fun t =>
          oks t (BitVec.ofNat 32 k) ∧ t.dev.dirent? k = some ⟨k, name, 1, segs, [], [], []⟩ ∧ others t k ∧
          RegsKept d t.dev [TIER_POOL_STATUS_FREE.reg, TIER_SHELF_STATUS_OBJECTS.reg] ∧
          t = { s with dev := { d with regs := t.dev.regs, nv := { d.nv with dir := t.dev.nv.dir }, fe := { d.fe with ops := t.dev.fe.ops } } })) ∧
      (∀ st, 0 < n → n ≤ 65535 → d.vnums o.tag (entF e 48 8) 8 n = .error (.ended st) → stop st)) ∧
    (s.tierReady o 2 →
      let off := entF e 40 8
      let len := entF e 56 8
      let stop := fun st cause => Concludes (.publishWrite o.id) s o st cause 0
      (d.direntIn i 1 = none → stop .handleInvalid 0) ∧
      (∀ x, d.direntIn i 1 = some x →
        let fits := off % 2 ^ 20 = 0 ∧ 0 < len ∧ len % 2 ^ 20 = 0 ∧ off + len ≤ x.segs.sum
        (¬fits → stop .aborted 0x82) ∧
        (∀ bs, fits → d.vgather o.tag (entF e 48 8) len = .ok (d, bs) →
          (bs.any (·.2) = true → stop .poisonConsumed 0) ∧
          (bs.any (·.2) = false → Gives (.publishWrite o.id) s fun t => starts t ∧
            (∀ k, sget (fun _ => 0) t.dev.nv.flash k = if i * 2 ^ 50 + off ≤ k ∧ k < i * 2 ^ 50 + off + bs.length then (bs.map (·.1)).getD (k - (i * 2 ^ 50 + off)) 0
              else sget (fun _ => 0) d.nv.flash k) ∧
            t.dev.tier.publishes = d.tier.publishes ++ [⟨o.id, i, off / 2 ^ 20, len / 2 ^ 20⟩] ∧
            t = { s with dev := { d with nv := { d.nv with flash := t.dev.nv.flash }, fe := { d.fe with ops := t.dev.fe.ops }, tier := { d.tier with publishes := t.dev.tier.publishes } } })))) ∧
    (∀ p x, s.runs → d.op? o.id = some o → o.phase = .running → o.opcode = 4 → d.tier.publishes.find? (·.op == o.id) = some p → d.direntIn p.index 1 = some x →
      Gives (.publishProgramComplete o.id) s fun t => OpBecomes s t o (o.ends o.start .ok 0 0) ∧ others t p.index ∧ (∀ q ∈ t.dev.tier.publishes, q.op ≠ o.id) ∧
        (∃ x', t.dev.dirent? p.index = some x' ∧ x' = { x with written := x'.written, digests := x'.digests } ∧ (∀ w ∈ x.written, w ∈ x'.written) ∧
          ∀ k, p.first ≤ k ∧ k < p.first + p.count → k ∈ x'.written ∧ getKey x'.digests k = some (digest256 (d.stripe p.index k))) ∧
        t = { s with dev := { d with nv := { d.nv with dir := t.dev.nv.dir }, fe := { d.fe with ops := t.dev.fe.ops }, tier := { d.tier with publishes := t.dev.tier.publishes } } }) ∧
    (s.tierReady o 3 →
      (d.direntIn i 1 = none → Concludes (.publishSeal o.id) s o .handleInvalid 0 0) ∧
      (∀ x, d.direntIn i 1 = some x →
        ((∃ k, k < x.segs.sum / 2 ^ 20 ∧ k ∉ x.written) → Concludes (.publishSeal o.id) s o .aborted 0 0) ∧
        (∀ a, (∀ k, k < x.segs.sum / 2 ^ 20 → k ∈ x.written) → entF e 48 8 % 64 ≤ 32 → d.xlate o.tag (entF e 48 8) .write = .pa a → inPool a = true →
          reserveFrame (a / 2 ^ 21) = false → a % 64 = entF e 48 8 % 64 → Gives (.publishSeal o.id) s fun t => oks t 0 ∧ t.dev.dirent? i = some { x with state := 2 } ∧ others t i ∧
            (∀ k, k < 32 → t.dev.byteAt (a + k) = x.digest.extractLsb' (8 * k) 8) ∧ ∀ b, b < a ∨ a + 32 ≤ b → t.dev.byteAt b = d.byteAt b))) ∧
    (s.tierReady o 4 → s.tierCalm → d.tier.copies = [] → d.tier.waiters = [] →
      (d.dirent? i = none ∨ (∃ x, d.dirent? i = some x ∧ x.state ∉ [1, 2]) → Concludes (.shelfDelete o.id) s o .handleInvalid 0 0) ∧
      (∀ x, d.dirent? i = some x →
        let ends := fun (t : State) => oks t 0 ∧ others t i ∧ RegsKept d t.dev [TIER_POOL_STATUS_FREE.reg, TIER_SHELF_STATUS_OBJECTS.reg] ∧
          t = { s with dev := { d with regs := t.dev.regs, nv := { d.nv with dir := t.dev.nv.dir, flash := t.dev.nv.flash }, fe := { d.fe with ops := t.dev.fe.ops } } }
        (x.state = 1 → Gives (.shelfDelete o.id) s fun t => ends t ∧ t.dev.dirent? i = none ∧
          ∀ k, sget (fun _ => 0) t.dev.nv.flash k = if k / 2 ^ 50 = i then 0 else sget (fun _ => 0) d.nv.flash k) ∧
        (x.state = 2 → i < 2 ^ 80 → (∃ ob ∈ d.fe.objects, ob.tier = 1 ∧ ob.ident = i) → Gives (.shelfDelete o.id) s fun t =>
          ends t ∧ t.dev.dirent? i = some { x with state := 3 } ∧ t.dev.nv.flash = d.nv.flash)))

/-- A tier task whose turn it is, nothing else waiting. PROMOTE of a segment of a streamed object: of a VALID copy that the context references it completes OK at once; of a FILLING one it joins and waits; without a copy the first free frames of the pool become a FILLING copy that it references; without room it waits, with event 4. EVICT without a reference completes OK; else the reference goes, a VALID copy with no other joins the age list at the present time, and the task completes with the invalidation of the segment's pages. A promotion not complete at its deadline completes TIER_LATE, counted in LATE with event 1. An object that the handle does not name ends the task HANDLE_INVALID, a segment beyond its table ABORTED with cause 0x82. -/
def Obligations.TierPromotionAndEviction : Prop :=
  ∀ (s : State) (o : FeOp), s.tierCalm →
    let d := s.dev
    let tag := o.tag
    let seg := entF o.entry 64 4
    let starts := fun (t : State) => OpBecomes s t o { o with phase := .running, start := d.tick }
    let oks := fun (t : State) => OpBecomes s t o (o.ends d.tick .ok 0 0)
    let tierOnly := fun (t : State) => RegsKept d t.dev [TIER_POOL_STATUS_FREE.reg, TIER_SHELF_STATUS_OBJECTS.reg] ∧
      t = { s with dev := { d with regs := t.dev.regs, tier := t.dev.tier, fe := { d.fe with ops := t.dev.fe.ops }, tdm := { d.tdm with reports := t.dev.tdm.reports } } }
    (∀ c k, (c, k) ∈ [(Instr.promote o.id, 5), (.evict o.id, 6)] → s.tierReady o k →
      ((d.handleObject tag (entF o.entry 36 4) = none ∨ ∃ x, d.handleObject tag (entF o.entry 36 4) = some x ∧ x.flags.toNat % 4 = 0) → Concludes c s o .handleInvalid 0 0) ∧
      (∀ x, d.handleObject tag (entF o.entry 36 4) = some x → x.flags.toNat % 4 ≠ 0 → x.segs.length ≤ seg → Concludes c s o .aborted 0x82 0)) ∧
    (∀ x, d.handleObject tag (entF o.entry 36 4) = some x → x.flags.toNat % 4 ≠ 0 → seg < x.segs.length → x.ident < 2 ^ 80 → (∀ w ∈ d.tier.waiters, w.id < d.tier.nextWait) →
      let start := (x.segs.take seg).sum
      let w : Waiter := ⟨d.tier.nextWait, some o.id, tag, x.ident, seg, d.now + entF o.entry 68 4, true⟩
      (s.tierReady o 5 →
        (∀ c, d.copyOf x.ident seg = some c → tag ∈ c.refs →
          (c.state = 2 → Gives (.promote o.id) s fun t => oks t ∧ t.dev.tier = { d.tier with nextWait := d.tier.nextWait + 1 } ∧ tierOnly t) ∧
          (c.state = 1 → Gives (.promote o.id) s fun t => starts t ∧
            t.dev.tier = { d.tier with waiters := d.tier.waiters ++ [w], nextWait := d.tier.nextWait + 1 } ∧ tierOnly t)) ∧
        (d.copyOf x.ident seg = none → (∀ e, d.dirent? x.ident = some e → e.bad = []) →
          let free := d.tier.poolFrames.filter fun f => ∀ c ∈ d.tier.copies, f ∉ c.frames
          let n := x.segs.getD seg 0 / 2 ^ 21
          (n ≤ free.length → Gives (.promote o.id) s fun t => starts t ∧
            t.dev.tier = { d.tier with waiters := d.tier.waiters ++ [w], nextWait := d.tier.nextWait + 1, nextCopy := d.tier.nextCopy + 1, copies := d.tier.copies ++ [⟨d.tier.nextCopy, x.ident, seg, start, 1, free.take n, [tag], [], [], none, none⟩] } ∧
            t.dev.tdm = d.tdm ∧ tierOnly t) ∧
          (free.length < n → (∀ c ∈ d.tier.copies, c.stamp = none) → Gives (.promote o.id) s fun t => starts t ∧
            t.dev.tier = { d.tier with waiters := d.tier.waiters ++ [{ w with placed := false }], nextWait := d.tier.nextWait + 1 } ∧
            t.dev.tdm.reports = d.tdm.reports ++ [⟨6, 0, 4, x.ident, seg * 2 ^ 32, 0, 0⟩] ∧ tierOnly t))) ∧
      (s.tierReady o 6 →
        (d.copyOf x.ident seg = none ∨ (∃ c, d.copyOf x.ident seg = some c ∧ tag ∉ c.refs) → Concludes (.evict o.id) s o .ok 0 0) ∧
        (∀ c, d.copyOf x.ident seg = some c → d.copy? c.id = some c → c.refs = [tag] → c.state = 2 → d.tier.waiters = [] → d.ctu.invals.length < 16 →
          (∀ e, d.dirent? x.ident = some e → e.state ≠ 3) → Gives (.evict o.id) s fun t => starts t ∧
          t.dev.copyOf x.ident seg = some { c with refs := [], stamp := some d.now } ∧
          t.dev.ctu.invals = d.ctu.invals ++ [⟨d.ctu.nextId, some o.id, tag, some (x.base + c.start, x.base + c.start + c.frames.length * 2 ^ 21)⟩]))) ∧
    (∀ w, s.runs → d.tier.waiters.find? (·.id == w.id) = some w → w.op = some o.id → w.placed = false → d.op? o.id = some o → o.phase = .running → o.opcode = 4 →
      Gives (.promotionDeadline w.id) s fun t => OpBecomes s t o (o.ends o.start .tierLate 0 0) ∧
        t.dev.tier = { d.tier with waiters := d.tier.waiters.filter (·.id != w.id) } ∧
        t.dev.rd TIER_ERR_CNT_LATE = min (Fld.max TIER_ERR_CNT_LATE) (d.rd TIER_ERR_CNT_LATE + 1) ∧
        t.dev.tdm.reports = d.tdm.reports ++ [⟨6, 2, 1, if w.ident < 2 ^ 80 then w.ident else 0xFFFF, w.seg * 2 ^ 32, 0, 0⟩] ∧ MemKept d t.dev)

/-- SHELF_STRIPE_READ of the next stripe of the FILLING copy that is due first puts the Shelf's bytes at its place; with the last one the copy is VALID and what waits for it completes OK; a bad one makes the copy BAD, is recorded in the directory and in TIER_ERR_LOG, counts in DATA_ERR with event 2, and what waits completes TIER_DATA_ERROR. REFETCH_DEADLINE of a BAD copy's refetch ends it, counted and logged with kind 4. BIND_RECV of an unbound bind window over an aligned range of an object that allows it binds the window and waits; of a bound one it completes BUSY, of a window, object or range not allowed ABORTED with cause 0x82. UNBIND closes the window at once, ends the task that bound it ABORTED and completes OK; of another context's window it completes ABORTED with cause 0x82, of an unbound one OK. -/
def Obligations.TierFillsAndBindings : Prop :=
  ∀ (s : State), s.tierCalm →
    let d := s.dev
    (∀ cp stripe c, s.runs → d.copy? cp = some c → d.tier.bindings = [] → c.ident < 2 ^ 80 → c.state = 1 → c.stripes.find? (fun k => k ∉ c.got ∧ k ∉ c.bad) = some stripe →
      (d.nextFill.map (·.id)) = some cp →
      let a := c.paOf (stripe * 2 ^ 20 - c.start)
      let same := fun (t : State) (c' : Copy) => t.dev.copy? cp = some c' ∧ ∀ j, j ≠ cp → t.dev.copy? j = d.copy? j
      (a + 2 ^ 20 ≤ 0x6000000000 → a % 2 ^ 20 = 0 →
        ((∃ k ∈ c.stripes, k ≠ stripe ∧ k ∉ c.got) → Gives (.shelfStripeRead cp stripe false) s fun t => same t { c with got := c.got ++ [stripe] } ∧
          (∀ b, b < 2 ^ 20 → t.dev.byteAt (a + b) = d.flashByte c.ident (stripe * 2 ^ 20 + b)) ∧ (∀ b, b < a ∨ a + 2 ^ 20 ≤ b → t.dev.byteAt b = d.byteAt b) ∧
          t.dev.tier.waiters = d.tier.waiters ∧ t.dev.fe = d.fe ∧ t.dev.tdm = d.tdm) ∧
        ((∀ k ∈ c.stripes, k = stripe ∨ k ∈ c.got) → c.refs = [] → Gives (.shelfStripeRead cp stripe false) s fun t =>
          same t { c with state := 2, bad := [], refetch := none, got := c.stripes } ∧
          (∀ b, b < 2 ^ 20 → t.dev.byteAt (a + b) = d.flashByte c.ident (stripe * 2 ^ 20 + b)) ∧
          (∀ w ∈ d.tier.waiters, w.placed = true → w.ident = c.ident → w.seg = c.seg → w ∉ t.dev.tier.waiters ∧
            ∀ p o, w.op = some p → d.op? p = some o → o.ended = false → (t.dev.op? p).map (·.phase) = some (.done .ok 0 0)))) ∧
      (d.rd TIER_CTRL_REFETCH = 0 → Gives (.shelfStripeRead cp stripe true) s fun t =>
        same t { c with state := 3, bad := if c.bad.contains stripe then c.bad else c.bad ++ [stripe] } ∧
        t.dev.rd TIER_ERR_CNT_DATA_ERR = min (Fld.max TIER_ERR_CNT_DATA_ERR) (d.rd TIER_ERR_CNT_DATA_ERR + 1) ∧
        t.dev.rd TIER_ERR_LOG_VALID = 1 ∧ t.dev.rd TIER_ERR_LOG_KIND = 0 ∧ t.dev.rd TIER_ERR_LOG_OBJ = c.ident % 2 ^ 16 ∧
        t.dev.tdm.reports = d.tdm.reports ++ [⟨6, 2, 2, c.ident, c.seg * 2 ^ 32 + stripe, 0, 0⟩] ∧
        (∀ e, d.dirent? c.ident = some e → (t.dev.dirent? c.ident).any (fun e' => e'.bad.contains stripe) = true) ∧
        (∀ w ∈ d.tier.waiters, w.placed = true → w.ident = c.ident → w.seg = c.seg → w ∉ t.dev.tier.waiters ∧
          ∀ p o, w.op = some p → d.op? p = some o → o.ended = false → (t.dev.op? p).map (·.phase) = some (.done .tierDataError 0 0)))) ∧
    (∀ cp c, s.runs → d.copy? cp = some c → d.tier.bindings = [] →
      (c.refetch = none → GivesDev (.refetchDeadline cp) s d) ∧
      (c.refetch ≠ none → c.state = 3 → Gives (.refetchDeadline cp) s fun t => t.dev.copy? cp = some { c with refetch := none } ∧
        t.dev.rd TIER_ERR_CNT_REFETCH_FAIL = min (Fld.max TIER_ERR_CNT_REFETCH_FAIL) (d.rd TIER_ERR_CNT_REFETCH_FAIL + 1) ∧
        t.dev.rd TIER_ERR_LOG_VALID = 1 ∧ t.dev.rd TIER_ERR_LOG_KIND = 4 ∧ RegsKept d t.dev [TIER_ERR_CNT_REFETCH_FAIL.reg, TIER_ERR_LOG_VALID.reg] ∧
        t = { s with dev := { d with regs := t.dev.regs, tier := { d.tier with copies := t.dev.tier.copies } } })) ∧
    (∀ o : FeOp, s.tierReady o 7 →
      let e := o.entry
      let win := entF e 72 2
      let off := entF e 40 8
      let len := entF e 56 8
      let h := d.handleObject o.tag (entF e 36 4)
      entF e 76 4 = 0 →
      (h = none → Concludes (.bindRecv o.id) s o .handleInvalid 0 0) ∧
      (∀ x, h = some x →
        let fits := 256 ≤ win ∧ win ≤ 4095 ∧ x.flags.toNat % 4 = 0 ∧ x.flags.getLsbD 9 = true ∧ off % 4096 = 0 ∧ len % 4096 = 0 ∧ 0 < len ∧ off + len ≤ x.size
        (¬fits → Concludes (.bindRecv o.id) s o .aborted 0x82 0) ∧
        (fits → d.rd (NFP_WIN_W0_BOUND win) = 1 → Concludes (.bindRecv o.id) s o .busy 0 0) ∧
        (fits → d.rd (NFP_WIN_W0_BOUND win) = 0 → Gives (.bindRecv o.id) s fun t => OpBecomes s t o { o with phase := .running, start := d.tick } ∧
          t.dev.tier.bindings = d.tier.bindings ++ [⟨win, some o.id, none, o.tag, x.id, off, len, [], false, 0, false, entF e 48 8, none, entF e 80 8⟩] ∧
          t.dev.rd (NFP_WIN_W0_BOUND win) = 1 ∧ (d.jobOf (d.rd (NFP_WIN_W0_EPOCH win)) ≠ none → t.dev.rd (NFP_WIN_W0_OPEN win) = 1) ∧
          RegsKept d t.dev [(NFP_WIN_W0_BOUND win).reg] ∧
          t = { s with dev := { d with regs := t.dev.regs, fe := { d.fe with ops := t.dev.fe.ops }, tier := { d.tier with bindings := t.dev.tier.bindings } } }))) ∧
    (∀ o : FeOp, s.tierReady o 8 →
      let win := entF o.entry 72 2
      (d.binding? win = none → Concludes (.unbind o.id) s o (if 256 ≤ win ∧ win ≤ 4095 then .ok else .aborted) (if 256 ≤ win ∧ win ≤ 4095 then 0 else 0x82) 0) ∧
      (∀ b, d.binding? win = some b →
        (b.fill ≠ none ∨ b.tag ≠ o.tag → Concludes (.unbind o.id) s o .aborted 0x82 0) ∧
        (∀ p q, b.fill = none → b.tag = o.tag → b.op = some p → p ≠ o.id → d.op? p = some q → q.phase = .running → q.opcode = 4 → Gives (.unbind o.id) s fun t =>
          t.dev.op? o.id = some (o.ends d.tick .ok 0 0) ∧ t.dev.op? p = some (q.ends q.start .aborted 0 0) ∧ (∀ j, j ≠ p → j ≠ o.id → t.dev.op? j = d.op? j) ∧
          t.dev.rd (NFP_WIN_W0_OPEN win) = 0 ∧ t.dev.rd (NFP_WIN_W0_BOUND win) = 0 ∧ t.dev.tier.bindings = d.tier.bindings.filter (·.win != win) ∧
          RegsKept d t.dev [(NFP_WIN_W0_BOUND win).reg] ∧
          t = { s with dev := { d with regs := t.dev.regs, fe := { d.fe with ops := t.dev.fe.ops }, tier := { d.tier with bindings := t.dev.tier.bindings } } })))

/-- For a line of the pool on which nothing waits, from a cache in service that may ask and has room, or from an agent that is not dead: RD_SHARED, with no other owner, gives the line S where another cache holds it, else E; RD_OWN and UPGRADE, with no other holder, give E; RD_ONCE, with no owner, answers the home's line; WR with no holder and no hint merges the bytes and their mark; ATOM with no holder performs its lane on the home's line and answers the value before; CLEAN and FLUSH with nobody to ask change nothing. Where another cache owns, or for RD_OWN, UPGRADE, WR, ATOM and FLUSH holds, the line, a transaction begins that waits for each of them. MOVE brings the line and its entry from the system cache of the die to the core's L2. EVICT_LINE drops a line and its entry; a modified one is written home. -/
def Obligations.HomeServesRequests : Prop :=
  ∀ (s : State) (l : Nat), s.runs → homeLineOk l = true → (∀ t ∈ s.dev.coh.txns, t.line ≠ l) → (∀ w ∈ s.dev.coh.waiting, w.1 ≠ l) →
    let d := s.dev
    let holders := fun (me : Option Nat) => (d.coh.dups.filter fun x => x.line == l && me != some x.cache).map (·.cache)
    let owners := fun (me : Option Nat) => ((d.coh.dups.filter fun x => x.line == l && me != some x.cache).filter (·.owned)).map (·.cache)
    let cohOnly := fun (t : State) => t = { s with dev := { d with coh := t.dev.coh } } ∧
      (∀ c k, k ≠ l → t.dev.cline? c k = d.cline? c k ∧ t.dev.dup? c k = d.dup? c k)
    let waits := fun (c : Instr) (r : HomeReq) (snoop : Nat) (cs : List Nat) => Gives c s fun t =>
      t.dev.coh = { d.coh with txns := d.coh.txns ++ [⟨l, r, snoop, cs⟩] } ∧ t = { s with dev := { d with coh := t.dev.coh } }
    let granted := fun (i : Instr) (c : Nat) (st : Mesi) (x : BitVec 512) (bad : Bool) => Gives i s fun t =>
      t.dev.cline? c l = some ⟨c, l, st, x, bad⟩ ∧ t.dev.dup? c l = some ⟨c, l, st != .s⟩ ∧
      (∀ k, k ≠ c → t.dev.cline? k l = d.cline? k l ∧ t.dev.dup? k l = d.dup? k l) ∧ cohOnly t
    (∀ c, c < 68 → d.cacheLives c = true →
      (d.cline? c l = none → d.setFull c l = false →
        (owners (some c) = [] → granted (.rdShared c l) c (if holders (some c) = [] then .e else .s) (d.homeLine l) (d.homePoison l)) ∧
        (owners (some c) ≠ [] → waits (.rdShared c l) (.rdShared c) 0 (owners (some c))) ∧
        (holders (some c) = [] → granted (.rdOwn c l) c .e (d.homeLine l) (d.homePoison l)) ∧
        (holders (some c) ≠ [] → waits (.rdOwn c l) (.rdOwn c) 2 (holders (some c))) ∧
        (∀ x, c < 66 → d.cline? (66 + c / 33) l = some x → d.dup? (66 + c / 33) l = some ⟨66 + c / 33, l, x.st != .s⟩ → d.dup? c l = none → Gives (.cohMove c l) s fun t =>
          t.dev.cline? c l = some { x with cache := c } ∧ t.dev.cline? (66 + c / 33) l = none ∧
          t.dev.dup? c l = some ⟨c, l, x.st != .s⟩ ∧ t.dev.dup? (66 + c / 33) l = none ∧
          t = { s with dev := { d with coh := t.dev.coh, cores := t.dev.cores } })) ∧
      (∀ x, d.cline? c l = some x → x.st = .s →
        (holders (some c) = [] → granted (.upgrade c l) c .e x.data x.poisoned) ∧
        (holders (some c) ≠ [] → waits (.upgrade c l) (.upgrade c) 2 (holders (some c)))) ∧
      (c < 66 → d.dup? c l = none →
        (owners none = [] → GivesDev (.clean c l) s d) ∧ (owners (some c) ≠ [] → waits (.clean c l) (.clean c) 1 (owners (some c))) ∧
        (holders none = [] → GivesDev (.flush c l) s d) ∧ (holders (some c) ≠ [] → waits (.flush c l) (.flush c) 2 (holders (some c)))) ∧
      (c < 66 → d.dup? c l = some ⟨c, l, true⟩ → d.coh.dups.filter (fun x => x.line == l) = [⟨c, l, true⟩] →
        waits (.clean c l) (.clean c) 1 [c] ∧ waits (.flush c l) (.flush c) 2 [c]) ∧
      (∀ x, d.cline? c l = some x → (∀ k ∈ d.cores.cores, k.task = none) → Gives (.evictLine c l) s fun t =>
        t.dev.cline? c l = none ∧ t.dev.dup? c l = none ∧ (∀ k, k ≠ c → t.dev.cline? k l = d.cline? k l ∧ t.dev.dup? k l = d.dup? k l) ∧
        (∀ a, t.dev.memByte a = if a / 64 = l ∧ x.st = .m then lineByte x.data (a % 64) else d.memByte a) ∧
        (∀ a, a / 64 = l → x.st = .m → t.dev.memPoison a = (x.poisoned || d.pool.lost.contains (placePc a))) ∧
        (∀ k ∈ t.dev.cores.cores, k.id = c → k.resv ≠ some l) ∧
        t = { s with dev := { d with coh := t.dev.coh, cores := t.dev.cores, pool := { d.pool with hbm := t.dev.pool.hbm, poison := t.dev.pool.poison } } })) ∧
    (∀ a, d.agentState a ≠ 3 →
      (owners none = [] → Gives (.rdOnce a l) s fun t =>
        t.dev.coh = { d.coh with answers := d.coh.answers ++ [⟨a, l, d.homeLine l, d.homePoison l, []⟩] } ∧ cohOnly t) ∧
      (owners none ≠ [] → waits (.rdOnce a l) (.rdOnce a) 1 (owners none)) ∧
      (∀ mask data bad hint,
        (holders none = [] → d.hintFor l hint.toNat = 0 → Gives (.wr a l mask data bad hint) s fun t =>
          (∀ b, t.dev.memByte b = if b / 64 = l ∧ mask.getLsbD (b % 64) = true then lineByte data (b % 64) else d.memByte b) ∧
          (∀ b, t.dev.memPoison b = if b / 64 = l then bad || (mask != BitVec.allOnes 64 && d.homePoison l) || d.pool.lost.contains (placePc b) else d.memPoison b) ∧
          t = { s with dev := { d with pool := { d.pool with hbm := t.dev.pool.hbm, poison := t.dev.pool.poison } } }) ∧
        (holders none ≠ [] → waits (.wr a l mask data bad hint) (.wr a mask data bad hint) 2 (holders none))) ∧
      (∀ x : AtomLane,
        let n := if x.wide then 8 else 4
        let old := leNat ((List.range n).map fun i => d.memByte (l * 64 + x.off + i))
        x.off + n ≤ 64 → (holders none ≠ [] → waits (.atom a l [x]) (.atom a [x]) 2 (holders none)) ∧
        (∀ new, holders none = [] → atomResult x.func.toNat x.wide old (x.a.toNat % 2 ^ (8 * n)) (x.b.toNat % 2 ^ (8 * n)) = some new → new < 2 ^ (8 * n) →
          Gives (.atom a l [x]) s fun t =>
          (∀ b, t.dev.memByte b = if l * 64 + x.off ≤ b ∧ b < l * 64 + x.off + n then BitVec.ofNat 8 (new / 256 ^ (b - (l * 64 + x.off))) else d.memByte b) ∧
          t.dev.coh = { d.coh with answers := d.coh.answers ++ [⟨a, l, d.homeLine l, d.homePoison l, [BitVec.ofNat 64 old]⟩] } ∧
          t = { s with dev := { d with coh := t.dev.coh, pool := { d.pool with hbm := t.dev.pool.hbm, poison := t.dev.pool.poison } } })))

/-- The snoop that a transaction waits for from a living cache: SNP_SHARE leaves its line S, SNP_CLEAN a modified one E, SNP_INV none, each with the modified data in the answer; without the line the answer is that it is gone. SNP_ANS of a done or gone line writes modified data home and takes the cache from the wait; the last answer performs the request. WAY_TARGET_WRITE within the cache's range sets TARGET; fewer ways than IN_FORCE start cleaning, else are in force at once; one out of range, or while ways are cleaned, is discarded; when cleaning ends TARGET is in force. A corrected data error counts in DATA_CE with event 1; a double-bit one in a tracked cache counts in DATA_UE and drops an unmodified line or poisons a modified one. A tag parity error that another copy mends counts in TAG_FIXED with event 2; one in both copies of a home takes the domain down. -/
def Obligations.SnoopsWaysAndCacheErrors : Prop :=
  ∀ (s : State), s.runs →
    let d := s.dev
    (∀ c l x, (∃ t ∈ d.coh.txns, t.line = l ∧ c ∈ t.wait) → d.cacheLives c = true → (∀ a ∈ d.coh.snpAns, (a.cache, a.line) ≠ (c, l)) → d.cline? c l = x →
      let dirty := x.bind fun y => if y.st = .m then some (y.data, y.poisoned) else none
      let answers := fun (i : Instr) (kind : Nat) (after : Option CLine) => (∃ t ∈ d.coh.txns, t.line = l ∧ t.snoop = kind ∧ c ∈ t.wait) → Gives i s fun t =>
        t.dev.cline? c l = after ∧ (∀ k m, (k, m) ≠ (c, l) → t.dev.cline? k m = d.cline? k m) ∧
        t.dev.coh = { d.coh with lines := t.dev.coh.lines, snpAns := d.coh.snpAns ++ [⟨c, l, if x.isSome then 0 else 1, dirty⟩] } ∧
        t = { s with dev := { d with coh := t.dev.coh, cores := t.dev.cores } }
      (x.isSome ∨ c < 66) →
      answers (.snpShare c l) 0 (x.map fun y => { y with st := .s }) ∧
      answers (.snpClean c l) 1 (x.map fun y => { y with st := if y.st = .m then .e else y.st }) ∧
      answers (.snpInv c l) 2 none) ∧
    (∀ c l (a : SnpAnswer) (x : Txn) a0, d.coh.snpAns.find? (fun y => y.cache == c && y.line == l) = some a → a.sub ≠ 2 → d.coh.txns.find? (·.line == l) = some x → x.req = .rdOnce a0 →
      x.snoop = 1 → (∀ k ∈ d.cores.cores, k.task = none) → (∀ w ∈ d.coh.waiting, w.1 ≠ l) →
      let home := match a.data with | some (y, _) => y | none => d.homeLine l
      (x.wait = [c] → Gives (.snpAns c l) s fun t => (∀ y ∈ t.dev.coh.txns, y.line ≠ l) ∧ (∀ y ∈ t.dev.coh.snpAns, (y.cache, y.line) ≠ (c, l)) ∧
        (∀ b, t.dev.memByte b = if b / 64 = l ∧ a.data.isSome then lineByte home (b % 64) else d.memByte b) ∧
        (∃ bad, t.dev.coh.answers = d.coh.answers ++ [⟨a0, l, home, bad, []⟩])) ∧
      (∀ k, k ≠ c → k ∈ x.wait → Gives (.snpAns c l) s fun t => t.dev.coh.answers = d.coh.answers ∧
        (t.dev.coh.txns.find? (·.line == l)).map (·.wait) = some (x.wait.filter (· != c)))) ∧
    (∀ c v, s.ready → c ≤ 5 →
      let target := fieldOf v 13 9
      let range := if c < 4 then 4 ≤ target ∧ target ≤ 24 else 2 ≤ target ∧ target ≤ 16
      (d.rd (COH_WAYS_CLEANING c) = 1 ∨ ¬range → GivesDev (.wayTargetWrite c v) s (d.event 0 0 2 5 (0x7F0000000000 + (COH_WAYS_TARGET c).reg) v.toNat 0)) ∧
      (d.rd (COH_WAYS_CLEANING c) = 0 → range → Gives (.wayTargetWrite c v) s fun t => t.dev.rd (COH_WAYS_TARGET c) = target ∧
        t.dev.rd (COH_WAYS_CLEANING c) = (if target < d.rd (COH_WAYS_IN_FORCE c) then 1 else 0) ∧
        t.dev.rd (COH_WAYS_IN_FORCE c) = max target (d.rd (COH_WAYS_IN_FORCE c)) ∧
        RegsKept d t.dev [(COH_WAYS_TARGET c).reg] ∧ t = { s with dev := { d with regs := t.dev.regs } })) ∧
    (∀ c, c ≤ 5 → (d.rd (COH_WAYS_CLEANING c) = 0 → GivesDev (.wayCleaningComplete c) s d) ∧
      (d.rd (COH_WAYS_CLEANING c) = 1 → (∀ x ∈ d.coh.lines, x.cache < 66) → Gives (.wayCleaningComplete c) s fun t => t.dev.rd (COH_WAYS_CLEANING c) = 0 ∧
        t.dev.rd (COH_WAYS_IN_FORCE c) = d.rd (COH_WAYS_TARGET c) ∧ RegsKept d t.dev [(COH_WAYS_TARGET c).reg] ∧ t = { s with dev := { d with regs := t.dev.regs } })) ∧
    (∀ c l,
      let src := if c < 66 then 16 * (c / 33) + c % 33 / 4 else if c < 68 then c - 62 else c - 68
      let counted := fun (t : State) (f : Fld) (sev ev : Nat) => t.dev.rd f = min f.max (d.rd f + 1) ∧ t.dev.tdm.reports = d.tdm.reports ++ [⟨4, sev, ev, src, l * 64, 0, 0⟩]
      let only := fun (t : State) (f : Fld) => RegsKept d t.dev [f.reg] ∧ t = { s with dev := { d with regs := t.dev.regs, tdm := { d.tdm with reports := t.dev.tdm.reports } } }
      (c < 72 → Gives (.cacheDataError c l false) s fun t => counted t COH_ERR_CNT_DATA_CE 1 1 ∧ only t COH_ERR_CNT_DATA_CE) ∧
      (c < 68 → Gives (.cacheTagParityError .l1Core c l 0) s fun t => counted t COH_ERR_CNT_TAG_FIXED 1 2 ∧ only t COH_ERR_CNT_TAG_FIXED) ∧
      (∀ x, c < 68 → d.cline? c l = some x → (∀ t ∈ d.coh.txns, t.line ≠ l) → (∀ k ∈ d.cores.cores, k.task = none) →
        (x.st = .m → Gives (.cacheDataError c l true) s fun t => counted t COH_ERR_CNT_DATA_UE 2 1 ∧ t.dev.cline? c l = some { x with poisoned := true } ∧ t.dev.pool = d.pool) ∧
        (x.st ≠ .m → Gives (.cacheDataError c l true) s fun t => counted t COH_ERR_CNT_DATA_UE 1 1 ∧ t.dev.cline? c l = none ∧ t.dev.dup? c l = none ∧ t.dev.pool = d.pool) ∧
        (x.st ≠ .m → Gives (.cacheTagParityError .l2OrSystem c l 0) s fun t => counted t COH_ERR_CNT_TAG_FIXED 1 2 ∧ t.dev.cline? c l = none ∧ t.dev.pool = d.pool) ∧
        Gives (.cacheTagParityError .duplicate c l 0) s fun t => counted t COH_ERR_CNT_TAG_FIXED 1 2 ∧ t.dev.dup? c l = some ⟨c, l, x.st != .s⟩ ∧ t.dev.coh.lines = d.coh.lines) ∧
      (∀ home, home < 4 → d.tdm.dump = none → d.rd TDM_DUMP_VALID = 0 → Gives (.cacheTagParityError .both c l home) s fun t => t.dev.down = true ∧
        t.dev.rd COH_STATUS_FATAL_AGENT = 0x58 + home ∧ t.dev.rd COH_STATUS_FATAL_CAUSE = 4 ∧ t.dev.agentState (0x58 + home) = 3 ∧ t.dev.rd TDM_DUMP_STATE = 1 ∧
        t.dev.tdm.reports = d.tdm.reports ++ [⟨4, 3, 4, 0x58 + home, 0, 4, 0⟩]))

/-- A query without a context of its tag, or beyond 57 bits, ends RIGHTS; one that an entry covers gets the leaf's address where the leaf allows it, else RIGHTS without the resolvable mark; a miss begins a walk from the context's root. An entry read that is poisoned ends the walk's requests POISON_CONSUMED, a table entry takes the walk a level down, a page leaf is cached and answered, one not present is a fault: FAULT_UNRESOLVED with the fault ring off, else a record. A request refused tries again. RETRY of a record replays its requests, FAIL and the timeout end them with the record's status; a free ID gives event 2. RANGE and TAG drop the entries and walk-cache entries of the tag and complete when told; an illegal range reads ABORTED. Counters halve unless PERIOD_MS is 0. A legal ring is enabled with its pointers at 0. Without a standby a switchover takes the domain down, else the other CTU serves and WARN is set. -/
def Obligations.CtuTranslatesAndInvalidates : Prop :=
  ∀ (s : State), s.runs →
    let d := s.dev
    let only := fun (t : State) (l : List Nat) => RegsKept d t.dev l ∧ t = { s with dev := { d with regs := t.dev.regs, ctu := t.dev.ctu } }
    let answered := fun (t : State) (u : Ctu) (xs : List (CtuReq × CtuAnswer)) => t.dev.ctu = { u with answers := d.ctu.answers ++ xs }
    let hit := fun tag va (e : Tlb) => d.ctu.tlb.find? (fun t => t.tag == tag && decide (t.vpage ≤ va) && decide (va < t.vpage + t.span)) = some e
    let miss := fun tag va => d.ctu.tlb.find? (fun t => t.tag == tag && decide (t.vpage ≤ va) && decide (va < t.vpage + t.span)) = none
    let walks := fun (t : State) (u : Ctu) (r : CtuReq) (root : Nat) => t.dev.ctu = { u with walks := u.walks ++ [⟨u.nextId, r.tag, r.va, 4, root, [r], false⟩], nextId := u.nextId + 1 } ∧
      only t [CTU_FQ_STATUS_PENDING.reg, CTU_STATUS_WALKS.reg]
    let freshWalk := fun (r : CtuReq) (c : Context) => r.va.toNat < 2 ^ 57 ∧ d.context? r.tag = some c ∧ miss r.tag r.va.toNat ∧ d.ctu.walkCache = [] ∧
      (∀ w ∈ d.ctu.walks, w.tag = r.tag → w.va.toNat / 4096 ≠ r.va.toNat / 4096) ∧ d.ctu.walks.length < 64
    (∀ port tag va acc lines, port ≤ 50 →
      let r : CtuReq := ⟨d.ctu.nextId, port, tag, va, acc, lines⟩
      let c := Instr.translationQuery port tag va acc lines
      let u := { d.ctu with nextId := d.ctu.nextId + 1 }
      (2 ^ 57 ≤ va.toNat ∨ d.context? tag = none → Gives c s fun t => answered t u [(r, .ended .rights)] ∧ only t []) ∧
      (∀ cx e, va.toNat < 2 ^ 57 → d.context? tag = some cx → hit tag va.toNat e → e.span = levelSpan e.level → e.leaf.getLsbD 6 = false →
        let seen := { u with tlb := d.ctu.tlb.map fun x => if x = e then { x with used := true } else x }
        (leafUsable e.leaf = true → leafAllows e.leaf acc = true → Gives c s fun t => answered t seen [(r, .pa (BitVec.ofNat 64 (leafPa e.leaf e.level va.toNat)))] ∧ only t []) ∧
        (leafUsable e.leaf = false ∨ (leafAllows e.leaf acc = false ∧ e.leaf.getLsbD 5 = false) → Gives c s fun t => answered t seen [(r, .ended .rights)] ∧ only t [])) ∧
      (∀ cx, freshWalk r cx → Gives c s fun t => walks t u r cx.root)) ∧
    (∀ r : CtuReq, d.ctu.stalled.find? (·.id == r.id) = some r →
      let u := { d.ctu with stalled := d.ctu.stalled.filter (·.id != r.id) }
      (d.context? r.tag = none → Gives (.faultRetry r.id) s fun t => answered t u [(r, .ended .rights)] ∧ only t []) ∧
      (∀ cx, freshWalk r cx → Gives (.faultRetry r.id) s fun t => walks t u r cx.root)) ∧
    (∀ w : Walk, d.ctu.walks.find? (·.id == w.id) = some w → w.level ≤ 4 →
      let a := w.table + 8 * (w.va.toNat / 2 ^ (12 + 9 * w.level) % 512)
      let e := BitVec.ofNat 64 (d.natAt a 8)
      let gone := { d.ctu with walks := d.ctu.walks.filter (·.id != w.id) }
      let ends := fun (st : Status) => Gives (.walkReadComplete w.id) s fun t => answered t gone (w.reqs.map fun r => (r, .ended st)) ∧ only t [CTU_FQ_STATUS_PENDING.reg, CTU_STATUS_WALKS.reg]
      (d.poisonAt a = true → ends .poisonConsumed) ∧
      (d.poisonAt a = false →
        (∀ table, walkEntry w.level e = .next table → d.ctu.walkCache.length < 8192 → Gives (.walkReadComplete w.id) s fun t =>
          (t.dev.ctu.walks.find? (·.id == w.id)) = some { w with level := w.level - 1, table := table } ∧
          t.dev.ctu.walkCache = d.ctu.walkCache ++ (if w.noCache then [] else [(w.tag, w.level, w.va.toNat / levelSpan w.level * levelSpan w.level, e)]) ∧
          t.dev.ctu.answers = d.ctu.answers ∧ only t []) ∧
        (∀ r, walkEntry w.level e = .leaf → w.reqs = [r] → r.va = w.va → fieldOf e 10 8 = 0 → leafUsable e = true → leafAllows e r.acc = true → e.getLsbD 6 = false → w.noCache = false →
          (d.ctu.tlb.filter fun x => x.level == w.level && tlbSet x.level x.tag x.vpage == tlbSet w.level w.tag (w.va.toNat / levelSpan w.level * levelSpan w.level)).length < tlbWays w.level →
          Gives (.walkReadComplete w.id) s fun t => t.dev.ctu.answers = d.ctu.answers ++ [(r, .pa (BitVec.ofNat 64 (leafPa e w.level r.va.toNat)))] ∧
            t.dev.ctu.walks = gone.walks ∧ (⟨w.tag, w.va.toNat / levelSpan w.level * levelSpan w.level, levelSpan w.level, e, w.level, true⟩ : Tlb) ∈ t.dev.ctu.tlb) ∧
        ((∀ r ∈ w.reqs, (d.context? r.tag).any (·.dying.isSome) = false) → d.rd CTU_FQ_BASE_EN = 0 →
          walkEntry w.level e = .notPresent ∨ walkEntry w.level e = .malformed → ends .faultUnresolved) ∧
        (∀ r, w.reqs = [r] → (d.context? r.tag).any (·.dying.isSome) = false → d.rd CTU_FQ_BASE_EN = 1 → d.twn.resolves = [] → walkEntry w.level e = .notPresent → d.faultsFull = false →
          (∀ f ∈ d.ctu.faults, (f.tag, f.page) ≠ (r.tag, r.va.toNat / 4096 * 4096)) → Gives (.walkReadComplete w.id) s fun t =>
          t.dev.ctu.faults = d.ctu.faults ++ [⟨d.freeRecord, r.tag, r.va.toNat / 4096 * 4096, 1, accMask r.acc, BitVec.ofNat 64 (2 ^ (r.port % 64)), w.level, e, d.now, [r]⟩] ∧
          t.dev.ctu.walks = gone.walks ∧ t.dev.ctu.answers = d.ctu.answers ∧
          (d.isLeeward = false → t.dev.rd CTU_FQ_PTR_TAIL = (d.rd CTU_FQ_PTR_TAIL + 1) % 2 ^ d.rd CTU_FQ_BASE_LOG2 % 2 ^ 16)))) ∧
    (∀ id, id < 2048 → s.ready → d.isWindward = false →
      (∀ c ∈ [Instr.ctuRetry id, .ctuFail id], (∀ f ∈ d.ctu.faults, f.id ≠ id) → GivesDev c s (d.event 5 0 2 0 0 id 0)) ∧
      (∀ f, d.ctu.faults.find? (·.id == id) = some f →
        let u := { d.ctu with faults := d.ctu.faults.filter (·.id != id) }
        Gives (.ctuFail id) s (fun t => answered t u (f.reqs.map fun r => (r, .ended (if f.kind = 2 then .rights else .faultUnresolved))) ∧ only t [CTU_FQ_STATUS_PENDING.reg, CTU_STATUS_WALKS.reg]) ∧
        (∀ r cx, f.reqs = [r] → freshWalk r cx → Gives (.ctuRetry id) s fun t => walks t u r cx.root) ∧
        (d.rd CTU_FAULT_CTRL_TIMEOUT = 0 ∨ d.isLeeward = true → GivesDev (.faultTimeout id) s d) ∧
        (d.rd CTU_FAULT_CTRL_TIMEOUT ≠ 0 → d.isLeeward = false → Gives (.faultTimeout id) s fun t =>
          answered t u (f.reqs.map fun r => (r, .ended (if f.kind = 2 then .rights else .faultUnresolved))) ∧
          t.dev.rd CTU_FQ_STATUS_EXPIRED = min (2 ^ 16 - 1) (d.rd CTU_FQ_STATUS_EXPIRED + 1) ∧ t.dev.tdm.reports = d.tdm.reports ++ [⟨5, 2, 1, f.tag, f.page, 0, 0⟩]))) ∧
    (∀ tag va size count, s.ready → d.isWindward = false → tag < 2 ^ 16 → size < 4 → count < 2 ^ 16 →
      let page := if size = 0 then 2 ^ 12 else if size = 1 then 2 ^ 21 else 2 ^ 30
      let lo := va.toNat % 2 ^ 57 / page * page
      let legal := size < 3 ∧ 0 < count ∧ lo + count * page ≤ 2 ^ 57
      let starts := fun (c : Instr) (range : Option (Nat × Nat)) => Gives c s fun t => t.dev.rd CTU_INV_CMD_GO = 1 ∧ t.dev.rd CTU_INV_CMD_TAG = tag ∧
        t.dev.ctu.tlb = d.ctu.tlb.filter (fun e => !e.hit tag range) ∧ t.dev.ctu.walkCache = d.ctu.walkCache.filter (·.1 != tag) ∧
        t.dev.ctu.invals = d.ctu.invals ++ [⟨d.ctu.nextId, none, tag, range⟩] ∧ (∀ w ∈ t.dev.ctu.walks, w.tag = tag → w.noCache = true ∧ w.level = 4) ∧
        only t [CTU_INV_CMD_GO.reg, CTU_INV_VA_VA.reg]
      (d.rd CTU_INV_CMD_GO = 0 →
        (legal → d.ctu.invals.length < 16 → starts (.invRange tag va size count) (some (lo, lo + count * page))) ∧
        (d.ctu.invals.length < 16 → starts (.invTag tag) none) ∧
        (¬legal → Gives (.invRange tag va size count) s fun t => t.dev.rd CTU_INV_CMD_STATUS = 1 ∧ t.dev.rd CTU_INV_CMD_GO = 0 ∧ t.dev.ctu = d.ctu ∧
          only t [CTU_INV_CMD_GO.reg, CTU_INV_VA_VA.reg])) ∧
      (d.rd CTU_INV_CMD_GO = 1 → GivesDev (.invRange tag va size count) s (d.event 0 0 2 2 0x7F0002000100 (invWord tag 1 size count).toNat 0))) ∧
    (∀ i : Inval, d.ctu.invals.find? (·.id == i.id) = some i → i.src = none → (∀ o ∈ d.fe.objects, o.freeing = none) → (∀ c ∈ d.fe.contexts, c.dying = none) →
      Gives (.invalidationComplete i.id) s fun t => t.dev.rd CTU_INV_CMD_GO = 0 ∧ t.dev.rd CTU_INV_CMD_STATUS = 0 ∧
        t.dev.ctu = { d.ctu with invals := d.ctu.invals.filter (·.id != i.id) } ∧ only t [CTU_INV_CMD_GO.reg]) ∧
    (d.rd CTU_CNT_CTRL_PERIOD_MS = 0 → GivesDev .counterHalving s d) ∧
    (d.rd CTU_CNT_CTRL_PERIOD_MS ≠ 0 → GivesDev .counterHalving s { d with ctu := { d.ctu with counters := d.ctu.counters.map fun c => { c with count := c.count / 2 } } }) ∧
    (∀ v : Word, s.ready → d.isWindward = false → d.rd CTU_FQ_BASE_EN = 0 →
      let legal := 11 ≤ fieldOf v 8 4 ∧ fieldOf v 8 4 ≤ 16 ∧ inMemory (fieldOf v 47 12 * 4096) (64 * 2 ^ fieldOf v 8 4) = true
      (v.getLsbD 0 = true → legal → Gives (.faultRingEnable v) s fun t => t.dev.rd CTU_FQ_BASE_EN = 1 ∧ t.dev.rd CTU_FQ_BASE_ADDR = fieldOf v 47 12 ∧
        t.dev.rd CTU_FQ_BASE_LOG2 = fieldOf v 8 4 ∧ t.dev.rd CTU_FQ_PTR_HEAD = 0 ∧ t.dev.rd CTU_FQ_PTR_TAIL = 0 ∧ t.dev.ctu = d.ctu ∧ only t [CTU_FQ_BASE_EN.reg, CTU_FQ_PTR_HEAD.reg]) ∧
      (v.getLsbD 0 = true → ¬legal → GivesDev (.faultRingEnable v) s (d.event 0 0 2 2 0x7F0002000200 v.toNat 0))) ∧
    (∀ die, d.rd CTU_STATUS_ACTIVE ≠ die → GivesDev (.ctuSwitchover die) s d) ∧
    (∀ die, d.rd CTU_STATUS_ACTIVE = die → die ≤ 1 →
      (d.rd CTU_STATUS_STANDBY_OK = 1 → d.isLeeward = false → Gives (.ctuSwitchover die) s fun t => t.dev.rd CTU_STATUS_ACTIVE = 1 - die ∧ t.dev.rd CTU_STATUS_STANDBY_OK = 0 ∧
        t.dev.rd RAS_SUMMARY_CTU_STANDBY = 0 ∧ t.dev.rd RAS_SUMMARY_WARN = 1 ∧ t.dev.tdm.reports = d.tdm.reports ++ [⟨5, 1, 3, 0, 0, 0, 0⟩] ∧
        t.dev.ctu.walkCache = [] ∧ t.dev.ctu.tlb = d.ctu.tlb ∧ t.dev.ctu.faults = d.ctu.faults ∧ (∀ w ∈ t.dev.ctu.walks, w.level = 4)) ∧
      (d.rd CTU_STATUS_STANDBY_OK = 0 → Gives (.ctuSwitchover die) s fun t => t.dev.down = true ∧ t.dev.rd COH_STATUS_FATAL_AGENT = 0x50 + die ∧ t.dev.rd COH_STATUS_FATAL_CAUSE = 3)) ∧
    (d.rd CTU_STATUS_STANDBY_OK = 1 → Gives .standbyCtuFailure s fun t => t.dev.rd CTU_STATUS_STANDBY_OK = 0 ∧ t.dev.rd RAS_SUMMARY_WARN = 1 ∧
      t.dev.ctu = { d.ctu with hasStandby := false } ∧ t.dev.tdm.reports = d.tdm.reports ++ [⟨5, 1, 3, 0, 0, 0, 0⟩]) ∧
    (d.rd (NRW_DIE_STATE 5) = 2 → d.rd CTU_STATUS_STANDBY_OK = 0 → d.ctu.hasStandby = true → Gives .standbyCtuCopyComplete s fun t =>
      t.dev.rd CTU_STATUS_STANDBY_OK = 1 ∧ t.dev.rd RAS_SUMMARY_CTU_STANDBY = 1 ∧ only t [CTU_STATUS_STANDBY_OK.reg, RAS_SUMMARY_CTU_STANDBY.reg])

/-- SQ_TAIL and CQ_HEAD are taken in their ranges, else discarded with event 4. ENTRY_READ of a READY queue with HEAD behind TAIL takes the entry whose stamp is its count plus 1 and HEAD advances; another stamp leaves it to be read again, and the 64th such re-read tears the ring: the queue stops with event 1. ENTRY_DISPATCH: a well-formed NOP with nothing to wait for is in flight with the next numbers; a malformed entry completes ABORTED with cause 0x80; one whose fence lags waits. NOP, WAIT and SIGNAL complete OK. COPY within a line moves the bytes. OPERATION_COMPLETE of an ended operation posts the record (start, finish, exit value, SEQ, status, cause, QID) at the ring's next place, raises its fence to the value, or sets ERROR where it did not end OK, and the operation is gone. The model posts when told (assumption 1). -/
def Obligations.EntriesAreReadAndCompleted : Prop :=
  ∀ (s : State) (qid : Nat) (q : Queue), s.runs → s.dev.isLeeward = false → s.dev.isWindward = false → qid < 8192 → s.dev.queue? qid = some q →
    let d := s.dev
    let feOnly := fun (t : State) (l : List Nat) => RegsKept d t.dev l ∧ t = { s with dev := { d with regs := t.dev.regs, fe := t.dev.fe } }
    let becomes := fun (t : State) (q' : Queue) => t.dev.queue? qid = some q' ∧ ∀ j, j ≠ qid → t.dev.queue? j = d.queue? j
    let head := d.rd (FE_Q_COUNT_HEAD qid)
    let last := d.rd (FE_Q_COUNT_TAIL qid)
    let a := q.cqPa + q.posted.toNat % 2 ^ q.cqLog2 * 32
    let posts := fun (t : State) (start exit seq st cause : Nat) => t.dev.natAt a 8 = start ∧ t.dev.natAt (a + 8) 8 = d.tick ∧ t.dev.natAt (a + 16) 4 = exit ∧
      t.dev.natAt (a + 20) 4 = seq ∧ t.dev.natAt (a + 24) 1 = st ∧ t.dev.natAt (a + 25) 1 = cause ∧ t.dev.natAt (a + 28) 2 = qid ∧
      (∀ b, b < a ∨ a + 32 ≤ b → t.dev.byteAt b = d.byteAt b)
    let ring := q.full = false ∧ a % 64 ≤ 32 ∧ a + 32 ≤ 0x5F00000000
    (∀ v : Word, d.rd GLB_STATUS_READY = 1 →
      let n := (v.toNat % 2 ^ 32 + 2 ^ 32 - head) % 2 ^ 32
      let ok := d.rd (FE_Q_STATE_DEVICE_OWNED qid) = 0 ∧ n ≤ 2 ^ q.sqLog2 ∧ (last + 2 ^ 32 - head) % 2 ^ 32 ≤ n
      let m := (v.toNat % 2 ^ 32 + 2 ^ 32 - q.cqHead.toNat) % 2 ^ 32
      let okC := m ≤ (q.posted.toNat + 2 ^ 32 - q.cqHead.toNat) % 2 ^ 32
      (ok → Gives (.sqTail qid v) s fun t => t.dev.rd (FE_Q_COUNT_TAIL qid) = v.toNat % 2 ^ 32 ∧ t.dev.rd (FE_Q_COUNT_HEAD qid) = head ∧
        RegsKept d t.dev [(FE_Q_COUNT_TAIL qid).reg] ∧ t = { s with dev := { d with regs := t.dev.regs } }) ∧
      (¬ok → GivesDev (.sqTail qid v) s (d.event 7 0 4 qid v.toNat 0 0)) ∧
      (okC → Gives (.cqHead qid v) s fun t => becomes t { q with cqHead := v.extractLsb' 0 32 } ∧ feOnly t []) ∧
      (¬okC → GivesDev (.cqHead qid v) s (d.event 7 0 4 qid (v.toNat % 2 ^ 32) 0 0))) ∧
    (∀ ext, d.rd (FE_Q_STATE_DEVICE_OWNED qid) = 0 →
      let at_ := q.sqPa + head % 2 ^ q.sqLog2 * 128
      let e := BitVec.ofNat 1024 (d.natAt at_ 128)
      let stamped := entF e 4 4 = (head + 1) % 2 ^ 32 ∧ d.poisonIn at_ 128 = false
      inPool at_ = true →
      (d.mayRead q = true → head = last → GivesDev (.entryRead qid ext) s d) ∧
      (d.mayRead q = true → head ≠ last →
        (stamped → Gives (.entryRead qid ext) s fun t => becomes t { q with head := some ⟨e, none, 0, true, none⟩ } ∧ t.dev.rd (FE_Q_COUNT_HEAD qid) = (head + 1) % 2 ^ 32 ∧
          t.dev.rd (FE_Q_COUNT_TAIL qid) = last ∧ feOnly t [(FE_Q_COUNT_HEAD qid).reg]) ∧
        (¬stamped → Gives (.entryRead qid ext) s fun t => becomes t { q with head := some ⟨e, none, 0, false, none⟩ } ∧ feOnly t [])) ∧
      (∀ h, q.head = some h → h.arrived = false →
        (h.rereads < 64 → stamped → Gives (.entryReRead qid ext) s fun t => becomes t { q with head := some ⟨e, none, h.rereads + 1, true, none⟩ } ∧
          t.dev.rd (FE_Q_COUNT_HEAD qid) = (head + 1) % 2 ^ 32 ∧ feOnly t [(FE_Q_COUNT_HEAD qid).reg]) ∧
        (h.rereads < 63 → ¬stamped → Gives (.entryReRead qid ext) s fun t => becomes t { q with head := some ⟨e, none, h.rereads + 1, false, none⟩ } ∧ feOnly t []) ∧
        (h.rereads = 63 → ¬stamped → ring → Gives (.entryReRead qid ext) s fun t => t.dev.qState qid = 5 ∧ posts t d.tick 0 ((head + 1) % 2 ^ 32) 4 0 ∧
          t.dev.tdm.reports = d.tdm.reports ++ [⟨7, 2, 1, qid, (head + 1) % 2 ^ 32, 0, 0⟩] ∧ becomes t { q with head := none, posted := q.posted + 1 }))) ∧
    (∀ h cb, q.head = some h → h.arrived = true → h.parent = none → d.mayDispatch = true → d.twn.seedStop = false → d.qState qid = 1 → d.sec.locked = false → d.ras.lostDies = [] →
      let e := h.entry
      let tag := d.rd (FE_Q_STATE_TAG qid)
      (formOk qid e = true → entF e 0 1 = 0 → entF e 1 1 / 4 % 2 = 0 → entF e 8 4 = 0 → entF e 12 4 = 0 → q.full = false → d.fe.ops.length < 4096 →
        Gives (.entryDispatch qid cb) s fun t => becomes t { q with head := none } ∧ t.dev.fe.gdn = d.fe.gdn + 1 ∧ t.dev.fe.nextOp = d.fe.nextOp + 1 ∧
          t.dev.fe.ops = d.fe.ops ++ [⟨d.fe.nextOp, qid, e, tag, .dispatched, d.tick, none, [], none, [], 0, 0xFFFF, none, false, true, d.fe.gdn + 1, true⟩] ∧
          t.dev.qState qid = 1 ∧ feOnly t [FE_STATUS_INFLIGHT.reg, FE_STATUS_LIVE_FENCES.reg, CTU_STATUS_LIVE_CTX.reg, (FE_Q_STATE_STATE qid).reg]) ∧
      (formOk qid e = false → entF e 12 4 = 0 → d.rd (FE_Q_STATE_ERR_STOP qid) = 0 → ring → Gives (.entryDispatch qid cb) s fun t =>
        becomes t { q with head := none, posted := q.posted + 1 } ∧ posts t d.tick 0 (entF e 4 4) 1 0x80 ∧ t.dev.fe.ops = d.fe.ops ∧ t.dev.qState qid = 1) ∧
      (formOk qid e = true → entF e 1 1 / 4 % 2 = 0 → d.waitState tag e = .offDevice → h.waitAt = none → Gives (.entryDispatch qid cb) s fun t =>
        becomes t { q with head := some { h with waitAt := some d.now } } ∧ t.dev.qState qid = 2 ∧ t.dev.fe.ops = d.fe.ops)) ∧
    (∀ o : FeOp, (s.opReady o 0 → Concludes (.nopEntry o.id) s o .ok 0 0) ∧ (s.opReady o 7 → Concludes (.feWait o.id) s o .ok 0 0) ∧ (s.opReady o 8 → Concludes (.feSignal o.id) s o .ok 0 0) ∧
      (∀ bs b, s.opReady o 3 → (∀ p ∈ d.fe.ops, p.opcode = 3 → p.unit = o.unit → p.ended = false → o.id ≤ p.id) → d.inService (0x20 + o.unit) = true → d.engineAway o.unit = false →
        d.nfp.reqs = [] → entF o.entry 48 8 = bs.length → 0 < bs.length → bs.length ≤ 63 → d.vgather o.tag (entF o.entry 32 8) bs.length = .ok (d, bs) → (∀ x ∈ bs, x.2 = false) →
        d.xlate o.tag (entF o.entry 40 8) .write = .pa b → inPool b = true → b % 64 = entF o.entry 40 8 % 64 → b % 64 + bs.length ≤ 64 → entF o.entry 57 1 = 0 → d.hintFor (b / 64) 0 = 0 →
        Gives (.copy o.id) s fun t => OpBecomes s t o (o.ends d.tick .ok 0 0) ∧
          ∀ k, t.dev.byteAt k = if b ≤ k ∧ k < b + bs.length then (bs.map (·.1)).getD (k - b) 0 else d.byteAt k) ∧
      (∀ st cause exit, d.op? o.id = some o → o.phase = .done st cause exit → cause < 256 → o.qid = qid → o.graph = none → d.twState = 0 → d.twn.sendStopped = false →
        d.twn.heldTally = none → d.twn.failTally = none → d.twn.seedStop = false → d.thr.launches = [] → entF o.entry 1 1 / 8 % 2 = 0 → ring → q.head = none → q.draining = none → d.rd (FE_Q_STATE_ERR_STOP qid) = 0 →
        d.rd REEF_STATUS_OWNER_VALID = 0 → (∀ x ∈ d.fe.objects, x.freeing = none) → (∀ c ∈ d.fe.contexts, c.dying = none) → (∀ f, f < 6 → d.funcState f ≠ 1) → o.start < 2 ^ 64 →
        Gives (.operationComplete o.id) s fun t => t.dev.op? o.id = none ∧ (∀ j, j ≠ o.id → t.dev.op? j = d.op? j) ∧
          posts t o.start exit.toNat (entF o.entry 4 4) (statusCode st) cause ∧ becomes t { q with posted := q.posted + 1 } ∧
          (∀ i f, o.sigFence = some i → i < 65536 → d.fence? i = some f →
            (st = .ok → t.dev.rd (FE_FENCE_VALUE i) = max (d.rd (FE_FENCE_VALUE i)) (entF o.entry 24 8) % 2 ^ 63) ∧ (st ≠ .ok → t.dev.rd (FE_FENCE_ERROR i) = 1))))

/-- ALLOC of a T1 object whose pages and tables the allocator has: the leaves are written, the result record holds handle and base, the handle names the object, and it ends OK; an entry out of its table ends ABORTED with cause 0x82. FREE: the handle goes at once; an object that an operation uses waits, one not used has its invalidation started. INVALIDATE begins an invalidation of the context's tag, an illegal range ends ABORTED 0x82. GRAPH_CREATE of nodes and edges in HBM that make a graph gives version 1 and a handle, else ABORTED 0x87; GRAPH_PATCH a new current version with one node replaced, whose number is the exit value; GRAPH_DESTROY takes the handle and, with nothing running, the graph. GRAPH_LAUNCH of a bound run dispatches its ready node. ALLOC_PHYS takes a free run and records its address, FREE_PHYS gives it back; an address not given out ends ABORTED 0x82. The allocator's places are inputs (assumption 12). -/
def Obligations.AllocationAndGraphCommands : Prop :=
  ∀ (s : State) (o : FeOp), s.dev.isWindward = false → s.dev.isLeeward = false →
    let d := s.dev
    let e := o.entry
    let starts := fun (t : State) => OpBecomes s t o { o with phase := .running, start := d.tick }
    let oks := fun (t : State) (exit : BitVec 32) => OpBecomes s t o (o.ends d.tick .ok 0 exit)
    let at_ := fun (t : State) (a n v : Nat) => t.dev.natAt a n = v
    (s.opReady o 9 → ∀ c, d.context? o.tag = some c →
      (allocOk e = false → ∀ base fr, Concludes (.feAlloc o.id base fr) s o .aborted 0x82 0) ∧
      (∀ base data sup d' a, allocOk e = true → entF e 32 4 % 4 = 0 →
        let lvl := entF e 32 4 / 2 ^ 10 % 4
        let p := levelSpan lvl
        let n := entF e 40 8 / p
        let ob : FeObject := ⟨d.fe.nextObj, o.tag, base, entF e 40 8, BitVec.ofNat 32 (entF e 32 4), data, [], 0, [], 0, none⟩
        d.vaFree o.tag base (entF e 40 8) p = true → data.length = n → d.pagesFree p data = true → (∀ x ∈ d.fe.objects, x.id < d.fe.nextObj) →
        (data.foldl (fun d f => d.hold f p) d).mapPages c.root lvl base (fun i => leafWord (data.getD i 0) (entF e 32 4 / 4 % 8)) n sup = some d' →
        (∃ i, d'.freeIndex o.tag = some i ∧ 0 < i ∧ i < 16384) → (∀ h ∈ d'.fe.handles, h.gen < 256) → d'.xlate o.tag (entF e 72 8) .write = .pa a → inPool a = true → a % 64 = entF e 72 8 % 64 → a % 64 ≤ 48 → d'.hintFor (a / 64) 0 = 0 →
        Gives (.feAlloc o.id base (data ++ sup)) s fun t => (t.dev.op? o.id).map (·.phase) = some (.done .ok 0 0) ∧ t.dev.fe.objects = d'.fe.objects ++ [ob] ∧
          t.dev.fe.ranges = d'.fe.ranges ∧ (∀ b, b < a ∨ a + 16 ≤ b → t.dev.byteAt b = d'.byteAt b) ∧
          ∃ h, at_ t a 4 h ∧ at_ t (a + 4) 4 0 ∧ at_ t (a + 8) 8 (base % 2 ^ 64) ∧ t.dev.handleObject o.tag h = some ob)) ∧
    (s.opReady o 10 → let h := entF e 32 4
      (d.handleObject o.tag h = none → Concludes (.feFree o.id) s o .handleInvalid 0 0) ∧
      (∀ ob, d.handleObject o.tag h = some ob → ob.tag = o.tag → ob.tier = 0 → (∀ x ∈ d.fe.objects, x.id = ob.id → x = ob) → (∀ x ∈ d.fe.objects, x.freeing = none) → Gives (.feFree o.id) s fun t =>
        starts t ∧ t.dev.handleObject o.tag h = none ∧ t.dev.object? ob.id = some { ob with freeing := some o.id } ∧
        ((∃ p ∈ d.fe.ops, p.id ≠ o.id ∧ ob.id ∈ p.refs) → t.dev.ctu = d.ctu ∧ t.dev.pool = d.pool) ∧
        ((∀ p ∈ d.fe.ops, ob.id ∉ p.refs) → d.ctu.invals = [] → d.context? o.tag ≠ none →
          t.dev.ctu.invals.map (fun i => (i.src, i.tag, i.range)) = [(some o.id, o.tag, some (ob.base, ob.base + ob.size))]))) ∧
    (s.opReady o 11 → d.ctu.invals.length < 16 →
      let size := entF e 33 1
      let page := if size = 0 then 2 ^ 12 else if size = 1 then 2 ^ 21 else 2 ^ 30
      let lo := entF e 40 8 / page * page
      let hi := lo + entF e 34 2 * page
      let legal := size < 3 ∧ 0 < entF e 34 2 ∧ hi ≤ 2 ^ 57
      let begins := fun (r : Option (Nat × Nat)) => Gives (.feInvalidate o.id) s fun t => starts t ∧ t.dev.ctu.tlb = d.ctu.tlb.filter (fun x => !x.hit o.tag r) ∧
        t.dev.ctu.invals = d.ctu.invals ++ [⟨d.ctu.nextId, some o.id, o.tag, r⟩] ∧ t = { s with dev := { d with ctu := t.dev.ctu, fe := { d.fe with ops := t.dev.fe.ops } } }
      (entF e 32 1 = 1 → legal → begins (some (lo, hi))) ∧ (entF e 32 1 = 2 → begins none) ∧
      ((entF e 32 1 = 1 ∧ ¬legal) ∨ entF e 32 1 ∉ [1, 2] → Concludes (.feInvalidate o.id) s o .aborted 0x82 0)) ∧
    (s.opReady o 12 → ∀ g v x r, d.fe.runs.find? (·.op == o.id) = some r → r = ⟨o.id, g.id, v.num, [0], [], none⟩ → d.fe.graphs.find? (·.id == g.id) = some g →
      g.versions.find? (·.num == v.num) = some v → v.nodes = [x] → v.edges = [] → formOk o.qid x = true → entF x 0 1 = 0 → entF x 12 4 = 0 → d.fe.ops.length < 4096 → (∀ p ∈ d.fe.ops, p.id < d.fe.nextOp) →
      Gives (.graphLaunch o.id) s fun t => t.dev.op? o.id = some { o with phase := .running, start := d.tick } ∧ (t.dev.fe.runs.find? (·.op == o.id)).map (·.nodes) = some [1] ∧
        t.dev.op? d.fe.nextOp = some ⟨d.fe.nextOp, o.qid, x, o.tag, .dispatched, d.tick, none, [], none, [], 0, 0xFFFF, some (o.id, 0), false, true, d.fe.gdn + 1, true⟩ ∧
        t.dev.fe.gdn = d.fe.gdn + 1) ∧
    (s.opReady o 0x47 → ∀ ns es,
      let nn := entF e 34 2
      let ne := entF e 36 4
      let tag := entF e 32 2
      let bad := d.liveCtx tag = none ∨ nn = 0 ∨ 4096 < nn ∨ 16384 < ne
      let nodes := (List.range nn).map fun i => BitVec.ofNat 1024 (d.natAt (entF e 40 8 + 128 * i) 128)
      let edges := (List.range ne).map fun i => (d.natAt (entF e 48 8 + 4 * i) 4 / 2 ^ 16, d.natAt (entF e 48 8 + 4 * i) 4 % 2 ^ 16)
      (bad → Concludes (.graphCreate o.id ns es) s o .aborted 0x82 0) ∧
      (¬bad → inAlloc (entF e 40 8) (128 * nn) = true → inAlloc (entF e 48 8) (4 * ne) = true → 0 < ne → d.poisonIn (entF e 40 8) (128 * nn) = false → d.poisonIn (entF e 48 8) (4 * ne) = false →
        (graphOk nodes edges = false → Concludes (.graphCreate o.id ns es) s o .aborted 0x87 0) ∧
        (graphOk nodes edges = true → 262144 < d.storeUsed + nn → Concludes (.graphCreate o.id ns es) s o .busy 0 0) ∧
        (∀ i, graphOk nodes edges = true → d.storeUsed + nn ≤ 262144 → d.freeIndex tag = some i → i < 2 ^ 14 → (∀ x ∈ d.fe.handles, x.gen < 256) → Gives (.graphCreate o.id ns es) s fun t =>
          t.dev.fe.graphs = d.fe.graphs ++ [⟨d.fe.nextGraph, tag, 1, false, [⟨1, nodes, edges⟩]⟩] ∧ t.dev.fe.nextGraph = d.fe.nextGraph + 1 ∧
          ∃ h, oks t (BitVec.ofNat 32 h) ∧ t.dev.reloc tag 3 h 0 = some d.fe.nextGraph))) ∧
    (s.opReady o 0x48 → ∀ ext,
      let tag := entF e 32 2
      let h := d.reloc tag 3 (entF e 36 4) 0
      let x := BitVec.ofNat 1024 (d.natAt (entF e 40 8) 128)
      (h = none → Concludes (.graphPatch o.id ext) s o .handleInvalid 0 0) ∧
      (∀ g v, h = some g.id → d.fe.graphs = [g] → g.versions = [v] → v.num = g.current → g.dead = false → inAlloc (entF e 40 8) 128 = true → d.poisonIn (entF e 40 8) 128 = false →
        (v.nodes.length ≤ entF e 34 2 → Concludes (.graphPatch o.id ext) s o .aborted 0x82 0) ∧
        (entF e 34 2 < v.nodes.length → nodeOk x = false → Concludes (.graphPatch o.id ext) s o .aborted 0x87 0) ∧
        (entF e 34 2 < v.nodes.length → nodeOk x = true → d.storeUsed < 262144 → Gives (.graphPatch o.id ext) s fun t => oks t (BitVec.ofNat 32 (g.current + 1)) ∧
          (∃ g', t.dev.fe.graphs = [g'] ∧ g'.current = g.current + 1 ∧ (⟨g.current + 1, v.nodes.set (entF e 34 2) x, v.edges⟩ : GraphVersion) ∈ g'.versions ∧
            (v ∈ g'.versions ↔ ∃ r ∈ d.fe.runs, r.graph = g.id ∧ r.version = v.num))))) ∧
    (s.opReady o 0x49 →
      let tag := entF e 32 2
      let h := d.reloc tag 3 (entF e 36 4) 0
      (h = none → Concludes (.graphDestroy o.id) s o .handleInvalid 0 0) ∧
      (∀ id, h = some id → d.fe.runs = [] → (d.fe.handles.filter fun x => x.tag == tag && x.index == entF e 36 4 % 2 ^ 14).length ≤ 1 → Gives (.graphDestroy o.id) s fun t => oks t 0 ∧ t.dev.reloc tag 3 (entF e 36 4) 0 = none ∧ (∀ g ∈ t.dev.fe.graphs, g.id ≠ id))) ∧
    (s.opReady o 0x4A → ∀ frame,
      let n := entF e 40 8
      let res := entF e 56 8
      (n = 0 ∨ n % 2 ^ 21 ≠ 0 ∨ inMemory res 16 = false → Concludes (.allocPhys o.id frame) s o .aborted 0x82 0) ∧
      (0 < n → n % 2 ^ 21 = 0 → inAlloc res 16 = true → res % 64 ≤ 48 → frame % 2 ^ 21 = 0 → d.rangeFree frame n = true → frame < 2 ^ 64 → Gives (.allocPhys o.id frame) s fun t => oks t 0 ∧
        t.dev.fe.phys = d.fe.phys ++ [(frame, n)] ∧ at_ t res 8 frame ∧ at_ t (res + 8) 8 0 ∧ ∀ b, b < res ∨ res + 16 ≤ b → t.dev.byteAt b = d.byteAt b) ∧
      (0 < n → n % 2 ^ 21 = 0 → inMemory res 16 = true → d.rangeFree frame n = false → d.hasRoom n = false → Concludes (.allocPhys o.id frame) s o .busy 0 0)) ∧
    (s.opReady o 0x4B →
      ((∃ r ∈ d.fe.phys, r.1 = entF e 40 8) → Gives (.freePhys o.id) s fun t => oks t 0 ∧ t.dev.fe.phys = d.fe.phys.filter (·.1 != entF e 40 8) ∧
        t = { s with dev := { d with fe := { d.fe with ops := t.dev.fe.ops, phys := t.dev.fe.phys } } }) ∧
      ((∀ r ∈ d.fe.phys, r.1 ≠ entF e 40 8) → Concludes (.freePhys o.id) s o .aborted 0x82 0))

/-- An admin command in flight. CREATE_CONTEXT with a free page for its table and room in the slots gives the next tag, its slot and root, and ends OK with the tag; values out of the table end ABORTED 0x82. DESTROY_CONTEXT marks the context and begins the invalidation of its tag once nothing of it is in flight. CREATE_QUEUE makes a free QID READY with its rings and a handle; one in use ends BUSY. RESET_QUEUE of a queue with nothing in flight zeroes its completion ring and counts and makes it READY; RESUME makes a HALTED queue READY; DESTROY_QUEUE frees the QID, orphans its fences and sets their ERROR. CREATE_FENCE gives the lowest index with its value and a handle; DESTROY_FENCE frees it. -/
def Obligations.ContextsQueuesAndFences : Prop :=
  ∀ (s : State) (o : FeOp), s.dev.isWindward = false →
    let d := s.dev
    let e := o.entry
    let starts := fun (t : State) => OpBecomes s t o { o with phase := .running, start := d.tick }
    let oks := fun (t : State) (exit : BitVec 32) => OpBecomes s t o (o.ends d.tick .ok 0 exit)
    let tag := entF e 32 2
    let qid := entF e 32 2
    let calm := (∀ p ∈ d.fe.ops, p.qid ≠ qid) ∧ qid < 8192
    (s.opReady o 0x40 → ∀ root,
      let len := entF e 48 8
      let res := entF e 56 8
      let ok := entF e 32 1 ≤ 2 ∧ (len = 0 ∨ (1385496576 ≤ len ∧ entF e 40 8 + len ≤ 0x5F00000000)) ∧ inMemory res 16 = true
      (¬ok → Concludes (.createContext o.id root) s o .aborted 0x82 0) ∧ (ok → 1024 ≤ d.fe.contexts.length → Concludes (.createContext o.id root) s o .busy 0 0) ∧
      (∀ k, ok → inAlloc res 16 = true → res % 64 ≤ 48 → d.fe.contexts.length < 1024 → root % 4096 = 0 → d.rangeFree root 4096 = true → (res + 16 ≤ root ∨ root + 4096 ≤ res) → d.freeSlot = k →
        Gives (.createContext o.id root) s fun t => ∃ u, t.dev.fe.lastTag = u ∧ oks t (BitVec.ofNat 32 u) ∧
          t.dev.fe.contexts = d.fe.contexts ++ [⟨u, k, root, entF e 40 8, len, none⟩] ∧ t.dev.rd (CTU_CTX_VALID k) = 1 ∧ t.dev.rd (CTU_CTX_TAG k) = u % 2 ^ 16 ∧
          t.dev.rd (CTU_CTX_ROOT k) = root / 4096 % 2 ^ 36 ∧ t.dev.rd (CTU_CTX_MODE k) = entF e 32 1 ∧ t.dev.natAt res 8 = root ∧
          (d.fe.lastTag + 1 < 65536 → d.context? (d.fe.lastTag + 1) = none → d.ctu.invals = [] → u = d.fe.lastTag + 1))) ∧
    (s.opReady o 0x41 →
      (d.liveCtx tag = none → Concludes (.destroyContext o.id) s o .aborted 0x82 0) ∧
      (∀ c, d.liveCtx tag = some c → (d.fe.contexts.filter (·.tag == tag)) = [c] → (∀ p ∈ d.fe.ops, p.tag ≠ tag) → d.ctu.invals = [] → d.fe.queues = [] → d.fe.objects = [] → d.tier.bindings = [] →
        s.tierCalm → Gives (.destroyContext o.id) s fun t => starts t ∧ t.dev.context? tag = some { c with dying := some o.id } ∧
          t.dev.ctu.invals.map (fun i => (i.src, i.tag, i.range)) = [(some o.id, tag, none)] ∧ (∀ x ∈ t.dev.ctu.tlb, x.tag ≠ tag) ∧ (∀ f ∈ t.dev.ctu.faults, f.tag ≠ tag) ∧
          (∀ h ∈ t.dev.fe.handles, h.tag ≠ tag))) ∧
    (s.opReady o 0x42 → ∀ fcore, fcore ≤ 4 ∨ (8 ≤ fcore ∧ fcore ≤ 12) →
      let tag := entF e 34 2
      let sq := entF e 37 1
      let cq := entF e 38 1
      let vec := entF e 60 2
      let ok := 0 < qid ∧ qid ≤ 8191 ∧ d.liveCtx tag ≠ none ∧ 4 ≤ sq ∧ sq ≤ 16 ∧ 4 ≤ cq ∧ cq ≤ 16 ∧ 3 ≤ vec ∧ vec ≤ 2047 ∧ ringOk (entF e 48 8) (32 * 2 ^ cq) = true ∧
        (entF e 36 1 % 2 = 1 ∨ ringOk (entF e 40 8) (128 * 2 ^ sq) = true)
      (¬ok → Concludes (.createQueue o.id fcore) s o .aborted 0x82 0) ∧ (ok → d.queue? qid ≠ none → Concludes (.createQueue o.id fcore) s o .busy 0 0) ∧
      (∀ i, ok → d.queue? qid = none → d.freeIndex tag = some i → (∀ x ∈ d.fe.handles, x.gen < 256) → Gives (.createQueue o.id fcore) s fun t =>
        t.dev.queue? qid = some ⟨qid, entF e 40 8, entF e 48 8, sq, cq, entF e 56 4, vec, 0, 0, none, [], none, false⟩ ∧ (∀ j, j ≠ qid → t.dev.queue? j = d.queue? j) ∧
        t.dev.qState qid = 1 ∧ t.dev.rd (FE_Q_STATE_TAG qid) = tag ∧ t.dev.rd (FE_Q_STATE_FCORE qid) = fcore ∧ t.dev.rd (FE_Q_STATE_DEVICE_OWNED qid) = entF e 36 1 % 2 ∧
        t.dev.rd (FE_Q_COUNT_HEAD qid) = 0 ∧ t.dev.rd (FE_Q_COUNT_TAIL qid) = 0 ∧ ∃ h, oks t (BitVec.ofNat 32 h) ∧ t.dev.reloc tag 2 h 0 = some qid)) ∧
    (s.opReady o 0x43 →
      (2 ≤ entF e 34 1 ∨ qid = 0 ∨ d.queue? qid = none → entF e 34 1 ≠ 1 → Concludes (.resetQueue o.id) s o .aborted 0x82 0) ∧
      (qid = 0 ∨ d.queue? qid = none → entF e 34 1 = 1 → Concludes (.resumeQueue o.id) s o .aborted 0x82 0) ∧
      (∀ q, d.queue? qid = some q → 0 < qid → calm →
        (entF e 34 1 = 1 → Gives (.resumeQueue o.id) s fun t => oks t 0 ∧ t.dev.qState qid = (if d.qState qid = 4 then 1 else d.qState qid) ∧
          RegsKept d t.dev [(FE_Q_STATE_STATE qid).reg] ∧ t = { s with dev := { d with regs := t.dev.regs, fe := { d.fe with ops := t.dev.fe.ops } } }) ∧
        (entF e 34 1 = 0 → q.draining = none → inPool q.cqPa = true → (d.fe.queues.filter (·.qid == qid)) = [q] → Gives (.resetQueue o.id) s fun t => oks t 0 ∧ t.dev.qState qid = 1 ∧
          t.dev.queue? qid = some { q with head := none, devRing := [], draining := none, destroy := false, posted := 0, cqHead := 0 } ∧
          t.dev.rd (FE_Q_COUNT_HEAD qid) = 0 ∧ t.dev.rd (FE_Q_COUNT_TAIL qid) = 0 ∧
          (∀ b, t.dev.byteAt b = if q.cqPa ≤ b ∧ b < q.cqPa + 2 ^ q.cqLog2 * 32 then 0 else d.byteAt b)))) ∧
    (s.opReady o 0x44 →
      (qid = 0 ∨ d.queue? qid = none → Concludes (.destroyQueue o.id) s o .aborted 0x82 0) ∧
      (∀ q, d.queue? qid = some q → 0 < qid → calm → q.draining = none → Gives (.destroyQueue o.id) s fun t => oks t 0 ∧ t.dev.queue? qid = none ∧
        (∀ j, j ≠ qid → t.dev.queue? j = d.queue? j) ∧ t.dev.qState qid = 0 ∧ (∀ h ∈ t.dev.fe.handles, h.kind = 2 → h.target = qid → h.live = false) ∧
        (∀ f ∈ d.fe.fences, f.index < 65536 → f.signaller = some qid → t.dev.rd (FE_FENCE_ERROR f.index) = 1 ∧ { f with signaller := none, orphan := true } ∈ t.dev.fe.fences) ∧
        (∀ f ∈ d.fe.fences, f.signaller ≠ some qid → f ∈ t.dev.fe.fences))) ∧
    (s.opReady o 0x45 →
      let sig := entF e 34 2
      let res := entF e 48 8
      let own := d.queue? sig ≠ none ∧ d.rd (FE_Q_STATE_TAG sig) = tag
      let ok := d.liveCtx tag ≠ none ∧ (sig = 0xFFFF ∨ own) ∧ entF e 40 8 < 2 ^ 63 ∧ inMemory res 16 = true
      (¬ok → Concludes (.createFence o.id) s o .aborted 0x82 0) ∧
      (∀ i k, ok → inAlloc res 16 = true → res % 64 ≤ 48 → d.fe.fences.length < 65536 → i < 65536 → d.fence? i = none → (∀ j, j < i → d.fence? j ≠ none) → d.freeIndex tag = some k → (∀ x ∈ d.fe.handles, x.gen < 256) →
        Gives (.createFence o.id) s fun t => t.dev.fe.fences = d.fe.fences ++ [⟨i, tag, if sig = 0xFFFF then none else some sig, false⟩] ∧ t.dev.rd (FE_FENCE_VALUE i) = entF e 40 8 ∧
          t.dev.rd (FE_FENCE_ERROR i) = 0 ∧ t.dev.natAt res 8 = i ∧ ∃ h, oks t (BitVec.ofNat 32 h) ∧ t.dev.reloc tag 1 h 0 = some i)) ∧
    (s.opReady o 0x46 →
      let h := d.reloc tag 1 (entF e 36 4) 0
      (h = none → Concludes (.destroyFence o.id) s o .handleInvalid 0 0) ∧
      (∀ i, h = some i → i < 65536 → (d.fe.handles.filter fun x => x.tag == tag && x.index == entF e 36 4 % 2 ^ 14).length ≤ 1 → Gives (.destroyFence o.id) s fun t => oks t 0 ∧ t.dev.fence? i = none ∧
        (∀ j, j ≠ i → t.dev.fence? j = d.fence? j) ∧ t.dev.reloc tag 1 (entF e 36 4) 0 = none ∧ t.dev.rd (FE_FENCE_VALUE i) = 0))

/-- FENCE_TIMEOUT refuses a head that waits off-device with FENCE_TIMEOUT, unless the queue has no time. CORE_TASK_TIMEOUT ends the core's task ABORTED and frees the core, unless the task has no time. FUNCTION_DISABLE clears the function's bit: it drains while operations of it are left, else it is DISABLED; FUNCTION_ENABLE enables a DISABLED one; outside SERVICE the write is discarded. FUNCTION_DRAIN_TIMEOUT ends what is left of a draining function ABORTED with cause 0x85 and event 3. GO raises a live EXTERNAL fence to FE_FENCE_SIGVAL, CLR_ERROR clears ERROR; any other fence is a discarded write. A legal ring enables a register of QID 0, and with both in use QID 0 is READY with counts 0. INTERRUPT_HOLDOFF_EXPIRY sends the interrupt that is owed and holds it off again, else ends the holdoff. -/
def Obligations.FrontEndTimersAndRegisters : Prop :=
  ∀ (s : State), s.runs →
    let d := s.dev
    (∀ qid q h, d.queue? qid = some q → q.head = some h → h.parent = none → qid < 8192 →
      (q.timeoutMs = 0 ∨ d.waitsOn qid ≠ some .offDevice ∨ d.qState qid ≠ 2 → GivesDev (.fenceTimeout qid) s d) ∧
      (q.timeoutMs ≠ 0 → d.waitsOn qid = some .offDevice → d.qState qid = 2 → q.full = false → d.isLeeward = false → d.isWindward = false → entF h.entry 12 4 = 0 → d.rd (FE_Q_STATE_ERR_STOP qid) = 0 →
        let a := q.cqPa + q.posted.toNat % 2 ^ q.cqLog2 * 32
        a + 32 ≤ 0x5F00000000 → a % 64 ≤ 32 → Gives (.fenceTimeout qid) s fun t => (t.dev.queue? qid) = some { q with head := none, posted := q.posted + 1 } ∧
          t.dev.natAt (a + 24) 1 = statusCode .fenceTimeout ∧ t.dev.natAt (a + 20) 4 = entF h.entry 4 4 ∧ t.dev.natAt (a + 28) 2 = qid ∧ t.dev.qState qid = 1 ∧ t.dev.fe.ops = d.fe.ops)) ∧
    (∀ core k x o, d.cores.cores.find? (·.id == core) = some k → k.task = some x → d.op? x.op = some o → o.phase = .running → d.isWindward = false →
      (entF o.entry 60 4 = 0 → GivesDev (.coreTaskTimeout core) s d) ∧
      (entF o.entry 60 4 ≠ 0 → Gives (.coreTaskTimeout core) s fun t => OpBecomes s t o (o.ends o.start .aborted 0 0) ∧
        t.dev.cores.cores = d.cores.cores.map (fun c => if c.id = core then { c with task := none, held := none, resv := none } else c) ∧
        t = { s with dev := { d with fe := { d.fe with ops := t.dev.fe.ops }, cores := { d.cores with cores := t.dev.cores.cores } } })) ∧
    (∀ f, s.ready → d.isWindward = false → f ≤ 5 →
      let en := d.rd FE_FUNC_CTRL_EN
      let only := fun (t : State) => RegsKept d t.dev [FE_FUNC_CTRL_EN.reg, FE_FUNC_STATUS_STATE.reg] ∧ (∀ g, g < 6 → g ≠ f → t.dev.funcState g = d.funcState g) ∧ t = { s with dev := { d with regs := t.dev.regs } }
      (d.svcState = 0 → en / 2 ^ f % 2 = 1 → d.funcState f = 0 → Gives (.functionDisable f) s fun t =>
        t.dev.rd FE_FUNC_CTRL_EN = en - 2 ^ f ∧ t.dev.funcState f = (if d.fe.ops.any (fun o => functionOf o.opcode == some f) then 1 else 2) ∧ only t) ∧
      (d.svcState = 0 → en / 2 ^ f % 2 = 0 → d.funcState f = 2 → Gives (.functionEnable f) s fun t => t.dev.rd FE_FUNC_CTRL_EN = en + 2 ^ f ∧ t.dev.funcState f = 0 ∧ only t) ∧
      (d.svcState = 0 → en / 2 ^ f % 2 = 0 → d.funcState f = 1 → GivesDev (.functionEnable f) s (d.event 0 0 2 1 (0x7F0000000000 + FE_FUNC_CTRL_EN.reg) (Nat.lor en (2 ^ f)) 0)) ∧
      (d.svcState ≠ 0 → GivesDev (.functionDisable f) s (d.event 0 0 2 1 (0x7F0000000000 + FE_FUNC_CTRL_EN.reg) (en - en / 2 ^ f % 2 * 2 ^ f) 0))) ∧
    (∀ f o, f ≤ 5 → (d.funcState f ≠ 1 → GivesDev (.functionDrainTimeout f) s d) ∧
      (d.funcState f = 1 → f = 2 → d.fe.ops = [o] → o.opcode = 3 → o.phase = .running → d.isWindward = false → d.nfp.colls = [] → d.tiles.splitNext = none → d.tiles.handover = .idle →
        Gives (.functionDrainTimeout f) s fun t => t.dev.op? o.id = some (o.ends o.start .aborted 0x85 0) ∧ t.dev.tdm.reports = d.tdm.reports ++ [⟨7, 2, 3, 0, 0, f, 1⟩])) ∧
    (∀ i, s.ready → d.isWindward = false → i < 65536 →
      (∀ f, d.fence? i = some f →
        (f.signaller = none → f.orphan = false → Gives (.feFenceSignal i) s fun t => t.dev.rd (FE_FENCE_VALUE i) = max (d.rd (FE_FENCE_VALUE i)) (d.rd FE_FENCE_SIGVAL_VALUE) % 2 ^ 63 ∧
          t.dev.rd (FE_FENCE_ERROR i) = d.rd (FE_FENCE_ERROR i) ∧ RegsKept d t.dev [(FE_FENCE_VALUE i).reg] ∧ t = { s with dev := { d with regs := t.dev.regs } }) ∧
        (f.signaller ≠ none ∨ f.orphan = true → GivesDev (.feFenceSignal i) s (d.event 0 0 2 1 (0x7F0000000000 + FE_FENCE_SIGNAL_GO.reg) (i * 2 ^ 16 + 1) 0)) ∧
        Gives (.clrError i) s fun t => t.dev.rd (FE_FENCE_ERROR i) = 0 ∧ t.dev.rd (FE_FENCE_VALUE i) = d.rd (FE_FENCE_VALUE i) ∧ RegsKept d t.dev [(FE_FENCE_VALUE i).reg] ∧ t = { s with dev := { d with regs := t.dev.regs } }) ∧
      (d.fence? i = none → GivesDev (.feFenceSignal i) s (d.event 0 0 2 1 (0x7F0000000000 + FE_FENCE_SIGNAL_GO.reg) (i * 2 ^ 16 + 1) 0) ∧
        GivesDev (.clrError i) s (d.event 0 0 2 1 (0x7F0000000000 + FE_FENCE_SIGNAL_GO.reg) (i * 2 ^ 16 + 2) 0))) ∧
    (∀ isCq v, d.lcState ≠ 5 → d.discStopped = false → d.isWindward = false →
      let en := if isCq then FE_ADMIN_CQ_EN else FE_ADMIN_SQ_EN
      let oth := if isCq then FE_ADMIN_SQ_EN else FE_ADMIN_CQ_EN
      let legal := 4 ≤ fieldOf v 8 4 ∧ fieldOf v 8 4 ≤ 16 ∧ inMemory (fieldOf v 47 12 * 4096) ((if isCq then 32 else 128) * 2 ^ fieldOf v 8 4) = true
      d.rd en = 0 → v.getLsbD 0 = true →
        (¬legal → GivesDev (.adminRingEnable isCq v) s (d.event 0 0 2 1 (0x7F0000000000 + en.reg) v.toNat 0)) ∧
        (legal → Gives (.adminRingEnable isCq v) s fun t => t.dev.rd en = 1 ∧ t.dev.rd (FE_Q_COUNT_HEAD 0) = 0 ∧ t.dev.rd (FE_Q_COUNT_TAIL 0) = 0 ∧
          (d.rd oth = 0 → t.dev.fe = d.fe ∧ RegsKept d t.dev [en.reg, (FE_Q_COUNT_HEAD 0).reg]) ∧
          (d.rd oth = 1 → t.dev.qState 0 = 1 ∧ (t.dev.queue? 0).any (fun q => q.posted == 0 && q.cqHead == 0 && q.head.isNone &&
            (if isCq then q.cqPa else q.sqPa) == fieldOf v 47 12 * 4096 && (if isCq then q.cqLog2 else q.sqLog2) == fieldOf v 8 4) = true))) ∧
    (∀ vec, (getKey d.str.holdoff vec = none → GivesDev (.interruptHoldoffExpiry vec) s d) ∧
      (getKey d.str.holdoff vec = some true → d.straitUp = true → Gives (.interruptHoldoffExpiry vec) s fun t => t.dev.out = d.out ++ [.int vec] ∧ getKey t.dev.str.holdoff vec = some false ∧
        t = { s with dev := { d with out := t.dev.out, str := { d.str with holdoff := t.dev.str.holdoff } } }) ∧
      (getKey d.str.holdoff vec = some false → GivesDev (.interruptHoldoffExpiry vec) s { d with str := { d.str with holdoff := d.str.holdoff.filter (·.1 != vec) } }))

/-- k is a port (0-7), Strait (8) or the twin link (9). A step that overruns or fails starts the bring-up again, or leaves the link FAILED at the third attempt; a retrain that fails leaves it DOWN: no lanes, no spare, nothing of its retry buffer, one event. A DOWN link that is on starts again. A good step leads to the next, after the last to UP with all lanes and 512 credits a VC (an NFP port then waits for its partner's identity), a retrain's last back to UP or DEGRADED with a replay. A lost lane is asked onto a trained free spare, else dropped: DEGRADED, then DOWN. A flit with a bad CRC counts; it and one after a gap is answered with one NAK; a good one applies its ACK and credits, one in sequence is taken. A NAK is answered with a replay, the eighth in a row with RETRAIN. EN of a port starts it, but for an Ethernet port without a MAC address. -/
def Obligations.LinksTrainRepairAndReplay : Prop :=
  ∀ (s : State) (k : Nat), s.runs → k ≤ 9 →
    let d := s.dev
    let l := d.link k
    let st := d.rd (lnState k)
    let same := fun (t : State) => RegsKept d t.dev [(lnState k).reg, RAS_SUMMARY_NFP_SPARE.reg] ∧ (∀ j, j ≠ k → t.dev.link j = d.link j) ∧
      t = { s with dev := { d with regs := t.dev.regs, out := t.dev.out, nfp := { d.nfp with links := t.dev.nfp.links }, tdm := { d.tdm with reports := t.dev.tdm.reports } } }
    let silent := fun (t : State) => t.dev.out = d.out ∧ t.dev.tdm.reports = d.tdm.reports
    let tells := fun (t : State) (ev sev lane : Nat) => t.dev.out = d.out ∧ t.dev.tdm.reports = d.tdm.reports ++
      [if k < 8 then ⟨8, sev, ev, k, lane, 0, 0⟩ else if k = 8 then ⟨9, sev, 1, 0, 0, t.dev.rd (lnState k), 0⟩ else ⟨11, sev, 1, 0, d.twn.tseq, t.dev.rd (lnState k), 0⟩]
    let alone := (k = 8 → d.str.reqs = []) ∧ (k = 9 → d.twState = 0)
    let bare := fun (t : State) (n : Nat) => t.dev.rd (lnState k) = n ∧ t.dev.rd (lnLanes k) = 0 ∧ t.dev.rd (lnSpare k) = 0 ∧ same t
    let downs := fun (c : Instr) (n : Nat) => alone → Gives c s fun t => bare t n ∧ t.dev.link k = { ethLatch := l.ethLatch, downAt := d.now } ∧ tells t 3 2 0 ∧ (k < 8 → t.dev.rd (NFP_PORT_STATUS_PARTNER k) = 0)
    let agains := fun (c : Instr) => GivesDev c s (d.setLink k { l with step := 1, attempt := l.attempt + 1 })
    let quiet := d.nfp.sqs = [] ∧ d.nfp.answers = []
    (st = 1 → l.attempt < 2 → agains (.linkStepTimeout k) ∧ agains (.trainingStepComplete k false)) ∧
    (st = 1 → 2 ≤ l.attempt → downs (.linkStepTimeout k) 6 ∧ downs (.trainingStepComplete k false) 6) ∧
    (st = 4 → downs (.linkStepTimeout k) 5 ∧ downs (.trainingStepComplete k false) 5) ∧
    (st ≠ 1 → st ≠ 4 → GivesDev (.linkStepTimeout k) s d ∧ ∀ ok, GivesDev (.trainingStepComplete k ok) s d) ∧
    (st = 5 → d.lnOn k = true → Gives (.linkRestart k) s fun t => bare t 1 ∧ t.dev.link k = { ethLatch := l.ethLatch, step := 1 } ∧ silent t) ∧
    (st ≠ 5 ∨ d.lnOn k = false → GivesDev (.linkRestart k) s d) ∧
    (st = 1 → l.step < d.lnSteps k → GivesDev (.trainingStepComplete k true) s (d.setLink k { l with step := l.step + 1 })) ∧
    (st = 1 → d.lnSteps k ≤ l.step → k < 8 → d.portEth k = false → GivesDev (.trainingStepComplete k true) s d) ∧
    (st = 1 → d.lnSteps k ≤ l.step → 8 ≤ k ∨ d.portEth k = true → quiet → Gives (.trainingStepComplete k true) s fun t =>
      t.dev.rd (lnState k) = 2 ∧ t.dev.rd (lnLanes k) = lnWidth k ∧ (t.dev.link k).credits = [512, 512, 512, 512] ∧ (t.dev.link k).step = 0 ∧ (t.dev.link k).retry = [] ∧
      (t.dev.link k).ethLatch = l.ethLatch ∧ (t.dev.link k).spareTrained = (decide (8 ≤ k) || d.rd (NFP_PORT_CTRL_SPARE_EN k) == 1) ∧ (k < 8 → t.dev.rd (NFP_PORT_STATUS_PARTNER k) = 2 ∧ same t ∧ silent t) ∧
      (k = 8 → t.dev.boot.straitUp = true ∧ (d.mute = false → d.rd STR_CTRL_HOLDOFF = 0 → t.dev.out = d.out ++ [.int 0])) ∧ (k = 9 → d.twState ≠ 1 → t.dev.twn.partnerId ≠ none ∧ t.dev.twState = d.twState)) ∧
    (st = 4 → l.step < 4 → GivesDev (.trainingStepComplete k true) s (d.setLink k { l with step := l.step + 1 })) ∧
    (st = 4 → 4 ≤ l.step → quiet → Gives (.trainingStepComplete k true) s fun t => t.dev.rd (lnState k) = (if d.rd (lnLanes k) = lnWidth k then 2 else 3) ∧ t.dev.link k = { l with step := 0, nakRun := 0 } ∧
      t.dev.tdm.reports = d.tdm.reports ∧ t.dev.out = d.out ++ (l.retry.take 1).map (.replay k) ∧ t.dev.rd (lnReplays k) = min 65535 (d.rd (lnReplays k) + (l.retry.take 1).length) ∧ same t) ∧
    (d.lnUp k = true → ∀ lane, lane ≤ lnWidth k →
      let spare := l.spareTrained = true ∧ d.spareFree k = true ∧ l.repair = none ∧ (8 ≤ k ∨ d.rd (NFP_PORT_CTRL_SPARE_EN k) = 1)
      let idle := lane = lnWidth k ∧ d.rd (lnSpare k) = 0
      let drops := fun (c : Instr) (l' : Link) => (d.rd (lnLanes k) < lnWidth k → downs c 5) ∧
        (lnWidth k ≤ d.rd (lnLanes k) → Gives c s fun t => t.dev.rd (lnLanes k) = lnWidth k - 1 ∧ t.dev.rd (lnState k) = 3 ∧ t.dev.link k = l' ∧ (k ≠ 8 → tells t 2 2 lane ∧ same t) ∧
          (k = 8 → d.mute = false → d.rd STR_CTRL_HOLDOFF = 0 → same t ∧ t.dev.out = d.out ++ [.int 0] ∧ t.dev.tdm.reports = d.tdm.reports ++ [⟨9, 2, 1, 0, 0, 3, 0⟩]))
      (k < 8 ∧ d.portEth k = true → downs (.laneFailure k lane) 5) ∧
      (8 ≤ k ∨ d.portEth k = false → (idle → GivesDev (.laneFailure k lane) s (d.setLink k { l with spareTrained := false })) ∧
        (¬idle → spare → GivesDev (.laneFailure k lane) s (d.setLink k { l with repair := some lane })) ∧ (¬idle → ¬spare → drops (.laneFailure k lane) l)) ∧
      (l.repair = none → GivesDev (.laneRepair k) s d) ∧
      (l.repair = some lane → d.spareFree k = true → Gives (.laneRepair k) s fun t => t.dev.rd (lnSpare k) = 1 ∧ t.dev.rd (lnLanes k) = d.rd (lnLanes k) ∧ t.dev.rd (lnState k) = st ∧
        t.dev.link k = { l with repair := none } ∧ tells t 1 1 lane ∧ same t) ∧
      (l.repair = some lane → d.spareFree k = false → drops (.laneRepair k) { l with repair := none })) ∧
    (d.lnUp k = true → 8 ≤ k ∨ d.portEth k = false → ∀ hdr : Word,
      let ty := fieldOf hdr 63 60
      let refuses := fun (c : Instr) (n : Nat) => Gives c s fun t => t.dev.rd (lnCrc k) = min 65535 (d.rd (lnCrc k) + n) ∧ t.dev.link k = { l with discarding := true } ∧
        t.dev.out = d.out ++ (if l.discarding then [] else [.nak k l.rxSeq]) ∧ t.dev.tdm.reports = d.tdm.reports ∧ same t
      let takes := fun (t : State) (l' : Link) => same t ∧ silent t ∧ t.dev.regs = d.regs ∧ (∀ x, x ∈ (t.dev.link k).retry ↔ x ∈ l.retry ∧ 2048 ≤ (fieldOf hdr 43 32 + 4096 - x) % 4096) ∧
        (∀ v, v < 4 → l.credits.length = 4 → (t.dev.link k).credits.getD v 0 = l.credits.getD v 0 + (if v = fieldOf hdr 31 30 then fieldOf hdr 29 16 else 0)) ∧
        t.dev.link k = { l' with retry := (t.dev.link k).retry, credits := (t.dev.link k).credits }
      refuses (.dataFlit k hdr false) 1 ∧ (ty = 1 ∨ ty = 2 → fieldOf hdr 55 44 ≠ l.rxSeq → refuses (.dataFlit k hdr true) 0) ∧
      ((k < 8 → quiet) → (ty = 0 → Gives (.dataFlit k hdr true) s fun t => takes t l) ∧ (3 ≤ ty → GivesDev (.dataFlit k hdr true) s d) ∧
      (ty = 1 ∨ ty = 2 → fieldOf hdr 55 44 = l.rxSeq → Gives (.dataFlit k hdr true) s fun t => takes t { l with
        rxSeq := (l.rxSeq + 1) % 4096, discarding := false,
        rx := if ty = 2 then l.rx else if fieldOf hdr 56 56 = 1 then l.rx.filter (· != fieldOf hdr 59 58) else l.rx ++ [fieldOf hdr 59 58] }))) ∧
    (d.lnUp k = true → 8 ≤ k ∨ d.portEth k = false → ∀ q, q < 4096 →
      let n := if l.nakSeq = q ∧ l.nakRun ≠ 0 then l.nakRun + 1 else 1
      (n < 8 → Gives (.linkNak k q) s fun t => t.dev.link k = { l with nakSeq := q, nakRun := n } ∧ t.dev.out = d.out ++ [.replay k q] ∧ t.dev.rd (lnReplays k) = min 65535 (d.rd (lnReplays k) + 1) ∧
        t.dev.tdm.reports = d.tdm.reports ∧ same t) ∧
      (8 ≤ n → Gives (.linkNak k q) s fun t => t.dev.rd (lnState k) = 4 ∧ t.dev.link k = { l with nakSeq := q, nakRun := 0, step := 3 } ∧ silent t ∧ same t)) ∧
    (k < 8 → s.ready → d.isWindward = false →
      (d.rd (NFP_PORT_CTRL_EN k) = 1 ∨ d.portServed k = false → GivesDev (.portEnable k) s d) ∧
      (d.rd (NFP_PORT_CTRL_EN k) = 0 → d.portServed k = true → Gives (.portEnable k) s fun t =>
        let eth := d.rd (NFP_PORT_CTRL_MODE k) == 1
        t.dev.rd (NFP_PORT_CTRL_EN k) = 1 ∧ t.dev.rd (NFP_PORT_CTRL_MODE k) = d.rd (NFP_PORT_CTRL_MODE k) ∧ t.dev.out = d.out ∧
        RegsKept d t.dev [(NFP_PORT_CTRL_EN k).reg, (lnState k).reg, RAS_SUMMARY_NFP_SPARE.reg] ∧ (∀ j, j ≠ k → t.dev.link j = d.link j) ∧
        (eth = true ∧ d.rd (NFP_ETH_MAC_ADDR k) = 0 → t.dev.rd (lnState k) = st ∧ t.dev.link k = { ethLatch := true } ∧ t.dev.tdm.reports = d.tdm.reports ++ [⟨8, 0, 4, k, 0, 0, 0⟩]) ∧
        (eth = false ∨ d.rd (NFP_ETH_MAC_ADDR k) ≠ 0 → t.dev.rd (lnState k) = 1 ∧ t.dev.rd (lnLanes k) = 0 ∧ t.dev.link k = { ethLatch := eth, step := 1 } ∧ t.dev.tdm.reports = d.tdm.reports)))

/-- A request is checked in order: valid EPOCH, its RANK, an open window with the bytes, its TOKEN, its right. The first check that fails drops it: its counter, NFP_DROP_LOG, a NACK with the status. A FETCH fails one of them; this module's windows give none (R397). A WR writes the bytes through its export window, and is acknowledged; an RD is answered with the bytes and marks; an ATOM is performed once and answered with the old value, which is held and given again to a resend, until it expires. An answer of no valid job is dropped and counted, one that matches no request discarded; else the request leaves the table, and a COPY that waited for it alone ends OK; a NACK ends the operation with its status. An unanswered request is sent again with RETX, or ends RESOURCE_LOST after RETRIES. A frame that Table 13.6 does not accept counts in ETH. -/
def Obligations.FabricRequestsAndAnswers : Prop :=
  ∀ (s : State), s.runs → s.dev.twState = 0 →
    let d := s.dev
    let sends := fun (t : State) => t = { s with dev := { d with regs := t.dev.regs, out := t.dev.out, fresh := t.dev.fresh, nfp := { d.nfp with links := t.dev.nfp.links, answers := t.dev.nfp.answers, sqs := t.dev.nfp.sqs, lastPort := t.dev.nfp.lastPort } } }
    (∀ (port : Nat) (p : Packet), let cs := [(1, Instr.nfpWr port p), (2, .nfpRd port p), (3, .nfpAtom port p), (4, .fetch port p)]
      (d.receives port = false → ∀ c ∈ cs, GivesDev c.2 s d) ∧
      (d.receives port = true → ∀ c ∈ cs,
        let back := fun (addr len : Nat) (token : Word) (pmask : BitVec 64) (bs : List Byte) => (⟨false, false, p.src, p.dst, p.win, p.epoch, p.tag, len, addr, token, pmask, bs⟩ : Packet)
        let drops := fun (cnt : Fld) (check : Nat) (st : Status) => Gives c.2 s fun t => Answers d t.dev 11 (back 0 0 (BitVec.ofNat 64 (statusCode st)) 0 []) ∧ sends t ∧
          t.dev.rd cnt = min 255 (d.rd cnt + 1) ∧ t.dev.rd NFP_DROP_LOG_VALID = 1 ∧ t.dev.rd NFP_DROP_LOG_CHECK = check ∧ t.dev.rd NFP_DROP_LOG_WIN = p.win % 2 ^ 13 ∧
          t.dev.rd NFP_DROP_LOG_SRC_RANK = p.src % 2 ^ 15 ∧ t.dev.rd NFP_DROP_LOG_EPOCH = p.epoch.toNat ∧ RegsKept d t.dev [cnt.reg, NFP_DROP_LOG_VALID.reg]
        let ws := d.winsFor p
        (d.jobOf p.epoch.toNat = none → drops NFP_DROP_CNT_STALE 1 .epochStale) ∧
        (∀ j, d.jobOf p.epoch.toNat = some j →
          (d.rd (NFP_JOB_W0_RANK j) ≠ p.dst → drops NFP_DROP_CNT_MISROUTED 2 .resourceLost) ∧
          (d.rd (NFP_JOB_W0_RANK j) = p.dst →
            (ws = [] → drops NFP_DROP_CNT_CLOSED 3 .rights) ∧
            (ws ≠ [] → (∀ n ∈ ws, d.rd (NFP_WIN_W1_TOKEN n) ≠ p.token.toNat) → drops NFP_DROP_CNT_TOKEN 4 .rights) ∧
            (∀ n, ws = [n] → d.rd (NFP_WIN_W1_TOKEN n) = p.token.toNat →
              (c.1 = 4 ∨ (256 ≤ n ∧ c.1 ≠ 1) ∨ (n < 256 ∧ d.rd ([NFP_WIN_W0_W n, NFP_WIN_W0_R n, NFP_WIN_W0_A n].getD (c.1 - 1) (NFP_WIN_W0_W n)) = 0) → drops NFP_DROP_CNT_RIGHTS 5 .rights) ∧
              (n < 256 → d.rd (NFP_WIN_W0_W n) = 1 → Gives (.nfpWr port p) s fun t => Answers d t.dev 8 (back 0 0 0 0 []) ∧
                (∀ b, t.dev.byteAt b = if p.addr ≤ b ∧ b < p.addr + min p.len p.payload.length then p.payload.getD (b - p.addr) 0 else d.byteAt b) ∧
                (∀ b, b < p.addr / 64 * 64 ∨ p.addr + p.payload.length + 63 ≤ b → t.dev.poisonAt b = d.poisonAt b) ∧
                (p.addr % 64 = 0 → p.len % 64 = 0 → p.payload.length = p.len → ∀ i, i < p.len / 64 → i < 64 → t.dev.poisonAt (p.addr + 64 * i) = p.pmask.getLsbD i) ∧
                RegsKept d t.dev [COH_HINT_STATUS_INSTALLED.reg, COH_HINT_STATUS_DROPPED.reg] ∧
                t.dev.fe = d.fe ∧ t.dev.tdm = d.tdm ∧ t.dev.nfp.reqs = d.nfp.reqs ∧ t.dev.nfp.held = d.nfp.held ∧ t.otp = s.otp ∧ t.meter = s.meter) ∧
              (n < 256 → d.rd (NFP_WIN_W0_R n) = 1 → Gives (.nfpRd port p) s fun t => t.dev.regs = d.regs ∧ sends t ∧ ∃ m : BitVec 64, Answers d t.dev 9 (back p.addr p.len 0 m (d.bytesAt p.addr p.len)) ∧
                ∀ i, i < 64 → i < (p.addr % 64 + p.len + 63) / 64 → m.getLsbD i = d.poisonAt (p.addr / 64 * 64 + 64 * i)) ∧
              (n < 256 → d.rd (NFP_WIN_W0_A n) = 1 →
                let op := (p.payload.headD 0).toNat
                let k := if 128 ≤ op then 8 else 4
                let old := d.natAt p.addr k
                let held := d.nfp.held.find? fun h => h.1 == p.src && h.2.1 == p.tag && h.2.2.1 == p.epoch
                let keeps := fun (t : State) (v : Nat) => ∃ m : BitVec 64, Answers d t.dev 10 (back p.addr k 0 m (leBytes k v))
                (∀ h, p.retx = true → held = some h → Gives (.nfpAtom port p) s fun t => keeps t h.2.2.2.1.toNat ∧ t.dev.regs = d.regs ∧ sends t) ∧
                (p.retx = false ∨ held = none → Gives (.nfpAtom port p) s fun t => keeps t old ∧ t.dev.regs = d.regs ∧ t.dev.nfp.reqs = d.nfp.reqs ∧ t.dev.fe = d.fe ∧
                  (p.src, p.tag, p.epoch, BitVec.ofNat 64 old, d.now) ∈ t.dev.nfp.held ∧ t.dev.nfp.held.length ≤ 4096 ∧
                  (∀ v b, atomResult (op % 128) (decide (128 ≤ op)) old (leNat ((p.payload.drop 8).take k)) (leNat ((p.payload.drop (8 + k)).take k)) = some v →
                    t.dev.byteAt b = if p.addr ≤ b ∧ b < p.addr + k then (leBytes k v).getD (b - p.addr) 0 else d.byteAt b) ∧
                  (atomResult (op % 128) (decide (128 ≤ op)) old (leNat ((p.payload.drop 8).take k)) (leNat ((p.payload.drop (8 + k)).take k)) = none → MemKept d t.dev)))))))) ∧
    (∀ src tag epoch, GivesDev (.atomrHoldExpiry src tag epoch) s { d with nfp := { d.nfp with held := d.nfp.held.filter fun h => !(h.1 == src && h.2.1 == tag && h.2.2.1 == epoch) } }) ∧
    (∀ (p : Packet), ∀ c ∈ [(([1, 4, 5] : List Nat), Instr.nfpAck p), ([2], .rdata p), ([3], .atomr p), ([1, 2, 3, 4, 5], .nack p)],
      (d.jobOf p.epoch.toNat = none → Gives c.2 s fun t => t.dev.rd NFP_DROP_CNT_STALE = min 255 (d.rd NFP_DROP_CNT_STALE + 1) ∧ t.dev.rd NFP_DROP_LOG_CHECK = 1 ∧ t.dev.rd NFP_DROP_LOG_VALID = 1 ∧
        RegsKept d t.dev [NFP_DROP_CNT_STALE.reg, NFP_DROP_LOG_VALID.reg] ∧ t = { s with dev := { d with regs := t.dev.regs } }) ∧
      (d.jobOf p.epoch.toNat ≠ none → (∀ r ∈ d.nfp.reqs, r.tag = p.tag → r.pkt.epoch = p.epoch → r.kind % 256 ∉ c.1) → GivesDev c.2 s d) ∧
      (∀ r, d.jobOf p.epoch.toNat ≠ none → (d.nfp.reqs.filter (·.tag == p.tag)) = [r] → r.pkt.epoch = p.epoch → r.kind % 256 ∈ c.1 →
        let left := d.nfp.reqs.filter (·.tag != p.tag)
        (r.op = none → r.kind ≠ 4 → GivesDev c.2 s { d with nfp := { d.nfp with reqs := left } }) ∧
        (∀ op o, r.op = some op → d.op? op = some o → o.opcode = 3 → o.phase = .running → d.coll? op = none → r.kind < 4 →
          (c.2 ≠ .nack p → Gives c.2 s fun t => t.dev.nfp.reqs = left ∧ (∀ j, j ≠ op → t.dev.op? j = d.op? j) ∧ t.dev.regs = d.regs ∧
            t.dev.op? op = some (if left.any (·.op == some op) then o else o.ends o.start .ok 0 0)) ∧
          (∀ st, c.2 = .nack p → statusOf (p.token.toNat % 256) = st → st ≠ .ok → Gives c.2 s fun t => t.dev.nfp.reqs = left ∧ OpBecomes s t o (o.ends o.start st 0 0) ∧ t.dev.regs = d.regs)))) ∧
    (∀ r, (d.nfp.reqs.filter (·.tag == r.tag)) = [r] →
      let resent := { r with resends := r.resends + 1, sentAt := d.now }
      (d.rd NFP_CTRL_RETRIES ≤ r.resends → r.op = none → GivesDev (.requestTimeout r.tag) s { d with nfp := { d.nfp with reqs := d.nfp.reqs.filter (·.tag != r.tag) } }) ∧
      (∀ op o, d.rd NFP_CTRL_RETRIES ≤ r.resends → r.op = some op → d.op? op = some o → o.phase = .running → d.coll? op = none → Gives (.requestTimeout r.tag) s fun t =>
        t.dev.nfp.reqs = d.nfp.reqs.filter (·.tag != r.tag) ∧ OpBecomes s t o (o.ends o.start .resourceLost 0 0) ∧ t.dev.regs = d.regs) ∧
      (r.resends < d.rd NFP_CTRL_RETRIES → r.kind < 4 → Gives (.requestTimeout r.tag) s fun t => sends { t with dev := { t.dev with nfp := { t.dev.nfp with reqs := d.nfp.reqs } } } ∧ t.dev.regs = d.regs ∧
        (∀ x, x ∈ t.dev.nfp.reqs ↔ x = resent ∨ (x ∈ d.nfp.reqs ∧ x.tag ≠ r.tag)) ∧
        (d.domRunning = true → t.dev.nfp.sqs = d.nfp.sqs ++ [(d.jobSq r.job, r.kind, { r.pkt with retx := true })] ∧ t.dev.out = d.out) ∧
        (d.domRunning = false → d.mute = false → d.nfp.sqs = [] → d.nfp.answers = [] →
          ∀ q, d.turn (d.jobSq r.job) ((d.portsFor r.kind r.pkt.dst).filter fun q => d.portTakes q r.kind { r.pkt with retx := true }) = some q →
            t.dev.out = d.out ++ [.nfp q r.kind { r.pkt with retx := true }] ∧ t.dev.nfp.sqs = []))) ∧
    (∀ tag, (∀ r ∈ d.nfp.reqs, r.tag ≠ tag) → GivesDev (.requestTimeout tag) s d) ∧
    (∀ port dst etype vlans (p : Packet), port ≤ 7 → d.portUp port = true → d.portEth port = true →
      let ok := vlans ≤ 1 ∧ ((dst = d.rd (NFP_ETH_MAC_ADDR port) ∧ etype = d.rd NFP_CTRL_ETYPE ∧ p.payload.length ≤ 9216) ∨ (dst = 0x011B19000000 ∧ etype = 0x88F7))
      (ok → GivesDev (.ethernetFrame port dst etype vlans p) s d) ∧
      (¬ok → Gives (.ethernetFrame port dst etype vlans p) s fun t => t.dev.rd NFP_DROP_CNT_ETH = min 255 (d.rd NFP_DROP_CNT_ETH + 1) ∧ RegsKept d t.dev [NFP_DROP_CNT_ETH.reg] ∧
        t = { s with dev := { d with regs := t.dev.regs } }))

/-- JOB_END clears VALID, ends the entry's requests EPOCH_STALE and closes every window of its EPOCH. A write that opens an export window takes its fields, and OPEN if its EPOCH is that of a valid job and its range may open; one to an open window is discarded; a close clears OPEN only. COLLECTIVE with a bad descriptor (the model's choice of checks: assumption 21) ends ABORTED 0x82; a good one is in flight, one request to every other rank; duplicates in the list, or a list without this rank, end it. COLL passes checks 1 and 2, is counted in COLL when no collective fits, else is acknowledged; its descriptor, node value (the shard tree once all have come) or results are kept; the packet's layout is assumption 21. COLLECTIVE_TIMEOUT ends the collective RESOURCE_LOST and counts it as done and failed. Reading NFP_DROP_CNT clears it; a drop in that cycle counts after (R15). -/
def Obligations.JobsWindowsAndCollectives : Prop :=
  ∀ (s : State), s.runs → s.dev.twState = 0 →
    let d := s.dev
    let regsOnly := fun (t : State) => t = { s with dev := { d with regs := t.dev.regs } }
    (s.ready → ∀ j, j ≤ 15 →
      let e := d.rd (NFP_JOB_W0_EPOCH j)
      (d.rd (NFP_JOB_W0_VALID j) = 0 → GivesDev (.jobEnd j) s d) ∧
      (d.rd (NFP_JOB_W0_VALID j) = 1 → (∀ r ∈ d.nfp.reqs, r.job = j → r.op = none) → (d.nfp.reqs.map (·.tag)).Nodup → d.tier.bindings = [] → Gives (.jobEnd j) s fun t =>
        t.dev.rd (NFP_JOB_W0_VALID j) = 0 ∧ t.dev.rd (NFP_JOB_W0_EPOCH j) = e ∧ t.dev.nfp.reqs = d.nfp.reqs.filter (·.job != j) ∧
        (∀ n, n < 4096 → d.rd (NFP_WIN_W0_OPEN n) = 1 → d.rd (NFP_WIN_W0_EPOCH n) = e → t.dev.rd (NFP_WIN_W0_OPEN n) = 0 ∧ t.dev.rd (NFP_WIN_W0_BOUND n) = 0 ∧ t.dev.rd (NFP_WIN_W0_EPOCH n) = e) ∧
        (∀ n, n < 4096 → d.rd (NFP_WIN_W0_EPOCH n) ≠ e → t.dev.word (NFP_WIN_W0_OPEN n).reg = d.word (NFP_WIN_W0_OPEN n).reg) ∧
        (∀ off, off ≠ (NFP_JOB_W0_VALID j).reg → (off < 0x7010000 ∨ 0x7020000 ≤ off ∨ off % 16 ≠ 0) → t.dev.word off = d.word off) ∧
        t = { s with dev := { d with regs := t.dev.regs, nfp := { d.nfp with reqs := t.dev.nfp.reqs } } }) ∧
      (∀ r op o, d.rd (NFP_JOB_W0_VALID j) = 1 → d.nfp.reqs = [r] → r.job = j → r.op = some op → d.op? op = some o → o.phase = .running → d.coll? op = none → d.tier.bindings = [] → Gives (.jobEnd j) s fun t =>
        t.dev.nfp.reqs = [] ∧ OpBecomes s t o (o.ends o.start .epochStale 0 0) ∧ t.dev.rd (NFP_JOB_W0_VALID j) = 0)) ∧
    (s.ready → ∀ n, n ≤ 255 →
      let w0 := NFP_WIN_W0_OPEN n
      let kept := fun (t : State) => RegsKept d t.dev [w0.reg] ∧ regsOnly t ∧ t.dev.rd (NFP_WIN_W0_BOUND n) = d.rd (NFP_WIN_W0_BOUND n)
      let fields := fun (t : State) (v : Word) => t.dev.rd (NFP_WIN_W0_EPOCH n) = fieldOf v 63 32 ∧ t.dev.rd (NFP_WIN_W0_HINT n) = fieldOf v 15 8 ∧ t.dev.rd (NFP_WIN_W0_A n) = fieldOf v 4 4 ∧
        t.dev.rd (NFP_WIN_W0_W n) = fieldOf v 3 3 ∧ t.dev.rd (NFP_WIN_W0_R n) = fieldOf v 2 2
      (∀ v : Word, (d.rd w0 = 1 → GivesDev (.exportWindowOpen n v) s (d.event 0 0 2 7 (0x7F0000000000 + w0.reg) (v ||| 1).toNat 0)) ∧
        (d.rd w0 = 0 → Gives (.exportWindowOpen n v) s fun t => fields t v ∧ kept t ∧
          (t.dev.rd w0 = 1 ↔ d.jobOf (fieldOf v 63 32) ≠ none ∧ d.rd (NFP_WIN_RANGE_FIRST n) ≤ d.rd (NFP_WIN_RANGE_LAST n) ∧
            inAlloc (d.rd (NFP_WIN_RANGE_FIRST n) * 2 ^ 21) ((d.rd (NFP_WIN_RANGE_LAST n) + 1 - d.rd (NFP_WIN_RANGE_FIRST n)) * 2 ^ 21) = true))) ∧
      Gives (.exportWindowClose n) s fun t => t.dev.rd w0 = 0 ∧ fields t (d.word w0.reg) ∧ kept t) ∧
    (∀ (o : FeOp), s.opReady o 5 →
      let c : BitVec 512 := BitVec.ofNat 512 (leNat o.cb)
      let job := collF c 5 1
      (collOk c = false → Concludes (.collective o.id) s o .aborted 0x82 0) ∧
      (∀ st, collOk c = true → d.vnums o.tag (collF c 48 8) 2 (collF c 6 2) = .error (.ended st) → Concludes (.collective o.id) s o st 0 0) ∧
      (∀ d1 ranks o1, collOk c = true → d.vnums o.tag (collF c 48 8) 2 (collF c 6 2) = .ok (d1, ranks) → d1.op? o.id = some o1 → o1.phase = .dispatched → d1.coll? o.id = none →
        let me := d1.rd (NFP_JOB_W0_RANK job)
        (ranks.Nodup → me ∈ ranks → 2 ≤ ranks.length → Gives (.collective o.id) s fun t => t.dev.op? o.id = some { o1 with phase := .running, start := d1.tick } ∧
          t.dev.coll? o.id = some ⟨o.id, o.tag, job, c, ranks, false, [], [(me, c, digest256 (ranks.flatMap (leBytes 2)))], []⟩ ∧ t.dev.rd NFP_COLL_STATUS_INFLIGHT = (d1.nfp.colls.length + 1) % 128 ∧
          (t.dev.nfp.reqs.drop d1.nfp.reqs.length).map (fun r => (r.pkt.dst, r.op, r.job)) = (ranks.filter (· != me)).map (fun r => (r, some o.id, job)) ∧ t.dev.nfp.reqs.take d1.nfp.reqs.length = d1.nfp.reqs) ∧
        (¬(ranks.Nodup ∧ me ∈ ranks) → Gives (.collective o.id) s fun t => t.dev.op? o.id = some (o1.ends d1.tick .aborted 0 0) ∧ t.dev.coll? o.id = none))) ∧
    (∀ op, d.ready? op 5 = none → d.coll? op = none → GivesDev (.collective op) s d) ∧
    (∀ (port : Nat) (p : Packet),
      let f := fun (off n : Nat) => leNat ((p.payload.drop off).take n)
      let back := fun (st : Nat) => (⟨false, false, p.src, p.dst, p.win, p.epoch, p.tag, 0, 0, BitVec.ofNat 64 st, 0, []⟩ : Packet)
      let up := port < 8 ∧ d.portUp port = true ∧ d.portServed port = true
      let drops := fun (cnt : Fld) (check : Nat) (st : Status) => Gives (.coll port p) s fun t => Answers d t.dev 11 (back (statusCode st)) ∧ t.dev.rd cnt = min 255 (d.rd cnt + 1) ∧
        t.dev.rd NFP_DROP_LOG_CHECK = check ∧ t.dev.rd NFP_DROP_LOG_VALID = 1 ∧ RegsKept d t.dev [cnt.reg, NFP_DROP_LOG_VALID.reg]
      (¬up → GivesDev (.coll port p) s d) ∧ (up → d.jobOf p.epoch.toNat = none → drops NFP_DROP_CNT_STALE 1 .epochStale) ∧
      (∀ j, up → d.jobOf p.epoch.toNat = some j →
        (d.rd (NFP_JOB_W0_RANK j) ≠ p.dst → drops NFP_DROP_CNT_MISROUTED 2 .resourceLost) ∧
        (d.rd (NFP_JOB_W0_RANK j) = p.dst →
          ((∀ k ∈ d.nfp.colls, k.job = j → collF k.desc 20 4 ≠ f 4 4) → Gives (.coll port p) s fun t => t.dev.rd NFP_DROP_CNT_COLL = min 255 (d.rd NFP_DROP_CNT_COLL + 1) ∧
            RegsKept d t.dev [NFP_DROP_CNT_COLL.reg] ∧ regsOnly t) ∧
          (∀ k, d.nfp.colls = [k] → k.job = j → collF k.desc 20 4 = f 4 4 → k.moved = false → k.nodes = [] → k.descs.length + 1 < k.ranks.length →
            let n := collBytes k.desc
            let becomes := fun (k' : Collective) => Gives (.coll port p) s fun t => t.dev.nfp.colls = [k'] ∧ Answers d t.dev 8 (back 0) ∧ t.dev.regs = d.regs ∧ t.dev.fe = d.fe ∧ t.dev.nfp.reqs = d.nfp.reqs
            (f 0 4 = 0 → becomes { k with descs := if k.descs.any (·.1 == p.src) then k.descs else k.descs ++ [(p.src, BitVec.ofNat 512 (f 24 64), BitVec.ofNat 256 (f 88 32))] }) ∧
            (2 ≤ f 0 4 → p.payload.length = 24 + n → becomes { k with finals := putKey k.finals (f 8 8) (BitVec.ofNat 64 (f 24 n)) }) ∧
            (f 0 4 = 1 → p.payload.length = 24 + n → collF k.desc 0 1 = 1 → collF k.desc 1 1 = 0 → k.ranks.getD (chunkOf k.desc (f 8 8)) 0 = d.collSelf k → getKey k.finals (f 8 8) = none →
              let all := treeFrom (collF k.desc 2 1) (collF k.desc 3 1) (collF k.desc 8 4) (fun l i => if l = f 16 4 ∧ i = f 20 4 then some (f 24 n) else none) (treeLevels (collF k.desc 8 4)) 0
              (all = none → becomes { k with nodes := [(f 8 8, f 16 4, f 20 4, p.src, BitVec.ofNat 64 (f 24 n))] }) ∧
              (∀ v, all = some v → becomes { k with finals := putKey k.finals (f 8 8) (BitVec.ofNat 64 v) })))))) ∧
    (∀ op, (d.coll? op = none → GivesDev (.collectiveTimeout op) s d) ∧
      (∀ k o, d.coll? op = some k → d.op? op = some o → o.phase = .running → Gives (.collectiveTimeout op) s fun t => OpBecomes s t o (o.ends o.start .resourceLost 0 0) ∧
        t.dev.nfp.colls = d.nfp.colls.filter (·.op != op) ∧ t.dev.nfp.reqs = d.nfp.reqs.filter (·.op != some op) ∧ t.dev.rd NFP_COLL_STATUS_INFLIGHT = t.dev.nfp.colls.length % 128 ∧
        t.dev.rd NFP_COLL_STATUS_DONE = min (2 ^ 32 - 1) (d.rd NFP_COLL_STATUS_DONE + 1) ∧ t.dev.rd NFP_COLL_STATUS_FAILED = min 65535 (d.rd NFP_COLL_STATUS_FAILED + 1) ∧
        RegsKept d t.dev [NFP_COLL_STATUS_DONE.reg])) ∧
    (d.lcState ≠ 5 → d.discStopped = false → ∀ (same : Option Nat), Gives (.dropCountRead same) s fun t => RegsKept d t.dev [NFP_DROP_CNT_STALE.reg] ∧ regsOnly t ∧ ((∀ i, same = some i → 7 ≤ i) → t.dev.word NFP_DROP_CNT_STALE.reg = 0) ∧
      ∀ i f, [NFP_DROP_CNT_STALE, NFP_DROP_CNT_MISROUTED, NFP_DROP_CNT_CLOSED, NFP_DROP_CNT_TOKEN, NFP_DROP_CNT_RIGHTS, NFP_DROP_CNT_COLL, NFP_DROP_CNT_ETH][i]? = some f → same = some i → t.dev.rd f = 1)

/-- A host write at the aperture writes its bytes at home, a read answers them with poison marks, an atomic answers the old value and performs a listed, aligned operation, else REFUSED; 384 GiB and above, reserve frames and everything before READY are refused with an event, reads with all ones. An aligned write of a register or doorbell is that register's or doorbell's command; a misaligned one is discarded with an event, its read all ones; from 240 MiB up BAR0 reads 0 and ignores writes. A CPL ends the request: RIGHTS for a bad status or short data, POISON_CONSUMED for a core's poisoned load; a timeout ends it RESOURCE_LOST with event 3; link loss ends all. TAIL and EN of a DMA channel are set; a channel performs its next descriptor: the copy, STATUS, HEAD, the INT; any other status HALTs it. -/
def Obligations.StraitServesTheHost : Prop :=
  ∀ (s : State), s.runs → s.dev.twState = 0 → s.dev.mute = false →
    let d := s.dev
    let regsOnly := fun (t : State) => t = { s with dev := { d with regs := t.dev.regs } }
    let up := d.straitUp = true
    let shut := fun (a : Nat) => 0x5F00000000 ≤ a ∨ reserveFrame (a / 2 ^ 21) = true ∨ d.rd GLB_STATUS_READY = 0
    let open_ := fun (a : Nat) => 0x5FBC000000 ≤ a ∧ a < 0x6000000000 ∧ (d.rd TDM_OPEN_DUMP = 1 ∨ d.rd TDM_OPEN_SPILL = 1)
    let told := d.event 9 0 2 0
    (∀ a (data : List Byte) (pm : BitVec 64), let v : Word := BitVec.ofNat 64 (leNat data)
      (d.straitUp = false → GivesDev (.straitWr a data pm) s d) ∧
      (up → a < 2 ^ 39 → shut a → GivesDev (.straitWr a data pm) s (told a 0 0)) ∧
      (up → a < 2 ^ 39 → ¬shut a → Gives (.straitWr a data pm) s fun t => (∀ b, t.dev.byteAt b = if a ≤ b ∧ b < a + data.length then data.getD (b - a) 0 else d.byteAt b) ∧
        (∀ b, b < a / 64 * 64 ∨ a + data.length + 63 ≤ b → t.dev.poisonAt b = d.poisonAt b) ∧
        (a % 64 = 0 → ∀ i, 64 * i + 64 ≤ data.length → i < 64 → t.dev.poisonAt (a + 64 * i) = pm.getLsbD i) ∧
        RegsKept d t.dev [COH_HINT_STATUS_INSTALLED.reg, COH_HINT_STATUS_DROPPED.reg] ∧ t.dev.fe = d.fe ∧ t.dev.out = d.out ∧ t.dev.tdm = d.tdm) ∧
      (up → inBar0 a = true ∨ inDoorbells a = true → a % 8 ≠ 0 ∨ data.length ≠ 8 →
        GivesDev (.straitWr a data pm) s (if inDoorbells a then d.event 0 0 1 15 a 0 0 else if a < 0x7F0000000000 + 15 * 2 ^ 24 then d.event 0 0 1 ((a - 0x7F0000000000) / 2 ^ 24) a 0 0 else d)) ∧
      (up → a % 8 = 0 → data.length = 8 → 0x7F0000000000 ≤ a → a < 0x7F0000000000 + 15 * 2 ^ 24 → exec (.straitWr a data pm) s = exec (.registerWrite a v) s) ∧
      (up → a % 8 = 0 → data.length = 8 → 0x7F0000000000 + 15 * 2 ^ 24 ≤ a → a < 0x7F0000000000 + 2 ^ 28 → GivesDev (.straitWr a data pm) s d) ∧
      (∀ q, up → data.length = 8 → q < 8192 → (a = 0x7F1000000000 + 4096 * q → exec (.straitWr a data pm) s = exec (.sqTail q v) s) ∧
        (a = 0x7F1000000008 + 4096 * q → exec (.straitWr a data pm) s = exec (.cqHead q v) s))) ∧
    (∀ tag a len, let answers := fun (bs : List Byte) (m : BitVec 64) (t : State) => t.dev.out = d.out ++ [.straitCpl tag 0 bs m]
      (up → a < 2 ^ 39 → shut a → ¬open_ a → Gives (.straitRd tag a len) s fun t => answers (List.replicate len 0xFF) 0 t ∧ t = { s with dev := { told a 0 0 with out := t.dev.out } }) ∧
      (up → a < 2 ^ 39 → ¬shut a → ∃ m : BitVec 64, GivesDev (.straitRd tag a len) s { d with out := d.out ++ [.straitCpl tag 0 (d.bytesAt a len) m] } ∧
        ∀ i, i < 64 → i < (a % 64 + len + 63) / 64 → m.getLsbD i = d.poisonAt (a / 64 * 64 + 64 * i)) ∧
      (up → inBar0 a = true ∨ inDoorbells a = true → a % 8 ≠ 0 ∨ len ≠ 8 → Gives (.straitRd tag a len) s fun t => answers (List.replicate len 0xFF) 0 t) ∧
      (up → a % 8 = 0 → len = 8 → 0x7F0000000000 ≤ a → a < 0x7F0000000000 + 15 * 2 ^ 24 → d.lcState ≠ 5 → d.discStopped = false → d.portEth ((a - 0x7F0000000000 - (NFP_PORT_CTRL_EN 0).reg) / 8) = false →
        Gives (.straitRd tag a len) s fun t => answers (leBytes 8 (d.readReg (a - 0x7F0000000000)).toNat) 0 t ∧ RegsKept d t.dev [NFP_DROP_CNT_STALE.reg] ∧ (a - 0x7F0000000000 = NFP_DROP_CNT_STALE.reg → t.dev.word NFP_DROP_CNT_STALE.reg = 0)) ∧
      (up → a % 8 = 0 → len = 8 → (0x7F0000000000 + 15 * 2 ^ 24 ≤ a ∧ a < 0x7F0000000000 + 2 ^ 28) ∨ inDoorbells a = true → Gives (.straitRd tag a len) s fun t => answers (List.replicate 8 0) 0 t)) ∧
    (∀ tag a (aop : BitVec 8) (x y : Word), up → a < 2 ^ 39 →
      let k := if aop.getLsbD 7 then 8 else 4
      let answer := fun (st : Nat) (bs : List Byte) (t : State) => ∃ m : BitVec 64, t.dev.out = d.out ++ [.straitCpl tag st bs m]
      let old := d.natAt a k
      (shut a → Gives (.straitAtom tag a aop x y) s fun t => answer 0 (List.replicate k 0xFF) t ∧ t = { s with dev := { told a 0 0 with out := t.dev.out } }) ∧
      (¬shut a → 3 ≤ aop.toNat % 128 ∨ a % k ≠ 0 → GivesDev (.straitAtom tag a aop x y) s { d with out := d.out ++ [.straitCpl tag 1 [] 0] }) ∧
      (¬shut a → aop.toNat % 128 < 3 → a % k = 0 →
        let new := if aop.toNat % 128 = 0 then (old + x.toNat) % 2 ^ (8 * k) else if aop.toNat % 128 = 1 then x.toNat % 2 ^ (8 * k) else if old = x.toNat % 2 ^ (8 * k) then y.toNat % 2 ^ (8 * k) else old
        Gives (.straitAtom tag a aop x y) s fun t => answer 0 (leBytes k old) t ∧ (∀ b, t.dev.byteAt b = if a ≤ b ∧ b < a + k then (leBytes k new).getD (b - a) 0 else d.byteAt b) ∧ t.dev.regs = d.regs ∧ t.dev.fe = d.fe)) ∧
    (∀ tag, (∀ r ∈ d.str.reqs, r.tag ≠ tag) → GivesDev (.straitRequestTimeout tag) s d ∧ ∀ st bs m, GivesDev (.cpl tag st bs m) s d) ∧
    (∀ r, (d.str.reqs.filter (·.tag == r.tag)) = [r] →
      let left := d.str.reqs.filter (·.tag != r.tag)
      let ends := fun (t : State) (st : Status) => t.dev.str.reqs = left ∧ t.dev.regs = d.regs ∧
        (∀ op o, r.op = some op → r.core = none → d.op? op = some o → o.phase = .running → OpBecomes s t o (o.ends o.start st 0 0) ∧ t.dev.cores = d.cores) ∧
        (∀ c x k o, r.op = none → r.core = some c → d.cores.cores.find? (·.id == c) = some k → k.task = some x → d.op? x.op = some o → o.phase = .running → OpBecomes s t o (o.ends o.start st 0 0) ∧
          t.dev.cores.cores = d.cores.cores.map (fun k => if k.id = c then { k with task := none, held := none, resv := none } else k))
      Gives (.straitRequestTimeout r.tag) s (fun t => ends t .resourceLost ∧ t.dev.tdm.reports = d.tdm.reports ++ [⟨9, 0, 3, 0, r.addr, 0, 0⟩]) ∧
      ∀ st (bs : List Byte) (m : BitVec 64), (st ≠ 0 ∨ bs.length < r.len → Gives (.cpl r.tag st bs m) s fun t => ends t .rights ∧ t.dev.tdm = d.tdm) ∧
        (st = 0 → r.len ≤ bs.length → m ≠ 0 → r.core ≠ none → Gives (.cpl r.tag st bs m) s fun t => ends t .poisonConsumed ∧ t.dev.tdm = d.tdm) ∧
        (st = 0 → r.len ≤ bs.length → m = 0 ∨ r.core = none → GivesDev (.cpl r.tag st bs m) s { d with str := { d.str with reqs := left } })) ∧
    (∀ st, st = d.rd STR_LINK_STATUS_STATE →
      (st = 0 ∨ 5 ≤ st → GivesDev .straitLinkDown s d) ∧
      (1 ≤ st ∧ st ≤ 4 → Gives .straitLinkDown s fun t => t.dev.rd STR_LINK_STATUS_STATE = 5 ∧ t.dev.rd STR_LINK_STATUS_LANES = 0 ∧ t.dev.str.reqs = [] ∧ (t.dev.link 8).retry = [] ∧ (t.dev.link 8).downAt = d.now ∧
        t.dev.tdm.reports = d.tdm.reports ++ [⟨9, 2, 1, 0, 0, 5, 0⟩] ∧ RegsKept d t.dev [STR_LINK_STATUS_STATE.reg, RAS_SUMMARY_STR_SPARE.reg] ∧
        ∀ r op o, d.str.reqs = [r] → r.op = some op → r.core = none → d.op? op = some o → o.phase = .running → OpBecomes s t o (o.ends o.start .resourceLost 0 0))) ∧
    (∀ ch, ch ≤ 7 →
      let pt := (STR_DMA_PTR_EN ch).reg
      let head := d.rd (STR_DMA_PTR_HEAD ch)
      let log := d.rd (STR_DMA_PTR_LOG2 ch)
      (s.ready → ∀ v, Gives (.dmaTailWrite ch v) s fun t => t.dev.rd (STR_DMA_PTR_TAIL ch) = v % 2 ^ 16 ∧ t.dev.rd (STR_DMA_PTR_HEAD ch) = head ∧ t.dev.rd (STR_DMA_PTR_LOG2 ch) = log ∧
        t.dev.rd (STR_DMA_PTR_STATE ch) = d.rd (STR_DMA_PTR_STATE ch) ∧ t.dev.rd (STR_DMA_PTR_EN ch) = d.rd (STR_DMA_PTR_EN ch) ∧ RegsKept d t.dev [pt] ∧ regsOnly t) ∧
      (s.ready → (d.rd (STR_DMA_PTR_EN ch) = 1 → GivesDev (.dmaChannelEnable ch true) s d) ∧
        (d.rd (STR_DMA_PTR_EN ch) = 0 → Gives (.dmaChannelEnable ch true) s fun t => t.dev.rd (STR_DMA_PTR_EN ch) = 1 ∧ t.dev.rd (STR_DMA_PTR_STATE ch) = 1 ∧ t.dev.rd (STR_DMA_PTR_HEAD ch) = 0 ∧
          t.dev.rd (STR_DMA_PTR_TAIL ch) = 0 ∧ t.dev.rd (STR_DMA_PTR_LOG2 ch) = log ∧ RegsKept d t.dev [pt] ∧ regsOnly t) ∧
        Gives (.dmaChannelEnable ch false) s fun t => t.dev.rd (STR_DMA_PTR_EN ch) = 0 ∧ t.dev.rd (STR_DMA_PTR_STATE ch) = 0 ∧ t.dev.rd (STR_DMA_PTR_LOG2 ch) = log ∧ RegsKept d t.dev [pt] ∧ regsOnly t) ∧
      (∀ (ext : BitVec 256) (err : Option Status),
        let off := d.rd (STR_DMA_PTR_EN ch) = 0 ∨ d.rd (STR_DMA_PTR_STATE ch) ≠ 1 ∨ head = d.rd (STR_DMA_PTR_TAIL ch)
        let at_ := d.rd (STR_DMA_RING_ADDR ch) * 4096 + head % 2 ^ log * 32
        let src := d.natAt at_ 8
        let dst := d.natAt (at_ + 8) 8
        let n := d.natAt (at_ + 16) 4
        let tag := d.natAt (at_ + 20) 2
        let flags := d.natAt (at_ + 23) 1
        let done := fun (t : State) (st : Status) => t.dev.natAt (at_ + 24) 1 = statusCode st ∧ t.dev.rd (STR_DMA_PTR_HEAD ch) = (head + 1) % 2 ^ 16 ∧ t.dev.rd (STR_DMA_PTR_STATE ch) = (if st = .ok then 1 else 2) ∧
          t.dev.rd (STR_DMA_PTR_TAIL ch) = d.rd (STR_DMA_PTR_TAIL ch) ∧ (d.rd STR_CTRL_HOLDOFF = 0 → t.dev.out = d.out ++ (if flags % 2 = 1 ∧ up then [.int (d.rd (STR_DMA_RING_VECTOR ch))] else []))
        let stops := fun (st : Status) => Gives (.dmaDescriptorComplete ch ext err) s fun t => done t st ∧ RegsKept d t.dev [pt] ∧ (∀ b, b ≠ at_ + 24 → t.dev.byteAt b = d.byteAt b) ∧ t.dev.fe = d.fe
        let wrong := n = 0 ∨ 2 ^ 30 < n ∨ 1 < flags
        (off → GivesDev (.dmaDescriptorComplete ch ext err) s d) ∧
        (¬off → at_ + 32 ≤ 0x6000000000 → (d.str.dmaDead = true → stops .resourceLost) ∧ (d.str.dmaDead = false → d.poisonIn at_ 32 = true → stops .poisonConsumed) ∧
          (d.str.dmaDead = false → d.poisonIn at_ 32 = false → (wrong → stops .aborted) ∧ (¬wrong → tag = 0 → inMemory src n = false ∨ inMemory dst n = false → stops .rights) ∧
            (¬wrong → tag ≠ 0 → d.context? tag = none → stops .handleInvalid) ∧
            (¬wrong → tag = 0 → inAlloc src n = true → inAlloc dst n = true → dst + n ≤ at_ ∨ at_ + 32 ≤ dst → Gives (.dmaDescriptorComplete ch ext err) s fun t => done t .ok ∧
              ∀ b, b ≠ at_ + 24 → t.dev.byteAt b = if dst ≤ b ∧ b < dst + n then d.byteAt (src + (b - dst)) else d.byteAt b)))))

/-- A module taken out leaves its link DEGRADED on the rest with a replay; with the last one the link is LOST and its dies with it (C1 for the link between C0 and C1). Flits and NAKs follow R436; an unknown packet type is an event; an idle module enters L1. A die reset release makes the fuses equal and starts discovery; a step that overruns three times FAILS it; identities end training and are shown, a wrong kind or an unlocked C0 ends it; the configuration sets LEVEL or refuses the pairing; the last confirmation makes the dies ACTIVE and starts Strait. The standby root takes over with an event and WARN, or every clock stops. DIE_RESET drains C1 (BUSY where it may not), DIE_DRAIN_COMPLETE closes its links and holds it in reset, DIE_RESET_HOLD_END lets it start, DIE_REJOIN_COMPLETE makes it ACTIVE or leaves it out. -/
def Obligations.NarrowsDiscoveryClocksAndC1 : Prop :=
  ∀ (s : State), s.runs →
    let d := s.dev
    let regsOnly := fun (t : State) => t = { s with dev := { d with regs := t.dev.regs } }
    (∀ l, l < 9 →
      let k := 10 + l
      let ln := d.link k
      let ms := d.rd (NRW_LINK_MODULES l)
      let up := d.rd (NRW_LINK_STATE l) = 2 ∨ d.rd (NRW_LINK_STATE l) = 3
      let same := fun (t : State) => (∀ j, j ≠ k → t.dev.link j = d.link j) ∧ RegsKept d t.dev [(NRW_LINK_STATE l).reg, RAS_SUMMARY_NRW_OUT.reg] ∧
        t = { s with dev := { d with regs := t.dev.regs, out := t.dev.out, nrw := { d.nrw with idle := t.dev.nrw.idle }, tdm := { d.tdm with reports := t.dev.tdm.reports }, nfp := { d.nfp with links := t.dev.nfp.links } } }
      let replays := fun (t : State) => t.dev.out = d.out ++ (ln.retry.take 1).map (.replay k) ∧ t.dev.rd (NRW_LINK_REPLAYS l) = min 65535 (d.rd (NRW_LINK_REPLAYS l) + (ln.retry.take 1).length)
      (∀ m, (¬up ∨ ms / 2 ^ m % 2 = 0 → GivesDev (.moduleTakeOut l m) s d) ∧
        (up → m < nrwModules l → ms / 2 ^ m % 2 = 1 → ms ≠ 2 ^ m → Gives (.moduleTakeOut l m) s fun t => t.dev.rd (NRW_LINK_MODULES l) = ms - 2 ^ m ∧ t.dev.rd (NRW_LINK_STATE l) = 3 ∧ t.dev.link k = ln ∧ replays t ∧
          t.dev.tdm.reports = d.tdm.reports ++ [⟨10, 2, 1, l, m, 0, 0⟩] ∧ t.dev.nrw.idle = d.nrw.idle.filter (· != (l, m)) ∧ t.dev.rd RAS_SUMMARY_NRW_OUT = min 15 (d.rd RAS_SUMMARY_NRW_OUT + 1) ∧ same t) ∧
        (up → m < nrwModules l → ms = 2 ^ m → d.ras.lostDies = [] → Gives (.moduleTakeOut l m) s fun t => t.dev.rd (NRW_LINK_STATE l) = 6 ∧ t.dev.rd (NRW_LINK_MODULES l) = 0 ∧
          t.dev.ras.lostDies = (if l = 8 then [5] else [(nrwDies l).1, (nrwDies l).2]) ∧ ∀ i ∈ t.dev.ras.lostDies, t.dev.rd (NRW_DIE_STATE i) = 6) ∧
        (up → 2 ≤ d.rd NRW_DISC_STATUS_LEVEL → d.rd NRW_CTRL_IDLE_PD = 1 → ln.retry = [] → d.rd NFP_DOM_STATUS_STATE ≠ 4 → ms / 2 ^ m % 2 = 1 → (l, m) ∉ d.nrw.idle →
          GivesDev (.moduleIdle l m) s { d with nrw := { d.nrw with idle := d.nrw.idle ++ [(l, m)] } }) ∧
        (¬up ∨ d.rd NRW_DISC_STATUS_LEVEL < 2 ∨ d.rd NRW_CTRL_IDLE_PD = 0 ∨ ln.retry ≠ [] ∨ d.rd NFP_DOM_STATUS_STATE = 4 ∨ ms / 2 ^ m % 2 = 0 ∨ (l, m) ∈ d.nrw.idle → GivesDev (.moduleIdle l m) s d)) ∧
      (up → ∀ (hdr : Word) pt,
        let ty := fieldOf hdr 63 60
        let refuses := fun (c : Instr) (n : Nat) => Gives c s fun t => t.dev.rd (NRW_LINK_CRC_ERR l) = min 65535 (d.rd (NRW_LINK_CRC_ERR l) + n) ∧ t.dev.link k = { ln with discarding := true } ∧
          t.dev.out = d.out ++ (if ln.discarding then [] else [.nak k ln.rxSeq]) ∧ t.dev.tdm.reports = d.tdm.reports ∧ same t
        let takes := fun (t : State) (l' : Link) => same t ∧ t.dev.regs = d.regs ∧ t.dev.out = d.out ∧ (∀ x, x ∈ (t.dev.link k).retry ↔ x ∈ ln.retry ∧ 2048 ≤ (fieldOf hdr 47 36 + 4096 - x) % 4096) ∧
          (∀ v, v < 4 → ln.credits.length = 4 → (t.dev.link k).credits.getD v 0 = ln.credits.getD v 0 + (if v = fieldOf hdr 35 34 then fieldOf hdr 33 22 else 0)) ∧
          t.dev.link k = { l' with retry := (t.dev.link k).retry, credits := (t.dev.link k).credits }
        refuses (.narrowsFlit l hdr false pt) 1 ∧ (ty = 1 ∨ ty = 2 → fieldOf hdr 59 48 ≠ ln.rxSeq → refuses (.narrowsFlit l hdr true pt) 0) ∧
        (ty = 0 → Gives (.narrowsFlit l hdr true pt) s fun t => takes t ln ∧ t.dev.tdm.reports = d.tdm.reports ∧ t.dev.nrw.idle = d.nrw.idle) ∧
        (ty = 1 ∨ ty = 2 → fieldOf hdr 59 48 = ln.rxSeq → Gives (.narrowsFlit l hdr true pt) s fun t => takes t { ln with rxSeq := (ln.rxSeq + 1) % 4096, discarding := false } ∧
          t.dev.nrw.idle = d.nrw.idle.filter (·.1 != l) ∧
          t.dev.tdm.reports = d.tdm.reports ++ (if ty = 1 ∧ fieldOf hdr 21 18 ≠ 15 ∧ nrwTypeOk pt = false then [⟨10, 0, 6, l, d.nrwModuleOf l ln.rxSeq, pt, 0⟩] else []))) ∧
      (up → ∀ q failed, q < 4096 →
        let n := if ln.nakSeq = q ∧ ln.nakRun ≠ 0 then ln.nakRun + 1 else 1
        (n < 8 → Gives (.narrowsNak l q failed) s fun t => t.dev.link k = { ln with nakSeq := q, nakRun := n } ∧ t.dev.out = d.out ++ [.replay k q] ∧
          t.dev.rd (NRW_LINK_REPLAYS l) = min 65535 (d.rd (NRW_LINK_REPLAYS l) + 1) ∧ t.dev.tdm.reports = d.tdm.reports ∧ same t) ∧
        (8 ≤ n → failed = [] → Gives (.narrowsNak l q failed) s fun t => t.dev.link k = { ln with nakSeq := q, nakRun := 0 } ∧ replays t ∧ t.dev.tdm.reports = d.tdm.reports ++ [⟨10, 1, 2, l, 0, 0, 0⟩] ∧ same t) ∧
        (∀ m, 8 ≤ n → failed = [m] → m < nrwModules l → ms / 2 ^ m % 2 = 1 → ms ≠ 2 ^ m → Gives (.narrowsNak l q failed) s fun t => t.dev.rd (NRW_LINK_MODULES l) = ms - 2 ^ m ∧ t.dev.rd (NRW_LINK_STATE l) = 3 ∧ replays t ∧
          t.dev.tdm.reports = d.tdm.reports ++ [⟨10, 1, 2, l, 0, 0, 0⟩, ⟨10, 2, 1, l, m, 0, 0⟩] ∧ same t))) ∧
    ((d.rd GLB_STATUS_STEP ≠ 1 ∨ d.boot.released ≠ none → GivesDev .dieResetRelease s d) ∧
      (d.rd GLB_STATUS_STEP = 1 → d.boot.released = none → Gives .dieResetRelease s fun t => t.dev.rd GLB_STATUS_STEP = 2 ∧ t.dev.rd NRW_DISC_STATUS_STATE = 1 ∧ (∀ i, i < 6 → t.dev.rd (NRW_DIE_STATE i) = 1) ∧
        (∀ l, l < 9 → t.dev.rd (NRW_LINK_STATE l) = 1) ∧ t.dev.boot.released = some d.now ∧ t.dev.nrw.ids = [] ∧ t.dev.rd SEC_ENTROPY_OK_C0 = 1 ∧ t.dev.rd SEC_ENTROPY_OK_C1 = 1 ∧
        t.otp = { s.otp with lc0 := BitVec.ofNat 3 s.otp.state, lc1 := BitVec.ofNat 3 s.otp.state } ∧ t.meter = s.meter)) ∧
    (let st := d.rd NRW_DISC_STATUS_STATE
     let fails := fun (c : Instr) (n cause die : Nat) => Gives c s fun t => t.dev.rd NRW_DISC_STATUS_STATE = n ∧ t.dev.rd NRW_DISC_STATUS_CAUSE = cause ∧ t.dev.rd NRW_DISC_STATUS_CAUSE_DIE = die ∧ t.dev.rd GLB_STATUS_STEP = 9 ∧
       t.dev.rd GLB_STATUS_FAIL = (if n = 4 then 2 else 1) ∧ t.dev.rd GLB_STATUS_FAIL_DIE = die ∧ t.dev.rd STR_LINK_STATUS_STATE = 1 ∧ t.dev.tdm.reports = d.tdm.reports ++ [⟨10, 3, 8, 0, 0, if n = 4 then 2 else 1, die⟩] ∧
       (n = 4 → t.dev.rd GLB_STATUS_PAIRING_REFUSED = 1)
     let shown := fun (t : State) (die : Nat) (i : DieIdentity) => t.dev.rd (NRW_DIE_KIND die) = i.kind % 16 ∧ t.dev.rd (NRW_DIE_REV die) = i.rev % 256 ∧ t.dev.rd (NRW_DIE_FEAT die) = i.feat % 256 ∧ t.dev.rd (NRW_DIE_MINPAIR die) = i.minpair % 256
     (∀ die, die < 6 → (st ≠ 1 → st ≠ 2 → GivesDev (.discoveryStepTimeout die) s d) ∧
       (st = 1 ∨ st = 2 → (d.nrw.attempt < 2 → GivesDev (.discoveryStepTimeout die) s { d with nrw := { d.nrw with attempt := d.nrw.attempt + 1 } }) ∧
         (2 ≤ d.nrw.attempt → fails (.discoveryStepTimeout die) 5 (if st = 1 then 4 else 2) die)) ∧
       ∀ (i : DieIdentity), getKey d.nrw.ids die = none →
         (st = 1 ∨ st = 2 → i.kind ≠ (if die < 4 then 0 else 1) → fails (.identity die i) 5 3 die) ∧
         (st = 1 ∨ st = 2 → i.kind = (if die < 4 then 0 else 1) → die = 4 → i.romPass = false → fails (.identity die i) 5 2 4) ∧
         (st = 1 ∨ st = 2 → i.kind = (if die < 4 then 0 else 1) → die = 4 → i.romPass = true → i.rootLocked = false → fails (.identity die i) 5 5 4) ∧
         (st = 1 ∨ st = 2 → i.kind = (if die < 4 then 0 else 1) → die ≠ 4 ∨ (i.romPass = true ∧ i.rootLocked = true) → Gives (.identity die i) s fun t => t.dev.nrw.ids = d.nrw.ids ++ [(die, i)] ∧ shown t die i ∧
           t.dev.rd NRW_DISC_STATUS_STATE = 2 ∧ (∀ j, j < 6 → j ≠ die → t.dev.word (NRW_DIE_STATE j).reg = d.word (NRW_DIE_STATE j).reg) ∧ t.dev.tdm = d.tdm ∧ t.dev.out = d.out ∧
           (st = 1 → ∀ l, l < 9 → t.dev.rd (NRW_LINK_STATE l) = 2 ∧ t.dev.rd (NRW_LINK_MODULES l) = 2 ^ nrwModules l - 1 ∧ (t.dev.link (10 + l)).credits = [2048, 2048, 2048, 2048]) ∧
           (st = 2 → RegsKept d t.dev [(NRW_DIE_STATE die).reg] ∧ t.dev.nfp = d.nfp))) ∧
     (∀ a b c e f h : DieIdentity, let ids := [(0, a), (1, b), (2, c), (3, e), (4, f), (5, h)]
       let all := [a, b, c, e, f, h]
       st = 2 → d.nrw.ids = ids → d.nrw.configured = false → (∀ x ∈ all, x.feat < 256 ∧ x.minpair < 256) → ∀ lv ∈ all, ∀ mp ∈ all, (∀ x ∈ all, lv.feat ≤ x.feat ∧ x.minpair ≤ mp.minpair) →
         (lv.feat < mp.minpair → ∀ n i, ids[n]? = some (n, i) → i.minpair = mp.minpair → (∀ m j, m < n → ids[m]? = some (m, j) → j.minpair ≠ mp.minpair) → fails .configuration 4 1 n) ∧
         (mp.minpair ≤ lv.feat → Gives .configuration s fun t => t.dev.rd NRW_DISC_STATUS_LEVEL = lv.feat ∧ t.dev.rd NRW_DISC_STATUS_MINPAIR = mp.minpair ∧ t.dev.rd NRW_DISC_STATUS_STATE = 2 ∧
           RegsKept d t.dev [NRW_DISC_STATUS_LEVEL.reg] ∧ t = { s with dev := { d with regs := t.dev.regs, nrw := { d.nrw with configured := true, attempt := 0 } } })) ∧
     (st ≠ 2 ∨ d.nrw.ids.length < 6 ∨ d.nrw.configured = true → GivesDev .configuration s d) ∧
     (∀ die, die < 6 → (st ≠ 2 ∨ d.nrw.configured = false ∨ die ∈ d.nrw.confirms → GivesDev (.confirm die) s d) ∧
       (st = 2 → d.nrw.configured = true → die ∉ d.nrw.confirms →
         (d.nrw.confirms.length < 5 → GivesDev (.confirm die) s { d with nrw := { d.nrw with confirms := d.nrw.confirms ++ [die] } }) ∧
         (5 ≤ d.nrw.confirms.length → Gives (.confirm die) s fun t => t.dev.rd NRW_DISC_STATUS_STATE = 3 ∧ t.dev.rd GLB_STATUS_STEP = 3 ∧ (∀ i, i < 6 → t.dev.rd (NRW_DIE_STATE i) = 2) ∧ t.dev.boot.discovered = true ∧
           t.dev.rd STR_LINK_STATUS_STATE = 1 ∧ (d.rd GLB_STATUS_KIND ≠ 2 → ∀ i, getKey d.nrw.ids 5 = some i → t.dev.rd NRW_CLK_STATUS_STANDBY_OK = i.rootLocked.toNat ∧
             t.dev.tdm.reports = d.tdm.reports ++ (if i.rootLocked then [] else [⟨10, 2, 4, 0, 0, 0, 0⟩])))))) ∧
    (let ok := d.rd NRW_CLK_STATUS_STANDBY_OK = 1
     let loses := fun (c : Instr) (m : Nat) => Gives c s fun t => t.dev.rd NRW_CLK_STATUS_MASTER = m ∧ t.dev.rd NRW_CLK_STATUS_STANDBY_OK = 0 ∧ t.dev.rd RAS_SUMMARY_CLK_STANDBY = 0 ∧ t.dev.rd RAS_SUMMARY_WARN = 1 ∧
       t.dev.tdm.reports = d.tdm.reports ++ [⟨10, 1, 4, 0, 0, 0, 0⟩] ∧ RegsKept d t.dev [NRW_CLK_STATUS_MASTER.reg, RAS_SUMMARY_WARN.reg] ∧ t.dev.nrw = d.nrw
     (ok → loses .clockMasterFailure (1 - d.rd NRW_CLK_STATUS_MASTER) ∧ loses .standbyRootFailure (d.rd NRW_CLK_STATUS_MASTER)) ∧
     (¬ok → GivesDev .standbyRootFailure s d ∧ GivesDev .clockMasterFailure s { d with nrw := { d.nrw with clocksRun := false } }) ∧
     (d.rd NRW_CLK_STATUS_REF_OK = 0 → GivesDev .referenceLoss s d) ∧
     (d.rd NRW_CLK_STATUS_REF_OK = 1 → Gives .referenceLoss s fun t => t.dev.rd NRW_CLK_STATUS_REF_OK = 0 ∧ t.dev.tdm.reports = d.tdm.reports ++ [⟨10, 2, 5, 0, 0, 0, 0⟩] ∧ RegsKept d t.dev [NRW_CLK_STATUS_REF_OK.reg]) ∧
     Gives .referenceReturn s fun t => t.dev.rd NRW_CLK_STATUS_REF_OK = 1 ∧ t.dev.rd NRW_CLK_STATUS_MASTER = d.rd NRW_CLK_STATUS_MASTER ∧ RegsKept d t.dev [NRW_CLK_STATUS_REF_OK.reg] ∧ regsOnly t) ∧
    (let c1 := d.rd (NRW_DIE_STATE 5)
     (∀ die, s.ready → die < 8 →
       (5 < die → GivesDev (.dieReset die) s (d.event 0 0 2 9 (0x7F0000000000 + NRW_DIE_CMD_GO.reg) (die * 2 ^ 16 + 33) 0)) ∧
       (die ≤ 5 → d.nrw.resetDie ≠ none → Gives (.dieReset die) s fun t => t.dev.rd NRW_DIE_CMD_STATUS = 14 ∧ t.dev.rd NRW_DIE_CMD_GO = d.rd NRW_DIE_CMD_GO ∧ RegsKept d t.dev [NRW_DIE_CMD_GO.reg] ∧ regsOnly t) ∧
       (d.nrw.resetDie = none → die < 5 ∨ (die = 5 ∧ (d.rd CTU_STATUS_ACTIVE = 1 ∨ d.rd NRW_CLK_STATUS_MASTER = 1 ∨ c1 ≠ 2)) → Gives (.dieReset die) s fun t => t.dev.rd NRW_DIE_CMD_STATUS = 14 ∧ t.dev.rd NRW_DIE_CMD_GO = 0 ∧
         t.dev.rd NRW_DIE_CMD_DIE = die ∧ RegsKept d t.dev [NRW_DIE_CMD_GO.reg] ∧ regsOnly t) ∧
       (die = 5 → d.nrw.resetDie = none → d.rd CTU_STATUS_ACTIVE = 0 → d.rd NRW_CLK_STATUS_MASTER = 0 → c1 = 2 → d.fe.ops = [] → d.fe.queues = [] → d.twState = 0 → Gives (.dieReset die) s fun t =>
         t.dev.rd NRW_DIE_CMD_GO = 1 ∧ t.dev.nrw.resetDie = some 5 ∧ t.dev.rd (NRW_DIE_STATE 5) = 3 ∧ t.dev.rd CTU_STATUS_STANDBY_OK = 0 ∧ t.dev.rd TDM_STATUS_SHADOW_OK = 0 ∧
         (∀ p, 4 ≤ p → p < 8 → t.dev.rd (NFP_PORT_STATUS_STATE p) = if d.rd (NFP_PORT_STATUS_STATE p) = 0 then 0 else 5) ∧ (∀ p, p < 4 → t.dev.rd (NFP_PORT_STATUS_STATE p) = d.rd (NFP_PORT_STATUS_STATE p)) ∧
         (∀ q, q < 9 → t.dev.agentState (16 + q) = if d.agentState (16 + q) = 0 then 1 else d.agentState (16 + q)))) ∧
     (c1 ≠ 3 → GivesDev .dieDrainComplete s d) ∧
     (c1 = 3 → d.coh.lines = [] → d.coh.dups = [] → d.coh.waiting = [] → d.coh.txns = [] → Gives .dieDrainComplete s fun t => t.dev.rd (NRW_DIE_STATE 5) = 4 ∧ t.dev.rd (NRW_DIE_RESETS 5) = min 65535 (d.rd (NRW_DIE_RESETS 5) + 1) ∧
       (∀ l, l < 9 → t.dev.rd (NRW_LINK_STATE l) = if 6 ≤ l then 5 else d.rd (NRW_LINK_STATE l)) ∧ (∀ q, q < 9 → t.dev.agentState (16 + q) = if d.agentState (16 + q) = 1 then 2 else d.agentState (16 + q))) ∧
     (c1 ≠ 4 → GivesDev .dieResetHoldEnd s d) ∧
     (c1 = 4 → Gives .dieResetHoldEnd s fun t => t.dev.rd (NRW_DIE_STATE 5) = 5 ∧ (∀ l, l < 9 → t.dev.rd (NRW_LINK_STATE l) = if 6 ≤ l then 1 else d.rd (NRW_LINK_STATE l)) ∧ regsOnly t) ∧
     ∀ (i : DieIdentity), let fits := i.kind = d.rd (NRW_DIE_KIND 5) ∧ i.rev = d.rd (NRW_DIE_REV 5) ∧ d.rd NRW_DISC_STATUS_LEVEL ≤ i.feat ∧ i.minpair ≤ d.rd NRW_DISC_STATUS_LEVEL
       (c1 ≠ 5 → GivesDev (.dieRejoinComplete i) s d) ∧
       (c1 = 5 → ¬fits → Gives (.dieRejoinComplete i) s fun t => t.dev.rd (NRW_DIE_STATE 5) = 7 ∧ t.dev.nrw.resetDie = none ∧ t.dev.rd NRW_DIE_CMD_STATUS = 1 ∧ t.dev.rd NRW_DIE_CMD_GO = 0 ∧
         t.dev.tdm.reports = d.tdm.reports ++ [⟨10, 2, 3, 21, 0, 7, 0⟩] ∧ RegsKept d t.dev [(NRW_DIE_STATE 5).reg, NRW_DIE_CMD_GO.reg]) ∧
       (c1 = 5 → fits → Gives (.dieRejoinComplete i) s fun t => t.dev.rd (NRW_DIE_STATE 5) = 2 ∧ t.dev.nrw.resetDie = none ∧ t.dev.rd NRW_DIE_CMD_STATUS = 0 ∧ t.dev.rd NRW_DIE_CMD_GO = 0 ∧ t.dev.rd TDM_STATUS_SHADOW_OK = 1 ∧
         (∀ l, 6 ≤ l → l < 9 → t.dev.rd (NRW_LINK_STATE l) = 2) ∧ (∀ q, q < 9 → t.dev.agentState (16 + q) = if d.agentState (16 + q) = 2 then 0 else d.agentState (16 + q)) ∧
         (∀ p, 4 ≤ p → p < 8 → d.rd (NFP_PORT_CTRL_EN p) = 1 → t.dev.rd (NFP_PORT_STATUS_STATE p) = 1) ∧ t.dev.nv.copies = [true, true] ∧ t.dev.tdm.reports = d.tdm.reports))

/-- Records act on a module that is leeward in MIRRORING or HELD (WORLD_WRITE in SEEDING too), replies on a windward; on any other they do nothing. DISPATCH is acknowledged and held, and in MIRRORING taken up in turn: HEAD advances, the operation is dispatched, or ends as refused. REFUSAL advances HEAD. WORLD_WRITE and a whole STREAM write the masked bytes; a STREAM is staged until its end marker, then COMMIT goes. ANSWER frees the request it is for, else waits. A DECISION signals its fence, resolves, places, decides late, or writes its register; what it is about may come after it. COMPLETE is compared with the outcome: another outcome, or an operation that lacks an answer, makes both HELD. ACK lowers LAG and frees a completion, COMMIT a streamed one's. DIGEST is answered AGREE or DISAGREE; AGREE frees the held tally, DISAGREE holds. POSTED confirms. FAILING makes a leeward take over, ends a pairing. -/
def Obligations.TwinRecordsAndReplies : Prop :=
  ∀ (s : State), s.runs →
    let d := s.dev
    let tw := d.twn
    let st := d.twState
    let lee := d.rd TWN_STATUS_ROLE = 1 ∧ (st = 3 ∨ st = 4)
    let wind := d.rd TWN_STATUS_ROLE = 0 ∧ (st = 3 ∨ st = 4)
    let calm := tw.records = [] ∧ tw.signals = []
    let twn := fun (c : Instr) (t : Twin) => GivesDev c s { d with twn := t }
    let held := fun (t : State) (cause : Nat) => t.dev.twState = 4 ∧ t.dev.rd TWN_STATUS_CAUSE = cause ∧ t.dev.rd GLB_STATUS_TALLY_MISMATCH = 1 ∧
      t.dev.tdm.reports = d.tdm.reports ++ [⟨11, 2, 1, 0, tw.tseq, 4, cause⟩, ⟨11, 2, 2, 0, tw.tseq, cause, 0⟩]
    let wrote := fun (t : State) (addr : Nat) (mask : BitVec 64) (data : BitVec 512) (bad : Bool) =>
      (∀ b, t.dev.byteAt b = if b / 64 = addr / 64 ∧ mask.getLsbD (b % 64) then lineByte data (b % 64) else d.byteAt b) ∧
      (∀ b, t.dev.poisonAt b = if b / 64 = addr / 64 then bad || (mask != BitVec.allOnes 64 && d.poisonAt b) else d.poisonAt b)
    (∀ gdn qid (e : BitVec 1024), ¬lee → GivesDev (.twnDispatch gdn qid e) s d ∧ (∀ x c, GivesDev (.twnRefusal qid e x c) s d) ∧ (∀ i a n bs, GivesDev (.twnAnswer i a n bs) s d) ∧ (∀ x, GivesDev (.twnDecision x) s d) ∧
      (∀ x c v, GivesDev (.twnComplete gdn x c v) s d) ∧ (∀ a m x p l, GivesDev (.twnStream gdn a m x p l) s d) ∧ (∀ g, GivesDev (.twnDigest gdn g) s d) ∧ GivesDev (.twnPosted gdn) s d ∧
      (¬(d.rd TWN_STATUS_ROLE = 1 ∧ st = 2) → ∀ a m x p, GivesDev (.worldWrite a m x p) s d)) ∧
    (∀ n, ¬wind → GivesDev (.twnAck n) s d ∧ GivesDev (.twnCommit n) s d ∧ GivesDev (.twnAgree n) s d ∧ ∀ g, GivesDev (.twnDisagree n g) s d) ∧
    (lee → ∀ gdn qid (e : BitVec 1024), qid < 8192 → 
      let tag := d.rd (FE_Q_STATE_TAG qid)
      let d0 := { d with out := d.out ++ [Msg.twin gdn 3 0], regs := (d.wr TWN_STATUS_LAG 1).regs, fe := { d.fe with gdn := gdn - 1 } }
      let head := d.rd (FE_Q_COUNT_HEAD qid)
      (st = 4 → tw.signals = [] → Gives (.twnDispatch gdn qid e) s fun t => t.dev.out = d.out ++ [.twin gdn 3 0] ∧ t.dev.rd TWN_STATUS_LAG = (tw.records.length + 1) % 2 ^ 16 ∧ RegsKept d t.dev [TWN_STATUS_LAG.reg] ∧
        t = { s with dev := { d with regs := t.dev.regs, out := t.dev.out, twn := { tw with records := tw.records ++ [.dispatch gdn qid e] } } }) ∧
      (∀ q v d1 o asked used pool reef, st = 3 → calm → d.queue? qid = some q → d.fe.runs = [] → d0.waitState tag e = .satisfied → d0.twinAdmit qid tag e none none = (v, d1) → d1.rd (FE_Q_COUNT_HEAD qid) = head → d1.twn = tw →
        (v = .hold → Gives (.twnDispatch gdn qid e) s fun t => t.dev.twn.records = [.dispatch gdn qid e] ∧ t.dev.rd (FE_Q_COUNT_HEAD qid) = head ∧ t.dev.fe.ops = d.fe.ops) ∧
        (v = .go o asked used pool reef → o.streamed = false → Gives (.twnDispatch gdn qid e) s fun t => t.dev.twn.records = [] ∧ t.dev.twn.dispatched = tw.dispatched ++ [(gdn, d.fe.nextOp)] ∧ t.dev.rd TWN_STATUS_LAG = 0 ∧
          t.dev.rd (FE_Q_COUNT_HEAD qid) = (head + 1) % 2 ^ 32 ∧ o ∈ t.dev.fe.ops) ∧
        (∀ x c, v = .refuse x c → Gives (.twnDispatch gdn qid e) s fun t => t.dev.twn.records = [] ∧ t.dev.twn.dispatched = tw.dispatched ++ [(gdn, d.fe.nextOp)] ∧ t.dev.rd (FE_Q_COUNT_HEAD qid) = (head + 1) % 2 ^ 32 ∧
          ∃ o', o' ∈ t.dev.fe.ops ∧ o'.id = d.fe.nextOp ∧ o'.qid = qid ∧ o'.entry = e ∧ o'.phase = .done x c 0)) ∧
      (∀ x c, st = 4 → tw.signals = [] → Gives (.twnRefusal qid e x c) s fun t => t.dev.twn.records = tw.records ++ [.refusal qid e x c] ∧ t.dev.rd (FE_Q_COUNT_HEAD qid) = head ∧ RegsKept d t.dev [TWN_STATUS_LAG.reg]) ∧
      (∀ q x c, st = 3 → calm → d.queue? qid = some q → Gives (.twnRefusal qid e x c) s fun t => t.dev.twn.records = [] ∧ t.dev.rd TWN_STATUS_LAG = 0 ∧ t.dev.rd (FE_Q_COUNT_HEAD qid) = (head + 1) % 2 ^ 32 ∧
        t.dev.fe.ops = d.fe.ops ∧ (x ≠ .ok → (t.dev.queue? qid).any (fun q' => q'.posted = q.posted + 1) = true))) ∧
    (lee ∨ (d.rd TWN_STATUS_ROLE = 1 ∧ st = 2) → ∀ addr mask data bad, (0x6000000000 ≤ addr → GivesDev (.worldWrite addr mask data bad) s d) ∧
      (addr < 0x6000000000 → Gives (.worldWrite addr mask data bad) s fun t => wrote t addr mask data bad ∧ t.dev.regs = d.regs ∧ t.dev.fe = d.fe ∧ t.dev.twn = tw ∧ t.dev.out = d.out)) ∧
    (lee → calm → ∀ isAtom (a : Word) n bs,
      let mine := fun (r : NfpReq) => r.kind = (if isAtom then 3 else 2) ∧ r.pkt.len = (if isAtom then 8 + 2 * n else n) ∧ 2 ^ 63 + r.pkt.dst * 2 ^ 48 + r.pkt.addr = a.toNat
      let host := fun (r : StrReq) => r.atom.isSome = isAtom ∧ r.len = n ∧ d.hostAddr a.toNat = some r.addr
      ((∀ r ∈ d.nfp.reqs, ¬mine r) → (∀ r ∈ d.str.reqs, ¬host r) → twn (.twnAnswer isAtom a n bs) { tw with answers := tw.answers ++ [(isAtom, a, n, bs)] }) ∧
      (∀ r rest, d.nfp.reqs = r :: rest → (∀ x ∈ rest, x.tag ≠ r.tag) → mine r → r.op = none → GivesDev (.twnAnswer isAtom a n bs) s { d with nfp := { d.nfp with reqs := rest } }) ∧
      (∀ r rest, d.str.reqs = r :: rest → (∀ x ∈ d.nfp.reqs, ¬mine x) → host r → GivesDev (.twnAnswer isAtom a n bs) s { d with str := { d.str with reqs := rest } })) ∧
    (lee → calm →
      (∀ i v, i < 65536 → (d.fence? i = none → twn (.twnDecision (.fenceSignal i v)) { tw with signals := [(i, v)] }) ∧
        (d.fence? i ≠ none → v < 2 ^ 63 → Gives (.twnDecision (.fenceSignal i v)) s fun t => t.dev.rd (FE_FENCE_VALUE i) = max (d.rd (FE_FENCE_VALUE i)) v ∧ RegsKept d t.dev [(FE_FENCE_VALUE i).reg] ∧ t = { s with dev := { d with regs := t.dev.regs } })) ∧
      (∀ tag page f, (∀ x ∈ d.ctu.faults, ¬(x.tag = tag ∧ x.page = page)) → twn (.twnDecision (.faultResolve tag page f)) { tw with resolves := tw.resolves ++ [(tag, page, f)] }) ∧
      (∀ obj seg fr, d.tier.waiters = [] → d.ctu.tierWait = [] → d.tier.copies = [] → tw.lates = [] → Gives (.twnDecision (.copyPlacement obj seg fr)) s fun t => t.dev.twn = { tw with placements := tw.placements ++ [(obj, seg, fr)] } ∧ t.dev.fe = d.fe ∧ t.dev.tier.copies = []) ∧
      (∀ tag obj seg, d.tier.waiters = [] → d.ctu.tierWait = [] → d.tier.copies = [] → tw.lates = [] → Gives (.twnDecision (.deadline tag obj seg)) s fun t => (∀ x ∈ t.dev.twn.lates, x = (tag, obj, seg)) ∧ t.dev.twn.records = [] ∧ t.dev.fe = d.fe) ∧
      (∀ n (v : Word), n < 64 → v.toNat % 64 = 0 → Gives (.twnDecision (.regWrite (0x7F0000000000 + (TWN_SET_W0_VA n).reg) v)) s fun t => t.dev.rd (TWN_SET_W0_VA n) = v.toNat % 2 ^ 57 ∧ RegsKept d t.dev [(TWN_SET_W0_VA n).reg]) ∧
      (∀ addr (v : Word), addr < 0x7F0000000000 ∨ addr % 8 ≠ 0 → GivesDev (.twnDecision (.regWrite addr v)) s d)) ∧
    (lee → ∀ gdn x c (v : BitVec 32),
      (∀ x' c' v', tw.outcomes = [(gdn, x', c', v')] → (x' = x ∧ c' = c ∧ v' = v → twn (.twnComplete gdn x c v) { tw with outcomes := [] }) ∧
        (st = 3 → ¬(x' = x ∧ c' = c ∧ v' = v) → Gives (.twnComplete gdn x c v) s fun t => held t 5 ∧ t.dev.twn.outcomes = [] ∧ (tw.sendStopped = true → t.dev.out = d.out ++ [.twin tw.tseq 7 0]))) ∧
      (tw.outcomes = [] → getKey tw.dispatched gdn = none → twn (.twnComplete gdn x c v) { tw with completes := tw.completes ++ [(gdn, x, c, v)] }) ∧
      (∀ id o, tw.outcomes = [] → getKey tw.dispatched gdn = some id → d.op? id = some o →
        (o.streamed = true → o.phase = .running → tw.completes = [] → calm → (∀ g ∈ tw.stage, g.gdn ≠ gdn) → Gives (.twnComplete gdn x c v) s fun t => OpBecomes s t o (o.ends o.start x c v) ∧ t.dev.twn.completes = [] ∧ t.dev.regs = d.regs) ∧
        (o.streamed = true → (∃ g ∈ tw.stage, g.gdn = gdn) → calm → twn (.twnComplete gdn x c v) { tw with completes := tw.completes ++ [(gdn, x, c, v)] }) ∧
        (o.streamed = false → o.opcode ≠ 3 → (∀ r ∈ d.nfp.reqs, r.op ≠ some id) → (∀ r ∈ d.str.reqs, r.op ≠ some id) → twn (.twnComplete gdn x c v) { tw with completes := tw.completes ++ [(gdn, x, c, v)] }) ∧
        (st = 3 → o.streamed = false → o.ended = false → (∀ r ∈ d.nfp.reqs, r.kind = 2) → (∃ r ∈ d.nfp.reqs, r.op = some id) → Gives (.twnComplete gdn x c v) s fun t => held t 6))) ∧
    (lee → (tw.stage.map (·.writes.length)).sum < 2 ^ 24 → ∀ gdn addr mask data bad,
      ((∀ g ∈ tw.stage, g.gdn ≠ gdn) → twn (.twnStream gdn addr mask data bad false) { tw with stage := tw.stage ++ [⟨gdn, if mask = 0 then [] else [(addr, mask, data, bad)], false, false⟩] }) ∧
      (∀ g, tw.stage = [g] → g.gdn = gdn → mask ≠ 0 → twn (.twnStream gdn addr mask data bad false) { tw with stage := [{ g with writes := g.writes ++ [(addr, mask, data, bad)] }] }) ∧
      (∀ g, tw.stage = [g] → g.gdn = gdn → g.writes = [(addr, mask, data, bad)] → addr < 0x6000000000 → calm → getKey tw.dispatched gdn = none → Gives (.twnStream gdn 0 0 0 false true) s fun t =>
        wrote t addr mask data bad ∧ t.dev.twn = { tw with stage := [], applied := tw.applied ++ [gdn] } ∧ t.dev.out = d.out ++ [.twin gdn 4 0] ∧ t.dev.regs = d.regs ∧ t.dev.fe = d.fe)) ∧
    (wind → ∀ gdn,
      let acks := fun (t : State) (streamed : Bool) => t.dev.fe.ops = d.fe.ops.map (fun o => if o.gdn = gdn ∧ o.streamed = streamed then { o with acked := true } else o)
      Gives (.twnAck gdn) s (fun t => acks t false ∧ t.dev.rd TWN_STATUS_LAG = d.rd TWN_STATUS_LAG - 1 ∧ RegsKept d t.dev [TWN_STATUS_LAG.reg] ∧ t = { s with dev := { d with regs := t.dev.regs, fe := { d.fe with ops := t.dev.fe.ops } } }) ∧
      Gives (.twnCommit gdn) s (fun t => acks t true ∧ t = { s with dev := { d with fe := { d.fe with ops := t.dev.fe.ops } } })) ∧
    (lee → ∀ n (g : BitVec 256),
      (tw.ownDig = none ∨ st = 4 ∨ (∃ m x, tw.ownDig = some (m, x) ∧ m ≠ n) → twn (.twnDigest n g) { tw with theirDig := some (n, g) }) ∧
      (∀ x, st = 3 → tw.ownDig = some (n, x) → (x = g → n < 2 ^ 32 → Gives (.twnDigest n g) s fun t => t.dev.out = d.out ++ [.twin n 6 0] ∧ t.dev.rd TWN_TALLY_LAST_AGREED = n ∧ t.dev.twn = { tw with theirDig := none } ∧ RegsKept d t.dev [TWN_TALLY_LAST_AGREED.reg]) ∧
        (x ≠ g → Gives (.twnDigest n g) s fun t => held t 4 ∧ (∀ i, i < 4 → t.dev.rd (TWN_PDIGEST_BYTES i) = g.toNat / 2 ^ (64 * i) % 2 ^ 64) ∧ (tw.sendStopped = true → t.dev.out = d.out ++ [.twin n 7 x])))) ∧
    (wind → ∀ n (g : BitVec 256), (tw.tseq ≠ n → GivesDev (.twnAgree n) s d) ∧
      (tw.tseq = n → n < 2 ^ 32 → Gives (.twnAgree n) s fun t => t.dev.twn = { tw with heldTally := none } ∧ t.dev.rd TWN_TALLY_LAST_AGREED = n ∧ RegsKept d t.dev [TWN_TALLY_LAST_AGREED.reg]) ∧
      (st = 3 → tw.heldTally ≠ none → tw.tseq = n → Gives (.twnDisagree n g) s fun t => held t 4 ∧ ∀ i, i < 4 → t.dev.rd (TWN_PDIGEST_BYTES i) = g.toNat / 2 ^ (64 * i) % 2 ^ 64) ∧
      (st = 3 → tw.heldTally = none ∨ tw.tseq ≠ n → Gives (.twnDisagree n g) s fun t => held t 5 ∧ ∀ i, i < 4 → t.dev.rd (TWN_PDIGEST_BYTES i) = d.rd (TWN_PDIGEST_BYTES i))) ∧
    (lee → ∀ gdn, ((∀ x ∈ tw.unposted, x.1 ≠ gdn) → GivesDev (.twnPosted gdn) s d) ∧
      (∀ x rest, tw.unposted = x :: rest → x.1 = gdn → twn (.twnPosted gdn) { tw with unposted := rest })) ∧
    (let moved := fun (t : State) (n : Nat) => t.dev.twState = n ∧ t.dev.rd TWN_STATUS_CAUSE = 1 ∧ t.dev.tdm.reports = d.tdm.reports ++ [⟨11, if n = 8 then 2 else 0, 1, 0, tw.tseq, n, 1⟩]
     (st ≠ 1 → st ≠ 2 → ¬lee → GivesDev .twnFailing s d) ∧
     (st = 1 ∨ st = 2 → Gives .twnFailing s fun t => moved t (if st = 2 ∧ d.rd TWN_STATUS_ROLE = 1 then 8 else 0) ∧ t.dev.rd TWN_CMD_STATUS = 1 ∧ t.dev.rd TWN_CMD_GO = 0 ∧ t.dev.twn = { tw with seedStop := false, partnerId := none }) ∧
     (lee → Gives .twnFailing s fun t => t.dev.twState = 7 ∧ t.dev.rd TWN_STATUS_ROLE = 0 ∧ t.dev.rd TWN_STATUS_CAUSE = 1 ∧ t.dev.twn.stage = [] ∧ t.dev.twn.unposted = [] ∧ t.dev.twn.completes = []))

/-- EN starts the twin link or gives it up. A partner lost by silence (cause 2) or by a link that goes DOWN (cause 3) ends a pairing ABORTED: OFF, or FENCED for a seeding leeward; a mirroring or HELD windward is ISOLATED, its leeward an ORPHAN. PAIR takes an OFF module (or a FENCED one that is to be leeward) to LINKING with nothing of an earlier pairing left. A verdict on a HELD pair makes the module it names SOLO (a leeward by taking over) and FENCES the other. SOLO frees an ISOLATED windward, TAKEOVER an ORPHAN, FENCE ends every operation ABORTED 0x86, closes every job entry and leaves FENCED. Any other state answers BUSY. Without a verdict in time the windward goes SOLO and its held tally fails, the leeward is an ORPHAN. When the seeding copy ends the leeward mirrors, the windward once nothing is in flight. Each change of state records one event with the cause. -/
def Obligations.TwinStatesAndCommands : Prop :=
  ∀ (s : State), s.runs →
    let d := s.dev
    let tw := d.twn
    let st := d.twState
    let lee := d.rd TWN_STATUS_ROLE = 1
    let moved := fun (t : State) (n cause : Nat) => t.dev.twState = n ∧ t.dev.rd TWN_STATUS_CAUSE = cause ∧
      (⟨11, if n = 5 ∨ n = 6 ∨ n = 8 then 2 else 0, 1, 0, tw.tseq, n, cause⟩ : TReport) ∈ t.dev.tdm.reports ∧ (∀ x ∈ d.tdm.reports, x ∈ t.dev.tdm.reports)
    let told := fun (t : State) (n : Nat) => t.dev.rd TWN_CMD_STATUS = n ∧ t.dev.rd TWN_CMD_GO = 0
    let idle := d.fe.ops = [] ∧ d.nfp.colls = [] ∧ d.nfp.reqs = [] ∧ tw.records = [] ∧ tw.signals = []
    (s.ready → ∀ en : Bool, (d.rd TWN_CTRL_EN = en.toNat → GivesDev (.twinLinkEnable en) s d) ∧
      (d.rd TWN_CTRL_EN ≠ en.toNat → st = 0 → Gives (.twinLinkEnable en) s fun t => t.dev.rd TWN_CTRL_EN = en.toNat ∧ t.dev.rd TWN_LINK_STATUS_STATE = en.toNat ∧ t.dev.rd TWN_LINK_STATUS_LANES = 0 ∧ (t.dev.link 9).step = en.toNat ∧
        t.dev.twState = 0 ∧ t.dev.rd TWN_CTRL_ROLE = d.rd TWN_CTRL_ROLE ∧ t.dev.tdm.reports = d.tdm.reports ++ (if en then [] else [⟨11, 2, 1, 0, tw.tseq, 0, 0⟩]) ∧
        RegsKept d t.dev [TWN_CTRL_EN.reg, TWN_LINK_STATUS_STATE.reg, RAS_SUMMARY_TWN_SPARE.reg] ∧ t.dev.twn = tw)) ∧
    (let up := d.rd TWN_CTRL_EN = 1 ∧ 1 ≤ d.rd TWN_LINK_STATUS_STATE ∧ d.rd TWN_LINK_STATUS_STATE ≤ 4
     (¬up → GivesDev .twinLinkDown s d) ∧ (up → Gives .twinLinkDown s fun t => t.dev.rd TWN_LINK_STATUS_STATE = 5 ∧ t.dev.rd TWN_LINK_STATUS_LANES = 0 ∧ (t.dev.link 9).retry = []) ∧
     (st = 0 ∨ 5 ≤ st → GivesDev .partnerSilence s d ∧ (up → Gives .twinLinkDown s fun t => t.dev.twState = st ∧ t.dev.twn = tw)) ∧
     (∀ c cause, c = Instr.partnerSilence ∧ cause = 2 ∨ (c = .twinLinkDown ∧ cause = 3 ∧ up) →
       (st = 1 ∨ st = 2 → Gives c s fun t => moved t (if st = 2 ∧ lee then 8 else 0) cause ∧ told t 1 ∧ t.dev.twn = { tw with seedStop := false, partnerId := none }) ∧
       (st = 3 ∨ st = 4 → ¬lee → Gives c s fun t => moved t 5 cause ∧ t.dev.twn = tw ∧ t.dev.fe = d.fe) ∧
       (st = 3 ∨ st = 4 → lee → tw.records = [] → tw.signals = [] → Gives c s fun t => moved t 6 cause ∧ t.dev.twn = tw ∧ t.dev.fe = d.fe))) ∧
    (s.ready →
      let pairs := st = 0 ∨ (st = 8 ∧ d.rd TWN_CTRL_ROLE = 1)
      let busy := fun (c : Instr) (op : Nat) => Gives c s fun t => t.dev.rd TWN_CMD_STATUS = 14 ∧ t.dev.rd TWN_CMD_GO = (if st = 1 ∨ st = 2 then 1 else 0) ∧ t.dev.rd TWN_CMD_OP = op ∧
        RegsKept d t.dev [TWN_CMD_GO.reg] ∧ t = { s with dev := { d with regs := t.dev.regs } }
      (¬pairs → busy .twnPair 1) ∧ (st ≠ 4 → busy .verdictWindward 2 ∧ busy .verdictLeeward 3) ∧ (st ≠ 5 → busy .twnSolo 4) ∧ (st ≠ 6 → busy .twnTakeover 5) ∧
      (pairs → d.lnUp 9 = false → tw.sendStopped = false → Gives .twnPair s fun t => t.dev.twState = 1 ∧ t.dev.rd TWN_STATUS_ROLE = d.rd TWN_CTRL_ROLE ∧ t.dev.rd TWN_STATUS_CAUSE = 0 ∧ t.dev.rd TWN_STATUS_LAG = 0 ∧ t.dev.rd TWN_CMD_GO = 1 ∧
        t.dev.rd TWN_CMD_OP = 1 ∧ t.dev.twn = {} ∧ t.dev.fe = d.fe) ∧
      (pairs → d.lnUp 9 = true → Gives .twnPair s fun t => (t.dev.twState = 1 ∨ t.dev.twState = 2 ∨ t.dev.twState = 0) ∧ (t.dev.twState = 0 → told t 1 ∧ t.dev.rd TWN_STATUS_CAUSE = 9) ∧ (t.dev.twState ≠ 0 → t.dev.rd TWN_CMD_GO = 1)) ∧
      (st = 4 → ¬lee → Gives .verdictWindward s fun t => moved t 7 7 ∧ told t 0 ∧ t.dev.fe = d.fe ∧ t.dev.twn = { tseq := tw.tseq, ownDig := tw.ownDig, theirDig := tw.theirDig, sendStopped := tw.sendStopped }) ∧
      (st = 5 → Gives .twnSolo s fun t => moved t 7 8 ∧ told t 0 ∧ t.dev.fe = d.fe ∧ t.dev.twn.heldTally = none) ∧
      (idle → lee → d.fe.runs = [] → (st = 4 → Gives .verdictLeeward s fun t => moved t 7 7 ∧ told t 0 ∧ t.dev.rd TWN_STATUS_ROLE = 0) ∧ (st = 6 → Gives .twnTakeover s fun t => moved t 7 8 ∧ told t 0 ∧ t.dev.rd TWN_STATUS_ROLE = 0)) ∧
      (∀ u q, lee → st = 6 → tw.records = [] → tw.signals = [] → d.fe.ops = [] → d.fe.runs = [] → d.nfp.sqs = [] → d.nfp.answers = [] → d.nfp.reqs = [] → tw.stage = [] → tw.unposted = [u] → d.queue? (u.2.1.toNat / 2 ^ 224 % 2 ^ 16) = some q → d.tier.waiters = [] → d.tier.copies = [] → d.ctu.tierWait = [] →
        let a := q.cqPa + (q.posted.toNat + 2 ^ 32 - 1) % 2 ^ q.cqLog2 * 32
        a + 32 ≤ 0x6000000000 → Gives .twnTakeover s fun t => t.dev.natAt a 32 = u.2.1.toNat ∧ t.dev.twn.unposted = []) ∧
      (∀ c, (c = Instr.verdictWindward ∧ st = 4 ∧ lee) ∨ (c = .verdictLeeward ∧ st = 4 ∧ ¬lee) ∨ (c = .twnFence ∧ st ≠ 8) → idle → Gives c s fun t => moved t 8 (if c = .twnFence then 8 else 7) ∧ told t 0 ∧
        (∀ j, j < 16 → t.dev.rd (NFP_JOB_W0_VALID j) = 0) ∧ t.dev.twn = { sendStopped := tw.sendStopped }) ∧
      (∀ o, st ≠ 8 → d.fe.ops = [o] → o.phase = .running → d.nfp.colls = [] → d.nfp.reqs = [] → d.isWindward = false → Gives .twnFence s fun t => t.dev.twState = 8 ∧ (t.dev.op? o.id).any (fun o' => o'.phase == .done .aborted 0x86 0) = true) ∧
      (st = 8 → Gives .twnFence s fun t => t.dev.twState = 8 ∧ told t 0 ∧ RegsKept d t.dev [TWN_CMD_GO.reg] ∧ t = { s with dev := { d with regs := t.dev.regs } })) ∧
    (let cause := d.rd TWN_STATUS_CAUSE
     (st ≠ 4 ∨ d.rd TWN_CTRL_VERDICT_MS = 0 → GivesDev .verdictTimeout s d) ∧
     (st = 4 → d.rd TWN_CTRL_VERDICT_MS ≠ 0 → (¬lee → Gives .verdictTimeout s fun t => moved t 7 cause ∧ t.dev.twn.failTally = tw.heldTally ∧ t.dev.twn.heldTally = none ∧ t.dev.fe = d.fe) ∧
       (lee → tw.records = [] → tw.signals = [] → Gives .verdictTimeout s fun t => moved t 6 cause ∧ t.dev.twn = tw ∧ t.dev.fe = d.fe))) ∧
    (let mirrors := fun (t : State) => moved t 3 0 ∧ told t 0 ∧ t.dev.rd TWN_STATUS_LAG = 0 ∧ t.dev.twn = { sendStopped := tw.sendStopped, partnerLive := tw.partnerLive } ∧ t.dev.fe = d.fe
     (st ≠ 2 → GivesDev .seedingCopyComplete s d) ∧ (st = 2 → lee → tw.tseq = 0 → Gives .seedingCopyComplete s mirrors) ∧
     (st = 2 → ¬lee → d.fe.ops = [] → tw.tseq = 0 → Gives .seedingCopyComplete s mirrors) ∧ (st = 2 → ¬lee → d.fe.ops ≠ [] → GivesDev .seedingCopyComplete s { d with twn := { tw with seedStop := true } }))

/-- OFFLINE cleans an ACTIVE cluster, which is OFFLINE once no home tracks it; ONLINE returns it; another state answers BUSY, no cluster ABORTED. DEAD, or an unanswered snoop, makes a user agent DEAD: its lines leave every home, the owned ones poisoned, counted in an event; a system agent answers ABORTED. A core test retires what failed and brings its cluster back; a failed firmware core is retired, the last of a die takes the domain down. A failed Shelf block is retired, its stripes relocated, or marked bad without a spare or with a bad digest. REQ 1 in SERVICE disables every function (BUSY while paired or LEAVING), MAINTENANCE follows when all are DISABLED, REQ 0 restores them. A test command is BUSY beside another or without a spare, ABORTED for a target that is none; it tests a tile in place, cleans a cluster, or scans; it ends with a result when all it tests has been tested. -/
def Obligations.AgentsRetirementsAndTests : Prop :=
  ∀ (s : State), s.runs →
    let d := s.dev
    let regsOnly := fun (t : State) => t = { s with dev := { d with regs := t.dev.regs } }
    (s.ready → ∀ a, a < 256 →
      let st := d.agentState a
      let cs := [(1, Instr.offline a), (2, .online a), (3, .dead a)]
      let ends := fun (t : State) (op n : Nat) => t.dev.rd COH_AGENT_CMD_STATUS = n ∧ t.dev.rd COH_AGENT_CMD_GO = 0 ∧ t.dev.rd COH_AGENT_CMD_AGENT = a ∧ t.dev.rd COH_AGENT_CMD_OP = op
      let only := fun (t : State) (op n : Nat) => ends t op n ∧ RegsKept d t.dev [COH_AGENT_CMD_GO.reg] ∧ regsOnly t
      (d.rd COH_AGENT_CMD_GO = 1 → ∀ c ∈ cs, GivesDev c.2 s d) ∧
      (d.rd COH_AGENT_CMD_GO = 0 →
        (isCluster a = false → Gives (.offline a) s (only · 1 1) ∧ Gives (.online a) s (only · 2 1)) ∧
        (isCluster a = true → (st ≠ 0 → Gives (.offline a) s (only · 1 14)) ∧ (st ≠ 2 → Gives (.online a) s (only · 2 14)) ∧
          (st = 0 → Gives (.offline a) s fun t => t.dev.agentState a = 1 ∧ t.dev.rd COH_AGENT_CMD_GO = 1 ∧ t.dev.rd COH_AGENT_CMD_AGENT = a ∧ RegsKept d t.dev [COH_AGENT_CMD_GO.reg, (COH_AGENT_STATE a).reg] ∧ regsOnly t) ∧
          (st = 2 → Gives (.online a) s fun t => t.dev.agentState a = 0 ∧ ends t 2 0 ∧ RegsKept d t.dev [COH_AGENT_CMD_GO.reg, (COH_AGENT_STATE a).reg] ∧ regsOnly t)) ∧
        (agentClass a = some 0 → d.inService a = false → Gives (.dead a) s (only · 3 14)) ∧ (agentClass a = none → Gives (.dead a) s (only · 3 14)) ∧
        (∀ n, agentClass a = some n → n ≠ 0 → Gives (.dead a) s (only · 3 1)) ∧ (agentClass a = some 0 → d.inService a = true → Gives (.dead a) s fun t => ends t 3 0 ∧ t.dev.agentState a = 3))) ∧
    (∀ c, c ∈ [Instr.dead 0, .snoopTimeout 0 7] → s.ready → d.agentState 0 = 0 → d.rd COH_AGENT_CMD_GO = 0 → (∃ t ∈ d.coh.txns, t.line = 7 ∧ 0 ∈ t.wait) →
      let held := d.coh.dups.filter fun x => cacheAgent x.cache == some 0
      let owned := held.filter (·.owned)
      Gives c s fun t => t.dev.agentState 0 = 3 ∧ t.dev.rd (COH_AGENT_RECLAIMED 0) = held.length % 2 ^ 24 ∧ t.dev.rd (COH_AGENT_POISONED 0) = owned.length % 2 ^ 24 ∧
        t.dev.rd COH_STATUS_DEAD_USER = min COH_STATUS_DEAD_USER.max (d.rd COH_STATUS_DEAD_USER + 1) ∧ (⟨4, 2, 3, 0, 0, held.length, owned.length⟩ : TReport) ∈ t.dev.tdm.reports ∧
        (∀ x ∈ t.dev.coh.lines, cacheAgent x.cache ≠ some 0) ∧ (∀ x ∈ t.dev.coh.dups, cacheAgent x.cache ≠ some 0)) ∧
    (∀ c l, cacheAgent c = none ∨ (∀ t ∈ d.coh.txns, t.line = l → c ∉ t.wait) → GivesDev (.snoopTimeout c l) s d) ∧
    (∀ a, a < 256 → (d.agentState a ≠ 1 → GivesDev (.clusterCleaningComplete a) s d) ∧
      (d.agentState a = 1 → d.coh.lines = [] → d.coh.dups = [] → d.coh.waiting = [] → d.coh.txns = [] → d.cores.cores = [] → Gives (.clusterCleaningComplete a) s fun t => t.dev.agentState a = 2 ∧
        (d.rd COH_AGENT_CMD_GO = 1 → d.rd COH_AGENT_CMD_AGENT = a → t.dev.rd COH_AGENT_CMD_GO = 0 ∧ t.dev.rd COH_AGENT_CMD_STATUS = 0) ∧ RegsKept d t.dev [COH_AGENT_CMD_GO.reg, (COH_AGENT_STATE a).reg] ∧
        t.dev.cores.testing = d.cores.testing ++ (if d.ras.test = some (3, a) then [(a / 16, a % 16)] else []))) ∧
    (∀ die cl unit, die ≤ 1 → cl ≤ 7 → d.rd GLB_STATUS_READY = 1 → (die, cl) ∈ d.cores.testing →
      Gives (.coreSelfTestEnd die cl 0 unit) s (fun t => t.dev.cores.testing = d.cores.testing.filter (· != (die, cl)) ∧ t.dev.nv = d.nv ∧ (cl < 8 → t.dev.agentState (16 * die + cl) = 0)) ∧
      ∀ i, i < 4 → d.spareUnused die = false → 4 * cl + i ∉ d.retiredCores 4 64 die → d.nv.record.length < 65536 → Gives (.coreSelfTestEnd die cl (BitVec.ofNat 5 (2 ^ i)) unit) s fun t =>
        t.dev.cores.testing = d.cores.testing.filter (· != (die, cl)) ∧ t.dev.agentState (16 * die + cl) = 0 ∧ t.dev.nv.record = d.nv.record ++ [rasEntry 4 0 (die * 64 + (4 * cl + i)) 0 d.now] ∧
        t.dev.tdm.reports = d.tdm.reports ++ [⟨12, 2, 2, die * 16 + cl, unit, 0, 0⟩]) ∧
    (∀ die cl fails unit, die ≤ 1 → cl ≤ 8 → (die, cl) ∉ d.cores.testing → d.agentState (16 * die + cl) ≠ 3 → GivesDev (.coreSelfTestEnd die cl fails unit) s d) ∧
    (∀ die f, die ≤ 1 → f ≤ 4 →
      let old := d.retiredCores 5 8 die
      let new := old ++ [f]
      (f ∈ old → GivesDev (.firmwareCoreFailure die f) s d) ∧
      (f ∉ old → d.nv.record.length < 65536 → d.ras.unrecorded = [] → d.rd GLB_STATUS_READY = 1 → d.fe.queues = [] → Gives (.firmwareCoreFailure die f) s fun t => t.dev.nv.record = d.nv.record ++ [rasEntry 5 0 (die * 8 + f) 0 d.now] ∧
        (⟨12, 1, 3, 0, 0, die * 8 + f, 0⟩ : TReport) ∈ t.dev.tdm.reports ∧ (∀ i, i < 4 → t.dev.rd RAS_FW_MAP_MAP / 2 ^ (16 * die + 4 * i) % 16 = (numbering 4 new i).elim 0 (8 + ·)) ∧
        (t.dev.rd COH_STATUS_FATAL = 1 ↔ ∀ i, i < 4 → numbering 4 new i = none))) ∧
    (∀ pkg stripes badDigest, (15 < pkg ∨ d.rd TIER_SHELF_STATUS_READY = 0 → GivesDev (.shelfBlockFailure pkg stripes badDigest) s d) ∧
      (pkg ≤ 15 → d.rd TIER_SHELF_STATUS_READY = 1 → 
        let r := sget (fun _ => 0) d.nv.blocksRetired pkg
        let bad := if 5888 ≤ r then stripes else stripes.filter badDigest.contains
        Gives (.shelfBlockFailure pkg stripes badDigest) s fun t => sget (fun _ => 0) t.dev.nv.blocksRetired pkg = r + 1 ∧ (∀ q, q ≠ pkg → sget (fun _ => 0) t.dev.nv.blocksRetired q = sget (fun _ => 0) d.nv.blocksRetired q) ∧
          t.dev.rd (RAS_SHELF_RETIRED pkg) = (r + 1) % 2 ^ 16 ∧ t.dev.rd (RAS_SHELF_SPARE pkg) = (5888 - (r + 1)) % 2 ^ 16 ∧ t.dev.rd (RAS_SHELF_RELOCATED pkg) = min 65535 (d.rd (RAS_SHELF_RELOCATED pkg) + (stripes.length - bad.length)) ∧
          t.dev.tdm.reports = d.tdm.reports ++ [⟨12, 2, 4, 0, 0, pkg, 0⟩] ∧ t.dev.fe = d.fe)) ∧
    (let v := d.svcState
     let paired := d.twState = 2 ∨ d.twState = 3 ∨ d.twState = 4
     let answers := fun (t : State) (req n : Nat) => t.dev.rd RAS_MAINT_CTRL_REQ = req ∧ t.dev.rd RAS_MAINT_CTRL_STATUS = n
     let kept := fun (t : State) => RegsKept d t.dev [RAS_MAINT_CTRL_REQ.reg] ∧ regsOnly t
     (s.ready → (v = 3 ∨ (v = 0 ∧ paired) → Gives .maintenanceEntry s fun t => answers t 0 14 ∧ kept t) ∧ (v = 1 ∨ v = 2 → Gives .maintenanceEntry s fun t => answers t 1 0 ∧ kept t) ∧
       (v = 0 → ¬paired → Gives .maintenanceEntry s fun t => answers t 1 0 ∧ t.dev.svcState = 1 ∧ t.dev.rd RAS_MAINT_CTRL_SAVED = d.rd FE_FUNC_CTRL_EN ∧ t.dev.rd FE_FUNC_CTRL_EN = d.rd FE_FUNC_CTRL_EN / 64 * 64 ∧
         (∀ f, f < 6 → d.rd FE_FUNC_CTRL_EN / 2 ^ f % 2 = 1 → d.funcState f = 0 → d.fe.ops = [] → t.dev.funcState f = 2)) ∧
       (v = 0 ∨ v = 3 → Gives .maintenanceExit s fun t => answers t 0 0 ∧ kept t) ∧
       (v = 1 ∨ v = 2 → d.ras.test ≠ none → Gives .maintenanceExit s fun t => answers t 0 0 ∧ t.dev.svcState = 3 ∧ t.dev.rd FE_FUNC_CTRL_EN = d.rd FE_FUNC_CTRL_EN) ∧
       (v = 1 ∨ v = 2 → d.ras.test = none → d.pool.cmd = none → Gives .maintenanceExit s fun t => answers t 0 0 ∧ t.dev.svcState = 0 ∧ t.dev.rd FE_FUNC_CTRL_EN = d.rd RAS_MAINT_CTRL_SAVED ∧
         ∀ f, f < 6 → t.dev.funcState f = if d.rd RAS_MAINT_CTRL_SAVED / 2 ^ f % 2 = 1 then 0 else d.funcState f)) ∧
     (let calm := v = 1 ∧ (∀ f, f < 6 → d.funcState f = 2) ∧ d.tiles.slot = [] ∧ d.ras.test = none ∧ d.pool.cmd = none
      (calm → Gives .maintenanceReached s fun t => t.dev.svcState = 2 ∧ RegsKept d t.dev [RAS_SUMMARY_SVC_STATE.reg] ∧ regsOnly t) ∧ (¬calm → GivesDev .maintenanceReached s d))) ∧
    (s.ready → ∀ x, x < 2 ^ 16 →
      let die := x / 2 ^ 8
      let q := x / 16 % 16 * 14 + x % 16
      let tile := die ≤ 3 ∧ x / 16 % 16 ≤ 11 ∧ x % 16 ≤ 13
      let result := fun (t : State) (st op target : Nat) => t.dev.rd RAS_TEST_RESULT_STATUS = st ∧ t.dev.rd RAS_TEST_RESULT_OP = op ∧ t.dev.rd RAS_TEST_RESULT_TARGET = target ∧ t.dev.rd RAS_TEST_RESULT_FAILED = 0 ∧ t.dev.rd RAS_TEST_RESULT_DONE = 1
      let cs := [((1, x), Instr.testTile x), ((2, 0), .testTileAll), ((3, x), .testCore x), ((4, 0), .shelfScan)]
      let ends := fun (c : Instr) (op target st : Nat) => Gives c s fun t => result t st op target ∧ t.dev.rd RAS_TEST_CMD_GO = 0 ∧ t.dev.ras.test = none ∧ t.dev.tiles = d.tiles ∧ (∀ a, t.dev.agentState a = d.agentState a)
      let starts := fun (t : State) (op target : Nat) => t.dev.rd RAS_TEST_CMD_GO = 1 ∧ t.dev.rd RAS_TEST_CMD_OP = op ∧ t.dev.rd RAS_TEST_CMD_TARGET = target ∧ t.dev.ras.test = some (op, target)
      (∀ y, d.ras.test = some y → ∀ c ∈ cs, Gives c.2 s fun t => result t 14 c.1.1 c.1.2 ∧ t.dev.ras = d.ras ∧ RegsKept d t.dev [RAS_TEST_RESULT_DONE.reg] ∧ regsOnly t) ∧
      (d.ras.test = none → d.svcState ≠ 3 →
        (¬tile → ends (.testTile x) 1 x 1) ∧ (tile → d.pts die q = 0 → ends (.testTile x) 1 x 1) ∧ (tile → d.pts die q = 3 → ends (.testTile x) 1 x 14) ∧
        (tile → d.pts die q = 1 → d.tilesIn die 2 = [] → ends (.testTile x) 1 x 14) ∧
        (tile → d.pts die q = 1 → d.tilesIn die 2 ≠ [] → d.svcState ≠ 2 → Gives (.testTile x) s fun t => starts t 1 x ∧ t.dev.tiles.mark = d.tiles.mark ++ [die * 192 + q] ∧ t.dev.pts die q = 1) ∧
        (tile → d.pts die q = 2 → Gives (.testTile x) s fun t => starts t 1 x ∧ t.dev.pts die q = 3 ∧ getKey t.dev.tiles.testing (die * 192 + q) = some d.now) ∧
        (d.svcState ≠ 2 → ends .testTileAll 2 0 14) ∧ (∀ i, i < 4 → d.tilesIn i 2 = [] → ends .testTileAll 2 0 14) ∧
        (d.svcState = 2 → (∀ i, i < 4 → d.tilesIn i 2 ≠ []) → Gives .testTileAll s fun t => starts t 2 0 ∧ ∀ a b, a < 4 → b < 168 → t.dev.pts a b = (if d.pts a b = 2 then 3 else d.pts a b) ∧
          (d.pts a b = 1 ∨ d.pts a b = 2 → getKey t.dev.tiles.testing (a * 192 + b) = some d.now)) ∧
        (1 < x / 16 ∨ 8 < x % 16 → ends (.testCore x) 3 x 1) ∧ (x / 16 ≤ 1 → x % 16 ≤ 8 → d.agentState x ≠ 0 → ends (.testCore x) 3 x 14) ∧
        (x / 16 ≤ 1 → x % 16 ≤ 8 → d.agentState x = 0 → Gives (.testCore x) s fun t => starts t 3 x ∧ t.dev.agentState x = 1) ∧
        Gives .shelfScan s fun t => starts t 4 0 ∧ RegsKept d t.dev [RAS_TEST_CMD_GO.reg] ∧ t = { s with dev := { d with regs := t.dev.regs, ras := { d.ras with test := some (4, 0) } } })) ∧
    (∀ failed unit, (d.ras.test = none → GivesDev (.testCommandComplete failed unit) s d) ∧
      (∀ op x, d.ras.test = some (op, x) → x < 2 ^ 16 → op < 16 →
        let k := x / 2 ^ 8 * 192 + x / 16 % 16 * 14 + x % 16
        let over_ := (op = 1 → k ∉ d.tiles.mark ∧ ∀ y ∈ d.tiles.testing, y.1 ≠ k) ∧ (op = 2 → d.tiles.testing = []) ∧ (op = 3 → d.agentState x = 0 ∧ (x / 16, x % 16) ∉ d.cores.testing)
        (¬over_ → GivesDev (.testCommandComplete failed unit) s d) ∧
        (over_ → d.svcState ≠ 3 → Gives (.testCommandComplete failed unit) s fun t => t.dev.rd RAS_TEST_RESULT_STATUS = 0 ∧ t.dev.rd RAS_TEST_RESULT_OP = op ∧ t.dev.rd RAS_TEST_RESULT_TARGET = x ∧
          t.dev.rd RAS_TEST_RESULT_FAILED = failed % 2 ^ 16 ∧ t.dev.rd RAS_TEST_RESULT_UNIT = unit % 16 ∧ t.dev.rd RAS_TEST_RESULT_DONE = 1 ∧ t.dev.rd RAS_TEST_CMD_GO = 0 ∧ t.dev.ras = { d.ras with test := none } ∧
          RegsKept d t.dev [RAS_TEST_RESULT_DONE.reg, RAS_TEST_CMD_GO.reg])))

/-- A report becomes a record of the next SEQ with its class's snapshot, and one of severity CONTAINED or FATAL raises vector 0; a repeat of its class's last record, still held, adds 1 to REPEAT and REPEATS instead. Reports of one cycle are taken in ascending class. A full buffer takes a record only over the lowest severity's lowest SEQ, of no higher severity and never FATAL; else DROPPED counts. The oldest buffered record drains into the lowest free slot, or over a victim; one that TDM_ACK covered is gone. TDM_ACK zeroes the covered slots and marks the covered buffered records. TDM_OPEN is refused in BLANK and END. A write of 1 to TDM_DUMP.VALID releases the dump and the Shelf copies. A dump completes in the dump area unless an accelerator die was lost, and in Shelf unless both control dies are; a handler that stops is followed by the next lowest firmware core that answers. A snapshot slot reads its register; it is absent where all its dies are away or no register lies. -/
def Obligations.TidemarkRecordsSpillAndDump : Prop :=
  (∀ (d : Dev) (cls i src : Nat), i < 10 → cls < 16 → d.rd (TDM_SNAPSEL_IDX cls i) = 0 →
    let off := d.rd (TDM_SNAPSEL_BLOCK cls i) * 2 ^ 24 + d.rd (TDM_SNAPSEL_OFFSET cls i)
    ((regMapAt off).isNone = true → d.snapSlot cls i src = none) ∧
    ((∀ die ∈ slotDies off, d.rd (NRW_DIE_STATE die) ∈ [4, 6, 7]) → d.snapSlot cls i src = none) ∧
    (off % 8 = 0 → (regMapAt off).isSome = true → (∃ die ∈ slotDies off, d.rd (NRW_DIE_STATE die) ∉ [4, 6, 7]) → d.discStopped = false → d.snapSlot cls i src = some (d.readReg off))) ∧
  ∀ (s : State),
    let d := s.dev
    let m := d.tdm
    let seq := d.rd TDM_SEQ_SEQ
    let isLast := fun (p : TReport) (r : TRec) => getKey m.last p.cls = some r.seq ∧ r.cls = p.cls ∧ r.event = p.event ∧ r.sev = p.sev ∧ r.source = p.source ∧ r.arg0 = p.arg0 ∧ r.repeats < 65535
    let lowest := fun (l : List TRec) (v : TRec) => v ∈ l ∧ ∀ r ∈ l, v.sev < r.sev ∨ (v.sev = r.sev ∧ v.seq ≤ r.seq)
    let slot := fun (t : State) (i k : Nat) => sget (fun _ => 0) t.dev.pool.hbm (spillBase + 128 * i + k)
    (s.dev.live = true → GivesDev (.tidemarkReport 0) s d ∧
      (∀ p rest, m.reports = p :: rest →
        let e : Dev := { d with tdm := { m with reports := rest } }
        let e := e.wr TDM_SEQ_SEQ (seq + 1)
        let snap := e.snapshot p.cls p.source
        let isRec := fun (x : TRec) => x.seq = seq + 1 ∧ x.cls = p.cls ∧ x.sev = p.sev ∧ x.event = p.event ∧ x.repeats = 0 ∧ x.source = p.source ∧ x.arg0 = p.arg0 ∧ x.arg1 = p.arg1 ∧ x.arg2 = p.arg2 ∧ x.freed = false ∧
          x.snap = snap.map (fun o => o.getD 0) ∧ ∀ i, i < snap.length → i < 10 → (x.absent.getLsbD i = true ↔ snap.getD i none = none)
        let fresh := (∀ r ∈ m.buffer, ¬isLast p r) ∧ ∀ x ∈ m.spill, ¬isLast p x.2
        (fresh → m.buffer.length < 2048 → Gives (.tidemarkReport 1) s fun t => ∃ x, isRec x ∧ t.dev.tdm.buffer = m.buffer ++ [x] ∧ t.dev.tdm.reports = rest ∧ t.dev.tdm.spill = m.spill ∧ getKey t.dev.tdm.last p.cls = some (seq + 1) ∧
          t.dev.rd TDM_SEQ_SEQ = (seq + 1) % 2 ^ 64 ∧ RegsKept d t.dev [TDM_SEQ_SEQ.reg] ∧ t.dev.pool = d.pool ∧ t.dev.nv = d.nv ∧ (p.sev < 2 → t.dev.out = d.out) ∧
          (2 ≤ p.sev → t.dev.out = if ¬d.mute ∧ d.straitUp ∧ (d.rd STR_CTRL_HOLDOFF = 0 ∨ ∀ h ∈ d.str.holdoff, h.1 ≠ 0) then d.out ++ [.int 0] else d.out)) ∧
        (∀ v, fresh → 2048 ≤ m.buffer.length → lowest m.buffer v →
          (v.sev ≤ p.sev → v.sev < 3 → Gives (.tidemarkReport 1) s fun t => ∃ x, isRec x ∧ t.dev.tdm.buffer = m.buffer.filter (·.seq != v.seq) ++ [x] ∧ t.dev.rd TDM_STATUS_DROPPED = d.rd TDM_STATUS_DROPPED) ∧
          (p.sev < v.sev ∨ 3 ≤ v.sev → Gives (.tidemarkReport 1) s fun t => t.dev.tdm.buffer = m.buffer ∧ t.dev.rd TDM_STATUS_DROPPED = min 1023 (d.rd TDM_STATUS_DROPPED + 1) ∧ t.dev.rd TDM_SEQ_SEQ = (seq + 1) % 2 ^ 64)) ∧
        (∀ r ∈ m.buffer, isLast p r → Gives (.tidemarkReport 1) s fun t => t.dev.tdm = { m with reports := rest, buffer := m.buffer.map fun x => if x.seq = r.seq then { x with repeats := x.repeats + 1 } else x } ∧
          t.dev.rd TDM_STATUS_REPEATS = min (2 ^ 32 - 1) (d.rd TDM_STATUS_REPEATS + 1) ∧ RegsKept d t.dev [TDM_STATUS_REPEATS.reg] ∧ t = { s with dev := { d with regs := t.dev.regs, tdm := t.dev.tdm } }) ∧
        (∀ x ∈ m.spill, (∀ r ∈ m.buffer, ¬isLast p r) → isLast p x.2 → (∀ y ∈ m.spill, isLast p y.2 → y = x) → Gives (.tidemarkReport 1) s fun t => (x.1, { x.2 with repeats := x.2.repeats + 1 }) ∈ t.dev.tdm.spill ∧
          (∀ y, y.1 ≠ x.1 → (y ∈ t.dev.tdm.spill ↔ y ∈ m.spill)) ∧ t.dev.tdm.buffer = m.buffer ∧ t.dev.rd TDM_SEQ_SEQ = seq ∧ t.dev.rd TDM_STATUS_REPEATS = min (2 ^ 32 - 1) (d.rd TDM_STATUS_REPEATS + 1) ∧
          ∀ k, k < 128 → slot t x.1 k = ({ x.2 with repeats := x.2.repeats + 1 } : TRec).bytes.getD k 0)) ∧
      (∀ p q, m.reports = [q, p] → m.buffer = [] → m.spill = [] → (p.cls < q.cls → Gives (.tidemarkReport 2) s fun t => t.dev.tdm.buffer.map (fun r => (r.seq, r.cls)) = [(seq + 1, p.cls), ((seq + 1) % 2 ^ 64 + 1, q.cls)]) ∧
        (p = q → Gives (.tidemarkReport 2) s fun t => t.dev.tdm.buffer.map (fun r => (r.seq, r.cls, r.repeats)) = [(seq + 1, p.cls, 1)])) ∧
      (m.spillReady = false ∨ m.buffer = [] → GivesDev .spillDrain s d) ∧
      (∀ r rest, m.spillReady = true → m.buffer = r :: rest → m.spill.Pairwise (fun x y => x.1 < y.1) →
        let drained := fun (t : State) (i : Nat) => (∀ y, y ∈ t.dev.tdm.spill ↔ y = (i, r) ∨ (y ∈ m.spill ∧ y.1 ≠ i)) ∧ t.dev.tdm.buffer = rest ∧ (∀ k, k < 128 → slot t i k = r.bytes.getD k 0) ∧
          (∀ a, a < spillBase + 128 * i ∨ spillBase + 128 * i + 128 ≤ a → sget (fun _ => 0) t.dev.pool.hbm a = sget (fun _ => 0) d.pool.hbm a) ∧ t.dev.rd TDM_STATUS_DROPPED = d.rd TDM_STATUS_DROPPED ∧
          RegsKept d t.dev [TDM_STATUS_USED.reg] ∧ t = { s with dev := { d with regs := t.dev.regs, tdm := t.dev.tdm, pool := t.dev.pool } }
        (r.freed = true → Gives .spillDrain s fun t => t = { s with dev := { d with tdm := { m with buffer := rest } } }) ∧
        (∀ i, r.freed = false → i < 524288 → (∀ y ∈ m.spill, y.1 ≠ i) → (∀ j, j < i → ∃ y ∈ m.spill, y.1 = j) →
          Gives .spillDrain s fun t => drained t i ∧ t.dev.rd TDM_STATUS_USED = (m.spill.length + 1) % 2 ^ 20 ∧ (t.dev.rd TDM_STATUS_FULL = 1 ↔ 524288 ≤ m.spill.length + 1)) ∧
        (∀ x ∈ m.spill, r.freed = false → (∀ j, j < 524288 → ∃ y ∈ m.spill, y.1 = j) → (m.spill.map fun y => y.2.seq).Nodup → lowest (m.spill.map (·.2)) x.2 →
          (x.2.sev ≤ r.sev → x.2.sev < 3 → Gives .spillDrain s fun t => drained t x.1) ∧
          (r.sev < x.2.sev ∨ 3 ≤ x.2.sev → Gives .spillDrain s fun t => t.dev.tdm = { m with buffer := rest } ∧ t.dev.rd TDM_STATUS_DROPPED = min 1023 (d.rd TDM_STATUS_DROPPED + 1) ∧ t.dev.pool = d.pool))) ∧
      (m.dump = none ∨ (∃ p, m.dump = some p ∧ p.complete = true) → GivesDev .dumpComplete s d ∧ GivesDev .dumpHandlerFailure s d) ∧
      (∀ p, m.dump = some p → p.complete = false →
        let both := 4 ∈ d.ras.lostDies ∧ 5 ∈ d.ras.lostDies
        let made := fun (t : State) (o : Option Dump) => ∃ q, o = some q ∧ q.complete = true ∧ q.seq = p.seq ∧ q.time = p.time ∧ q.agent = p.agent ∧ q.cause = p.cause ∧ q.die = p.die ∧ q.second = p.second ∧ 128 ≤ q.len ∧ q.len < 2 ^ 30 ∧
          t.dev.tdm.buffer = m.buffer ∧ t.dev.tdm.spill = m.spill
        (4 ≤ p.die → Gives .dumpComplete s fun t => made t t.dev.tdm.dump ∧ (¬both → t.dev.tdm.shelfDump = t.dev.tdm.dump) ∧ (both → t.dev.tdm.shelfDump = m.shelfDump) ∧ t.dev.rd TDM_DUMP_VALID = 1 ∧ t.dev.rd TDM_DUMP_STATE = 2 ∧
          t.dev.rd TDM_DUMP_SOURCE = 0 ∧ (∀ q, t.dev.tdm.dump = some q → t.dev.rd TDM_DUMP_LEN_LENGTH = q.len) ∧ (∀ k, k < 8 → sget (fun _ => 0) t.dev.pool.hbm (dumpBase + k) = [0x50, 0x4D, 0x44, 0x54, 1, 0, if p.second then 5 else 1, 0].getD k 0) ∧
          RegsKept d t.dev [TDM_DUMP_VALID.reg, TDM_DUMP_LEN_LENGTH.reg]) ∧
        (p.die < 4 → Gives .dumpComplete s fun t => t.dev.tdm.dump = none ∧ (¬both → made t t.dev.tdm.shelfDump) ∧ (both → t.dev.tdm.shelfDump = m.shelfDump) ∧ t.dev.rd TDM_DUMP_STATE = (if both then 0 else 4) ∧ t.dev.pool = d.pool ∧
          RegsKept d t.dev [TDM_DUMP_STATE.reg]) ∧
        (let cur := p.handler.getD (d.fwWorking.headD 0)
         (∀ f ∈ d.fwWorking, cur < f → (∀ h ∈ d.fwWorking, cur < h → f ≤ h) → GivesDev .dumpHandlerFailure s { d with tdm := { m with dump := some { p with handler := some f } } }) ∧
         ((∀ f ∈ d.fwWorking, f ≤ cur) → GivesDev .dumpHandlerFailure s { d with tdm := { m with dump := none } })))) ∧
    (s.ready → (m.spill.map (·.1)).Nodup → ∀ fatal n, n < 2 ^ 63 →
      let covered := fun (r : TRec) => r.seq ≤ n ∧ (r.sev < 3 ∨ fatal = true)
      Gives (.tdmAck fatal n) s fun t => (∀ x, x ∈ t.dev.tdm.spill ↔ x ∈ m.spill ∧ ¬covered x.2) ∧ (∀ x ∈ m.spill, covered x.2 → ∀ k, k < 128 → slot t x.1 k = 0) ∧ t.dev.tdm.buffer.length = m.buffer.length ∧
        (∀ i, i < m.buffer.length → ∀ r, m.buffer[i]? = some r → ∃ r', t.dev.tdm.buffer[i]? = some r' ∧ r'.seq = r.seq ∧ (r'.freed = true ↔ r.freed = true ∨ covered r)) ∧
        t.dev.rd TDM_STATUS_USED = t.dev.tdm.spill.length % 2 ^ 20 ∧ t.dev.rd TDM_SEQ_SEQ = seq ∧ RegsKept d t.dev [TDM_STATUS_USED.reg] ∧ t = { s with dev := { d with regs := t.dev.regs, tdm := t.dev.tdm, pool := t.dev.pool } }) ∧
    (s.runs → ∀ dump spill, let lc := d.rd SEC_LC_STATE_STATE
      ((lc = 0 ∨ lc = 5) → Gives (.tdmOpen dump spill) s fun t => t.dev.rd TDM_OPEN_STATUS = 13 ∧ t.dev.rd TDM_OPEN_DUMP = d.rd TDM_OPEN_DUMP ∧ t.dev.rd TDM_OPEN_SPILL = d.rd TDM_OPEN_SPILL ∧ RegsKept d t.dev [TDM_OPEN_DUMP.reg] ∧
        t = { s with dev := { d with regs := t.dev.regs, tdm := { m with reports := m.reports ++ [⟨15, 0, 5, 0, 0, 0, 0⟩] } } }) ∧
      (¬(lc = 0 ∨ lc = 5) → Gives (.tdmOpen dump spill) s fun t => t.dev.rd TDM_OPEN_STATUS = 0 ∧ t.dev.rd TDM_OPEN_DUMP = dump.toNat ∧ t.dev.rd TDM_OPEN_SPILL = spill.toNat ∧ RegsKept d t.dev [TDM_OPEN_DUMP.reg] ∧ t = { s with dev := { d with regs := t.dev.regs } })) ∧
    (s.ready → (d.rd TDM_DUMP_VALID = 0 → GivesDev .dumpRelease s d) ∧
      (d.rd TDM_DUMP_VALID = 1 → Gives .dumpRelease s fun t => t.dev.rd TDM_DUMP_VALID = 0 ∧ t.dev.rd TDM_DUMP_STATE = 0 ∧ t.dev.rd TDM_DUMP_KEPT = 0 ∧ t.dev.rd TDM_DUMP_SOURCE = 0 ∧ t.dev.rd TDM_DUMP_LEN_LENGTH = 0 ∧
        RegsKept d t.dev [TDM_DUMP_VALID.reg, TDM_DUMP_LEN_LENGTH.reg] ∧ t = { s with dev := { d with regs := t.dev.regs, tdm := { m with dump := none, shelfDump := none } } }))

/-- A GO while a command runs only makes its end BUSY. Else each command starts, or ends at once: NOT_PERMITTED with a SECURITY event where the state closes it, ABORTED for a bad buffer, mask, index or count, BUSY without its gate or entropy. LC_TRANSITION starts only along Table 19.2, with its gate, and burns the intent fuse; each attempt draws a new challenge (its value free). At its end the state fuses of both dies hold the target, PROVISIONED has new keys, RMA and END have erased keys, memory, records and dumps. QUOTE writes the layout of Table 19.4 and counts QSEQ; MR_EXTEND extends with SHAKE256; a blob that verifies is staged, else refused with its REASON; PATCH_CLEAR empties the slot; ROLLBACK_ADVANCE raises both counts; CRYPTO_ERASE makes new keys and an empty directory; a certificate that checks out shows in SEC_ID_WIN. LC_ADVANCE moves BLANK to TEST and TEST to PROVISIONED. A closed TAP instruction acts as BYPASS with an event; what a TAP instruction shifts out is free. A health-test failure takes a source out of service. -/
def Obligations.SecurityCommandsAndTestAccess : Prop :=
  ∀ (s : State),
    let d := s.dev
    let lc := d.rd SEC_LC_STATE_STATE
    let paired := d.twState = 2 ∨ d.twState = 3 ∨ d.twState = 4
    let sound := d.rd SEC_ENTROPY_OK_C0 = 1 ∨ d.rd SEC_ENTROPY_OK_C1 = 1
    let reports := fun (t : State) (l : List TReport) => t.dev.tdm = { d.tdm with reports := d.tdm.reports ++ l }
    let shows := fun (t : State) (op param : Nat) => t.dev.rd SEC_CMD_OP = op ∧ t.dev.rd SEC_CMD_PARAM = param
    let ends := fun (op param st : Nat) (l : List TReport) (t : State) => shows t op param ∧ t.dev.rd SEC_CMD_GO = 0 ∧ t.dev.rd SEC_CMD_STATUS = st ∧ reports t l ∧ RegsKept d t.dev [SEC_CMD_GO.reg] ∧
      t = { s with dev := { d with regs := t.dev.regs, tdm := t.dev.tdm } }
    let begins := fun (op param : Nat) (t : State) => shows t op param ∧ t.dev.rd SEC_CMD_GO = 1 ∧ t.dev.rd SEC_CMD_STATUS = d.rd SEC_CMD_STATUS ∧ RegsKept d t.dev [SEC_CMD_GO.reg] ∧
      t = { s with dev := { d with regs := t.dev.regs, sec := { d.sec with cmd := some (op, param) } } }
    (s.ready → ∀ x, d.sec.cmd = some x → ∀ target confirm v i (mask : BitVec 16), ∀ c ∈ [Instr.lcTransition target confirm, .quote mask, .mrExtend i, .patchStage, .patchClear, .rollbackAdvance v, .cryptoErase confirm, .installCert],
      GivesDev c s { d with sec := { d.sec with busyWrite := true } }) ∧
    (s.ready → d.sec.cmd = none → d.sec.busyWrite = false →
      (∀ mask : BitVec 16, let m := mask.toNat
        let out := ends 2 m
        (lc ≠ 2 ∧ lc ≠ 3 → Gives (.quote mask) s (out 13 [⟨15, 0, 5, 0, 2, 0, 0⟩])) ∧ ((lc = 2 ∨ lc = 3) → (m = 0 ∨ d.secBuf 2048 = none) → Gives (.quote mask) s (out 1 [])) ∧
        ((lc = 2 ∨ lc = 3) → m ≠ 0 → d.secBuf 2048 ≠ none → (¬sound → Gives (.quote mask) s (out 14 [])) ∧ (sound → Gives (.quote mask) s (begins 2 m)))) ∧
      (∀ i, i < 2 ^ 16 → ((i < 5 ∨ 15 < i ∨ d.secBuf 32 = none) → Gives (.mrExtend i) s (ends 3 i 1 [])) ∧ (5 ≤ i → i ≤ 15 → d.secBuf 32 ≠ none → Gives (.mrExtend i) s (begins 3 i))) ∧
      (lc = 0 → Gives .patchStage s (ends 4 0 13 [⟨15, 0, 5, 0, 4, 0, 0⟩])) ∧ (lc ≠ 0 → paired → Gives .patchStage s (ends 4 0 14 [])) ∧
      (lc ≠ 0 → ¬paired → (d.blobAt = none → Gives .patchStage s (ends 4 0 1 [])) ∧ (d.blobAt ≠ none → Gives .patchStage s (begins 4 0))) ∧
      Gives .patchClear s (begins 5 0) ∧
      (∀ v, v < 2 ^ 16 → let bad := v ≤ d.rd SEC_LC_STATE_ROLLBACK ∨ 32 < v ∨ (∃ b, (d.sec.loaded = some b ∨ d.nv.patch = some b) ∧ fieldAt b 6 1 < v)
        (bad → Gives (.rollbackAdvance v) s (ends 6 v 1 [])) ∧ (¬bad → Gives (.rollbackAdvance v) s (begins 6 v))) ∧
      (∀ k, k < 256 → let open_ := lc = 2 ∨ lc = 3
        let free := ¬paired ∧ d.svcState = 2 ∧ d.rd FE_STATUS_LIVE_CTX = 0 ∧ sound
        let out := ends 7 (k * 256)
        (¬open_ → Gives (.cryptoErase k) s (out 13 [⟨15, 0, 7, 0, 7, 0, 0⟩])) ∧ (open_ → k ≠ 0xA5 → Gives (.cryptoErase k) s (out 1 [])) ∧ (open_ → k = 0xA5 → ¬free → Gives (.cryptoErase k) s (out 14 [])) ∧
        (open_ → k = 0xA5 → free → Gives (.cryptoErase k) s fun t => shows t 7 (k * 256) ∧ t.dev.rd SEC_CMD_GO = 1 ∧ RegsKept d t.dev [SEC_CMD_GO.reg] ∧
          t = { s with dev := { d with regs := t.dev.regs, sec := { d.sec with cmd := some (7, k * 256) }, nv := { d.nv with erasing := true } } })) ∧
      (let out := ends 8 0
       (lc ≠ 2 → Gives .installCert s (out 13 [⟨15, 0, 7, 0, 8, 0, 0⟩])) ∧ (lc = 2 → d.secBuf 3120 = none → Gives .installCert s (out 1 [])) ∧
       (∀ b, lc = 2 → d.secBuf 3120 = some b → (d.certOk b = false → Gives .installCert s (out 13 [⟨15, 0, 7, 0, 8, 0, 0⟩])) ∧ (d.certOk b = true → Gives .installCert s (begins 8 0)))) ∧
      (∀ target confirm, target < 8 → confirm < 256 →
        let gate := d.svcState = 2 ∧ (d.twState = 0 ∨ d.twState = 8)
        let toRma := (lc = 2 ∨ lc = 3) ∧ target = 4
        let toEnd := lc ≠ 0 ∧ target = 5 ∧ confirm = 0xA5
        let listed := (lc = 1 ∧ target = 2) ∨ (lc = 2 ∧ target = 3) ∨ toRma ∨ toEnd
        let param := confirm * 256 + target
        let ended := fun (st : Nat) (l : List TReport) (t : State) => shows t 1 param ∧ t.dev.rd SEC_CMD_GO = 0 ∧ t.dev.rd SEC_CMD_STATUS = st ∧ reports t l ∧ t.dev.sec = d.sec ∧ t.otp = s.otp ∧ t.dev.nv = d.nv ∧
          t.dev.rd SEC_CHALLENGE_VALUE = (Config.freeWord d.fresh).toNat ∧ RegsKept d t.dev [SEC_CMD_GO.reg, SEC_CHALLENGE_VALUE.reg]
        let c := Instr.lcTransition target confirm
        (paired → Gives c s (ended 14 [])) ∧ (¬paired → ¬listed → Gives c s (ended 13 [⟨15, 0, 7, 0, target, 0, 0⟩])) ∧ (¬paired → lc = 1 → target = 2 → ¬sound → Gives c s (ended 14 [])) ∧
        (¬paired → (toRma ∨ toEnd) → ¬gate → Gives c s (ended 14 [])) ∧ (¬paired → toRma → gate → d.secBuf 1312 = none → Gives c s (ended 1 [])) ∧
        (∀ b, ¬paired → toRma → gate → d.secBuf 1312 = some b → d.tokenOk b = false → Gives c s (ended 13 [⟨15, 0, 7, 0, 4, 0, 0⟩])) ∧
        (¬paired → ((lc = 1 ∧ target = 2 ∧ sound) ∨ (lc = 2 ∧ target = 3) ∨ (toRma ∧ gate ∧ ∃ b, d.secBuf 1312 = some b ∧ d.tokenOk b = true) ∨ (toEnd ∧ gate)) → Gives c s fun t =>
          shows t 1 param ∧ t.dev.rd SEC_CMD_GO = 1 ∧ t.dev.rd SEC_LC_STATE_INTENT = 1 ∧ t.dev.rd SEC_LC_STATE_PENDING = target ∧ t.dev.rd SEC_LC_STATE_STATE = lc ∧ t.otp = { s.otp with intent := some (BitVec.ofNat 3 target) } ∧
          t.dev.sec = { d.sec with cmd := some (1, param) } ∧ t.dev.nv = d.nv ∧ RegsKept d t.dev [SEC_CMD_GO.reg, SEC_LC_STATE_STATE.reg]))) ∧
    (let moved := fun (target : Nat) (t : State) =>
       t.otp.lc0.toNat = max (max s.otp.lc0.toNat s.otp.lc1.toNat) target ∧ t.otp.lc1 = t.otp.lc0 ∧ t.otp.intent = none ∧ t.otp.count0 = s.otp.count0 ∧ t.otp.count1 = s.otp.count1 ∧
       t.dev.rd SEC_LC_STATE_INTENT = 0 ∧ t.dev.rd SEC_LC_STATE_STATE = lc ∧ (⟨15, 0, 1, 0, target, 0, 0⟩ : TReport) ∈ t.dev.tdm.reports ∧
       (target = 2 → t.dev.nv.idKey = some d.nv.keyGen ∧ t.dev.nv.shelfKeys = some (d.nv.keyGen + 1) ∧ t.dev.nv.keyGen = d.nv.keyGen + 2 ∧ t.dev.nv.dir = [] ∧ t.dev.sec.locked = d.sec.locked) ∧ (target = 1 ∨ target = 3 → t.dev.nv = d.nv ∧ t.dev.pool = d.pool) ∧
       (target = 4 ∨ target = 5 → t.dev.sec.locked = true ∧ t.dev.nv.idKey = none ∧ t.dev.nv.shelfKeys = none ∧ t.dev.tdm.spill = [] ∧ t.dev.tdm.dump = none ∧ t.dev.tdm.shelfDump = none ∧ (∀ a, a < poolTop → t.dev.byteAt a = 0) ∧
         t.dev.nv.cert = d.nv.cert ∧ t.dev.nv.record = d.nv.record ∧ t.dev.nv.patch = (if target = 5 then none else d.nv.patch) ∧ ∀ i, i < 225 → t.dev.rd (SEC_ID_WIN_BYTES i) = 0)
     let over_ := fun (st : Nat) (t : State) => t.dev.rd SEC_CMD_GO = 0 ∧ t.dev.rd SEC_CMD_STATUS = (if d.sec.busyWrite then 14 else st) ∧ t.dev.sec.cmd = none ∧ t.dev.sec.busyWrite = false
     let a := d.rd SEC_CMD_ADDR_ADDR
     let c := Instr.secCommandComplete
     (s.runs → (d.sec.cmd = none → GivesDev c s d) ∧
       (∀ p, d.sec.cmd = some (1, p) → 2 ≤ p % 8 → p % 8 ≤ 5 → Gives c s fun t => over_ 0 t ∧ moved (p % 8) t) ∧
       (∀ mask, d.sec.cmd = some (2, mask) → mask < 2 ^ 16 → (d.secBuf 2048 = none → Gives c s fun t => over_ 1 t ∧ t.dev.sec.qseq = d.sec.qseq ∧ t.dev.pool = d.pool) ∧
         (∀ b, d.secBuf 2048 = some b →
           let body := leBytes 4 0x514F5445 ++ leBytes 2 1 ++ leBytes 1 lc ++ leBytes 1 (d.rd SEC_LC_STATE_ROLLBACK) ++ leBytes 16 d.nv.serial.toNat ++ leBytes 4 (d.rd SEC_PATCH_STATUS_VERSION) ++ leBytes 2 mask ++ leBytes 2 0 ++
             leBytes 8 d.now ++ leBytes 8 (d.sec.qseq + 1) ++ (b.drop 48).take 32 ++ ((List.range 16).filter fun i => mask / 2 ^ i % 2 = 1).flatMap fun i => (List.range 4).flatMap fun k => leBytes 8 (d.rd (SEC_MR_BYTES i k))
           let image := body ++ (List.range 1280).map (Config.signatureByte (d.nv.idKey.getD 0) (digestBytes body))
           Gives c s fun t => over_ 0 t ∧ t.dev.sec.qseq = d.sec.qseq + 1 ∧ (∀ k, k < image.length → t.dev.byteAt (a + k) = image.getD k 0) ∧ (∀ x, x < a ∨ a + image.length ≤ x → t.dev.byteAt x = d.byteAt x) ∧ t.otp = s.otp ∧ RegsKept d t.dev [SEC_CMD_GO.reg])) ∧
       (∀ i, d.sec.cmd = some (3, i) → i ≤ 15 → (d.secBuf 32 = none → Gives c s fun t => over_ 1 t ∧ RegsKept d t.dev [SEC_CMD_GO.reg]) ∧
         (∀ v, d.secBuf 32 = some v → Gives c s fun t => over_ 0 t ∧ (∀ k, k < 4 → t.dev.rd (SEC_MR_BYTES i k) = (digest256 (((List.range 4).flatMap fun k => leBytes 8 (d.rd (SEC_MR_BYTES i k))) ++ v)).toNat / 2 ^ (64 * k) % 2 ^ 64) ∧
           RegsKept d t.dev (SEC_CMD_GO.reg :: (List.range 4).map fun k => (SEC_MR_BYTES i k).reg) ∧ t = { s with dev := { d with regs := t.dev.regs, sec := t.dev.sec } })) ∧
       (∀ x, d.sec.cmd = some (4, x) → (d.blobAt = none → Gives c s fun t => over_ 1 t ∧ t.dev.nv = d.nv) ∧
         (∀ b, d.blobAt = some b → let r := d.patchReason s.otp b
           (r = 0 → Gives c s fun t => over_ 0 t ∧ t.dev.nv = { d.nv with patch := some b } ∧ t.dev.rd SEC_PATCH_STATUS_STAGED = 1 ∧ t.dev.rd SEC_PATCH_STATUS_LEVEL = fieldAt b 6 1 ∧ t.dev.rd SEC_PATCH_STATUS_REASON = 0 ∧ t.otp = s.otp) ∧
           (r ≠ 0 → Gives c s fun t => over_ 13 t ∧ t.dev.nv = d.nv ∧ t.dev.rd SEC_PATCH_STATUS_REASON = r ∧ reports t [⟨15, 0, 2, 0, 4, 0, 0⟩] ∧ t.otp = s.otp))) ∧
       (∀ x, d.sec.cmd = some (5, x) → Gives c s fun t => over_ 0 t ∧ t.dev.nv = { d.nv with patch := none } ∧ t.dev.rd SEC_PATCH_STATUS_STAGED = 0 ∧ t.dev.rd SEC_PATCH_STATUS_LEVEL = 0 ∧ t.otp = s.otp) ∧
       (∀ v, d.sec.cmd = some (6, v) → v ≤ 32 → Gives c s fun t => over_ 0 t ∧ t.dev.rd SEC_LC_STATE_ROLLBACK = v ∧ t.otp.count0 = max (max s.otp.count0 s.otp.count1) v ∧ t.otp.count1 = t.otp.count0 ∧ t.otp.lc0 = s.otp.lc0 ∧ t.dev.nv = d.nv) ∧
       (∀ x, d.sec.cmd = some (7, x) → Gives c s fun t => over_ 0 t ∧ t.dev.nv = { d.nv with keyGen := d.nv.keyGen + 1, shelfKeys := some d.nv.keyGen, dir := [], flash := [], erasing := false } ∧ reports t [⟨15, 0, 6, 0, 7, 0, 0⟩] ∧ t.otp = s.otp) ∧
       (∀ x, d.sec.cmd = some (8, x) → (d.secBuf 3120 = none → Gives c s fun t => over_ 1 t ∧ t.dev.nv = d.nv) ∧
         (∀ b, d.secBuf 3120 = some b → (d.certOk b = false → Gives c s fun t => over_ 13 t ∧ t.dev.nv = d.nv ∧ reports t [⟨15, 0, 7, 0, 8, 0, 0⟩]) ∧
           (d.certOk b = true → Gives c s fun t => over_ 0 t ∧ t.dev.nv = { d.nv with cert := some b } ∧ ∀ k, k < 390 → t.dev.rd (SEC_ID_WIN_BYTES (512 + k)) = leNat ((b.drop (8 * k)).take 8))))) ∧
     (s.dev.live = true →
       let closed := { d with sec := { d.sec with tapIr := 1 }, tdm := { d.tdm with reports := d.tdm.reports ++ [⟨15, 0, 5, 0, 0, 0, 0⟩] } }
       let ir := fun (n : Nat) => { d with sec := { d.sec with tapIr := n } }
       let shifts := fun (n : Nat) => { d with sec := { d.sec with tapIr := n }, out := d.out ++ [.tap (Config.freeWord d.fresh)], fresh := d.fresh + 1 }
       let opened := lc = 0 ∨ lc = 1 ∨ lc = 4
       GivesDev .tapBypass s (ir 1) ∧ GivesDev .tapIdcode s (shifts 0) ∧ GivesDev .tapSamplePreload s (shifts 2) ∧ (opened → GivesDev .tapExtest s (shifts 3) ∧ GivesDev .tapClamp s (ir 4) ∧ GivesDev .tapHighz s (ir 5)) ∧
       (¬opened → GivesDev .tapExtest s closed ∧ GivesDev .tapClamp s closed ∧ GivesDev .tapHighz s closed) ∧ (∀ m, GivesDev (.tapEscape m) s { d with sec := { d.sec with tapMode := m } }) ∧
       (∀ x, d.sec.cmd = some x → GivesDev .lcAdvance s d) ∧ (d.sec.cmd = none → 2 ≤ lc → GivesDev .lcAdvance s closed) ∧ (d.sec.cmd = none → lc = 1 → ¬sound → GivesDev .lcAdvance s (ir 6)) ∧
       (d.sec.cmd = none → lc = 0 ∨ (lc = 1 ∧ sound) → Gives .lcAdvance s fun t => moved (lc + 1) t ∧ t.dev.sec.tapIr = 6 ∧ t.dev.rd SEC_LC_STATE_PENDING = lc + 1) ∧
       (∀ die, die ≤ 1 → Gives (.entropyHealthFailure die) s fun t => t.dev.rd (if die = 0 then SEC_ENTROPY_OK_C0 else SEC_ENTROPY_OK_C1) = 0 ∧ t.dev.rd (if die = 0 then SEC_ENTROPY_OK_C1 else SEC_ENTROPY_OK_C0) = d.rd (if die = 0 then SEC_ENTROPY_OK_C1 else SEC_ENTROPY_OK_C0) ∧
         (let f := if die = 0 then SEC_ENTROPY_FAIL_C0 else SEC_ENTROPY_FAIL_C1
          t.dev.rd f = min 65535 (d.rd f + 1)) ∧ reports t [⟨15, 2, 4, die, 0, 0, 0⟩] ∧ RegsKept d t.dev [SEC_ENTROPY_OK_C0.reg] ∧ t = { s with dev := { d with regs := t.dev.regs, tdm := t.dev.tdm } })))

/-- A sample sets its reading, its wants and emergency as Tables 20.4 and R549 say, then DIV_WANT (the largest wanted, 8 without), CAUSE and EMERGENCY, with a POWER event for a new emergency and for a change of DIV_WANT; a trip held for its time, or an input outside 38 to 63 V, takes power off with its cause. The converters raise the rails, unless on or tripped without MOD_EN having been low; a rail that fails, a rail fault, MOD_EN falling and a lost input take power off, which keeps what survives it and the cause. A VDD_ACC fault switches its rail off and loses its die. DIVISOR_CHANGE brings the wanted divisor into force outside a RUNNING domain, and an emergency's 12 with loss of timing in one. A leak and a stale meter copy set their bit with an event. A frame updates the copy. The meter logs supply changes and cover openings (their codes are free, Config.meterEvent), overwriting the oldest of 1,024, and answers each request with data and a CRC-32 while it has supply. -/
def Obligations.PowerLimitsAndTheMeter : Prop :=
  (∀ n, (LimitKind.accDie n).temps = some (950, 1000, 1050, 1150, 100000) ∧ (LimitKind.hbmStack n).temps = some (900, 950, 1000, 1050, 100000) ∧ LimitKind.inlet.temps.map (fun x => (x.1, x.2.1)) = some (401, 451) ∧
    LimitKind.outlet.temps.map (fun x => x.2.2) = some (620, 700, 1000000) ∧ (LimitKind.ctrlDie n).temps.map (fun x => x.2.2.2) = some (1150, 100000)) ∧
  ∀ (s : State),
    let d := s.dev
    let p := d.pw
    let div := d.rd PWR_THROTTLE_DIV_NOW
    let off := fun (cause source : Nat) (pw : Power) => ({ nv := { d.nv with offCause := cause, offSource := source }, fresh := d.fresh, out := d.out, tdm := { shelfDump := d.tdm.shelfDump }, pw := pw } : Dev)
    let rest : Power := { modEn := p.modEn, inputOk := p.inputOk, tripped := p.tripped, modEnLowSince := p.modEnLowSince }
    let tripOff := fun (cause source : Nat) => off cause source { rest with tripped := true, modEnLowSince := none }
    let shown := fun (t : State) (k : LimitKind) (r : Nat) (own : List Nat) (want : Nat → Prop) (em : Prop) =>
      (∀ w : LimitKind × Nat, w ∈ t.dev.pw.wants ↔ (if w.1 = k ∧ w.2 ∈ own then want w.2 else w ∈ p.wants)) ∧ (∀ e, e ∈ t.dev.pw.emergencies ↔ (if e = k then em else e ∈ p.emergencies)) ∧
      8 ≤ t.dev.rd PWR_THROTTLE_DIV_WANT ∧ (∀ w ∈ t.dev.pw.wants, w.2 ≤ t.dev.rd PWR_THROTTLE_DIV_WANT) ∧ (t.dev.rd PWR_THROTTLE_DIV_WANT = 8 ∨ ∃ w ∈ t.dev.pw.wants, w.2 = t.dev.rd PWR_THROTTLE_DIV_WANT) ∧
      (t.dev.rd PWR_THROTTLE_DIV_WANT ≠ d.rd PWR_THROTTLE_DIV_WANT → (⟨14, 0, 1, k.source, r, div, 0⟩ : TReport) ∈ t.dev.tdm.reports) ∧ (em → k ∉ p.emergencies → (⟨14, 2, 2, k.source, r, div, 0⟩ : TReport) ∈ t.dev.tdm.reports ∧ t.dev.rd PWR_THROTTLE_EMERGENCY = 1) ∧
      (¬em → p.emergencies = [] → t.dev.rd PWR_THROTTLE_EMERGENCY = if p.emergencyClear + 100000 ≤ d.now then 0 else d.rd PWR_THROTTLE_EMERGENCY) ∧
      (∀ b, b < 8 → (t.dev.rd PWR_THROTTLE_CAUSE / 2 ^ b % 2 = 1 ↔ ∃ x, (x ∈ t.dev.pw.emergencies ∨ ∃ w ∈ t.dev.pw.wants, w.1 = x) ∧ x.bit = some b)) ∧
      t.dev.rd PWR_THROTTLE_DIV_NOW = div ∧ t = { s with dev := { d with regs := t.dev.regs, tdm := t.dev.tdm, pw := t.dev.pw } }
    let regs := fun (t : State) (l : List Nat) => RegsKept d t.dev (PWR_THROTTLE_CAUSE.reg :: l)
    (d.live = true → (∀ w ∈ p.wants, w.2 ≤ 12) →
      (∀ k r, LimitKind.ok k = false → GivesDev (.limitSample k r) s d) ∧ (∀ i x, 16 ≤ i → GivesDev (.stackTemperatureRead i x) s d) ∧
      (∀ k n a b e trip ticks c (x : Int), LimitKind.ok k = true → k.tempIx = some n → k.temps = some (a, b, e, trip, ticks) → c = Instr.limitSample k x ∨ (∃ i, k = .hbmStack i ∧ c = .stackTemperatureRead i x) →
        let h : Int := if k = .inlet then 51 else 50
        let held := fun (was : Prop) (y : Nat) => (y : Int) ≤ x ∨ (was ∧ ¬x ≤ (y : Int) - h)
        (x < trip ∨ (∀ y ∈ p.trips, y.1 = k → d.now < y.2 + ticks) → Gives c s fun t => t.dev.rd (PWR_TEMP_NOW n) = unsgn 16 x ∧ t.dev.rd (PWR_TEMP_MAX n) = unsgn 16 (if n ∈ p.seen then max x (sgn 16 (d.rd (PWR_TEMP_MAX n))) else x) ∧ n ∈ t.dev.pw.seen ∧
          (k = .ctrlDie (n - 4) → 1050 ≤ x → (⟨14, 2, 3, k.source, unsgn 64 x, div, 0⟩ : TReport) ∈ t.dev.tdm.reports) ∧ (x < trip → ∀ y ∈ t.dev.pw.trips, y.1 ≠ k) ∧ ((trip : Int) ≤ x → (∀ y ∈ p.trips, y.1 ≠ k) → (k, d.now) ∈ t.dev.pw.trips) ∧
          regs t [(PWR_TEMP_NOW n).reg] ∧ shown t k (unsgn 64 x) [10, 12] (fun v => held ((k, v) ∈ p.wants) (if v = 10 then a else b)) (held (k ∈ p.emergencies) e)) ∧
        ((trip : Int) ≤ x → ∀ y ∈ p.trips, (∀ z ∈ p.trips, z.1 = k → z = y) → y.1 = k → y.2 + ticks ≤ d.now → GivesDev c s (tripOff k.trip.1 k.trip.2))) ∧
      (∀ x : Nat,
        let means := (x :: p.means).take 15
        let low := if x < d.rd PWR_CAP_LOW_W then p.belowLow + 1 else 0
        Gives (.limitSample .power1ms x) s fun t => t.dev.rd PWR_INPUT_POWER_1MS = min x 65535 ∧ t.dev.pw.means = means ∧ t.dev.pw.belowLow = low ∧ regs t [PWR_INPUT_POWER_1MS.reg] ∧ shown t .power1ms x [10, 12] (fun v => ((.power1ms, v) ∈ p.wants ∧ low < d.rd PWR_CAP_LOWER_MS) ∨
          (v = 10 ∧ 10 ≤ means.length ∧ 10 * d.rd PWR_CAP_CAP_W < (means.take 10).sum) ∨ (v = 12 ∧ means.length = 15 ∧ ∀ m ∈ means, d.rd PWR_CAP_CAP_W < m)) (.power1ms ∈ p.emergencies)) ∧
      (∀ x : Nat, Gives (.limitSample .power100us x) s fun t => t.dev.rd PWR_INPUT_POWER_100US = min x 65535 ∧ regs t [PWR_INPUT_POWER_100US.reg] ∧ shown t .power100us x [] (fun _ => False) (4100 < x)) ∧
      (∀ x : Nat, let amps := (x :: p.amps).take 10
        (x ≤ 130000 ∨ (∀ y ∈ p.trips, y.1 = .current → d.now < y.2 + 100000) → Gives (.limitSample .current x) s fun t => t.dev.rd PWR_INPUT_CURRENT = min (amps.sum / amps.length / 10) 65535 ∧ t.dev.pw.amps = amps ∧ regs t [PWR_INPUT_CURRENT.reg] ∧
          shown t .current x [] (fun _ => False) (110000 < x)) ∧
        (130000 < x → ∀ y ∈ p.trips, (∀ z ∈ p.trips, z.1 = .current → z = y) → y.1 = .current → y.2 + 100000 ≤ d.now → GivesDev (.limitSample .current x) s (tripOff 7 0xFF))) ∧
      (∀ x : Nat, (x < 38000 → GivesDev (.limitSample .voltage x) s (off 1 0xFF { rest with inputOk := false })) ∧ (63000 < x → GivesDev (.limitSample .voltage x) s (off 2 0xFF { rest with inputOk := false })) ∧
        (38000 ≤ x → x ≤ 63000 → Gives (.limitSample .voltage x) s fun t => t.dev.rd PWR_INPUT_VOLTAGE = x / 10 ∧ (t.dev.rd PWR_STATUS_INPUT_LOW = 1 ↔ x < 42000) ∧ regs t [PWR_INPUT_VOLTAGE.reg, PWR_STATUS_INPUT_LOW.reg] ∧
          shown t .voltage x [10] (fun _ => x < 42000 ∨ ((.voltage, 10) ∈ p.wants ∧ x < 43000)) (.voltage ∈ p.emergencies)))) ∧
    (∀ o, p.on = true ∨ (p.tripped = true ∧ p.modEnLowSince = none) → GivesDev (.converterStart o) s d) ∧
    (p.on = false → p.tripped = false ∨ p.modEnLowSince ≠ none →
      GivesDev (.converterStart none) s { d with pw := { p with on := true, rails := List.range 13, modEn := true, inputOk := true, tripped := false, modEnLowSince := none }, nrw := { d.nrw with clocksRun := false } } ∧
      ∀ r, r < 13 → GivesDev (.converterStart (some r)) s (off 5 r { modEn := true, inputOk := true })) ∧
    (p.on = true → (Gives .modEnFall s fun t => ∃ x, t = { s with dev := off 6 0xFF { rest with modEn := false, modEnLowSince := some x } }) ∧ GivesDev .inputLoss s (off 0 0xFF { rest with inputOk := false })) ∧
    (p.on = false → GivesDev .modEnFall s { d with pw := { p with modEn := false, modEnLowSince := some d.now } } ∧ GivesDev .inputLoss s { d with pw := { p with inputOk := false } }) ∧
    (∀ r, (p.on = true → r < 13 → r < 4 ∨ 7 < r → GivesDev (.railFault r) s (off 5 r rest)) ∧ (p.on = false ∨ 13 ≤ r ∨ (4 ≤ r ∧ r ≤ 7) → GivesDev (.railFault r) s d)) ∧
    (d.live = true →
      (∀ die, (4 ≤ die ∨ die + 4 ∉ p.rails → GivesDev (.vddAccFault die) s d) ∧
        (die < 4 → die + 4 ∈ p.rails → die ∉ d.ras.lostDies → Gives (.vddAccFault die) s fun t => t.dev.pw.rails = p.rails.filter (· != die + 4) ∧ t.dev.rd PWR_STATUS_RAILS_OK = 0 ∧ t.dev.rd (NRW_DIE_STATE die) = 6 ∧
          t.dev.ras.lostDies = d.ras.lostDies ++ [die] ∧ (⟨14, 3, 6, die + 1, 0, div, 0⟩ : TReport) ∈ t.dev.tdm.reports ∧ (⟨10, 3, 7, 16 + die, 0, 0, 0⟩ : TReport) ∈ t.dev.tdm.reports)) ∧
      (Gives .leak s fun t => t.dev.rd PWR_STATUS_LEAK = 1 ∧ t.dev.tdm = { d.tdm with reports := d.tdm.reports ++ [⟨14, 2, 5, 34, 0, div, 0⟩] } ∧ (∀ f ∈ [PWR_STATUS_METER_STALE, PWR_STATUS_INPUT_LOW, PWR_STATUS_RAILS_OK], t.dev.rd f = d.rd f) ∧ RegsKept d t.dev [PWR_STATUS_LEAK.reg] ∧
        t = { s with dev := { d with regs := t.dev.regs, tdm := t.dev.tdm } }) ∧
      (Gives .meterStale s fun t => t.dev.rd PWR_STATUS_METER_STALE = 1 ∧ t.dev.tdm = { d.tdm with reports := d.tdm.reports ++ [⟨14, 2, 4, 40, 0, div, 0⟩] } ∧ (∀ f ∈ [PWR_STATUS_LEAK, PWR_STATUS_INPUT_LOW, PWR_STATUS_RAILS_OK], t.dev.rd f = d.rd f) ∧ RegsKept d t.dev [PWR_STATUS_LEAK.reg] ∧
        t = { s with dev := { d with regs := t.dev.regs, tdm := t.dev.tdm } }) ∧
      (let v := if d.rd PWR_THROTTLE_EMERGENCY = 1 then 12 else d.rd PWR_THROTTLE_DIV_WANT
       let runs := d.rd NFP_DOM_STATUS_STATE = 4
       let emNew := d.rd PWR_THROTTLE_EMERGENCY = 1 ∧ div ≠ 12
       (¬runs → v = div → GivesDev .divisorChange s d) ∧ (runs → ¬emNew → GivesDev .divisorChange s d) ∧
       ((¬runs ∧ v ≠ div) ∨ (runs ∧ emNew) → Gives .divisorChange s fun t => t.dev.rd PWR_THROTTLE_DIV_NOW = v ∧ t.dev.rd NFP_DOM_STATUS_DIV_NOW = v % 2 ^ 4 ∧ t.dev.rd PWR_THROTTLE_SWITCHES = min (2 ^ 32 - 1) (d.rd PWR_THROTTLE_SWITCHES + 1) ∧
         t.dev.rd PWR_THROTTLE_DIV_WANT = d.rd PWR_THROTTLE_DIV_WANT ∧ (runs → t.dev.rd NFP_DOM_STATUS_TD_OK = 0 ∧ t.dev.rd NFP_DOM_STATUS_TD_CAUSE = 4) ∧ (¬runs → t.dev.rd NFP_DOM_STATUS_TD_OK = d.rd NFP_DOM_STATUS_TD_OK) ∧
         RegsKept d t.dev [PWR_THROTTLE_DIV_NOW.reg, NFP_DOM_STATUS_DIV_NOW.reg] ∧ t = { s with dev := { d with regs := t.dev.regs } })) ∧
      (s.meter.powered = false → GivesDev .meterFrame s d) ∧
      (s.meter.powered = true → Gives .meterFrame s fun t => t.dev.rd PWR_METER_COPY_ENERGY = s.meter.energy.toNat ∧ t.dev.rd PWR_METER_INFO_CHECKSUM = s.meter.checksum.toNat ∧ t.dev.rd PWR_METER_INFO_SERIAL = s.meter.serial.toNat ∧ t.dev.rd PWR_STATUS_METER_STALE = 0 ∧
        RegsKept d t.dev [PWR_METER_COPY_ENERGY.reg, PWR_METER_INFO_SERIAL.reg, PWR_STATUS_METER_STALE.reg] ∧ t = { s with dev := { d with regs := t.dev.regs } })) ∧
    (let m := s.meter
     let to_ := fun (c : Instr) (m' : Meter) => exec c s = .next { s with meter := m' }
     let logged : Nat → Meter := fun ev => { m with log := ((⟨m.count + 1, (Config.meterEvent ev).toNat, m.energy⟩ : MeterEntry) :: m.log).take 1024, count := m.count + 1 }
     let frame := fun (cmd res : Nat) (data : List Byte) => let body := leBytes 1 cmd ++ leBytes 1 res ++ leBytes 2 data.length ++ data
       body ++ leBytes 4 (crc32 body)
     let tells := fun (c : Instr) (cmd res : Nat) (data : List Byte) => to_ c (if m.powered = true then { m with answers := m.answers ++ [frame cmd res data] } else m)
     (∀ up, (m.powered = up → to_ (.meterSupplyChange up) m) ∧ (m.powered ≠ up → to_ (.meterSupplyChange up) { logged (if up then 0 else 1) with powered := up })) ∧
     (m.powered = true → to_ .coverOpening { logged 2 with sealed := false }) ∧ (m.powered = false → to_ .coverOpening { m with sealed := false }) ∧
     (∀ i, tells (.readEnergy i) 1 0 (leBytes 8 m.energy.toNat) ∧ tells (.readIdent i) 2 0 (leBytes 4 m.serial.toNat ++ [0x4E, 0x4C, 0x2D, 0x4D, 0x31, 0x2E, 0x30, 0x30] ++ leBytes 4 m.checksum.toNat) ∧
       (∀ e, m.log[i]? = some e → tells (.readLog i) 3 0 (leBytes 4 e.seq.toNat ++ leBytes 1 e.event ++ [0, 0, 0] ++ leBytes 8 e.energy.toNat)) ∧ (m.log.length ≤ i → tells (.readLog i) 3 2 []) ∧
       tells (.readStatus i) 4 0 (leBytes 4 m.count.toNat ++ [if m.sealed then 1 else 0, m.errors])) ∧
     (∀ x : BitVec 8, x.toNat = 0 ∨ 4 < x.toNat → tells (.meterUnknownCmd x) x.toNat 1 []))

/-- A cold reset keeps rails, reference, non-volatile memory and the Shelf dump, and starts at step 1 with every register at its reset value but what the ROM step shows. A warm reset also keeps each register field whose map says so, the dump area and spill region, Tidemark and its records, the device time and a FENCED state; no context, queue, job or launch survives; a dump in writing is PARTIAL. A warm request before READY is a cold reset unless a warm start runs, and does nothing in a failed one; in END a GLB_RESET write is refused. Shelf packages give the record, tests, patch, measurements and challenge (its value free). Training retires what is out, FAILS above 10 or with a stack lost; hard repairs mark their entries, oldest first; the fill zeroes its range and lets Tidemark drain; the directory frees OPEN entries and gives MR4. Services complete a pending transition, drain Tidemark, settle the dump and the agents. START_UP_READY sets READY and raises vector 0, or HOLDs in BLANK and END. -/
def Obligations.ResetsAndStartUp : Prop :=
  ∀ (s : State),
    let d := s.dev
    let m := d.tdm
    let lc := d.rd SEC_LC_STATE_STATE
    let step := d.rd GLB_STATUS_STEP
    let kind := d.rd GLB_STATUS_KIND
    let romShows := fun (t : State) (n : Nat) => t.dev.rd GLB_STATUS_KIND = n ∧ t.dev.rd GLB_STATUS_STEP = 1 ∧ t.dev.rd GLB_STATUS_READY = 0 ∧ t.dev.rd PWR_LAST_OFF_CAUSE = d.nv.offCause % 2 ^ 8 ∧ t.dev.rd PWR_LAST_OFF_POWER_ONS = d.nv.powerOns % 2 ^ 32 ∧
      (t.dev.rd PWR_STATUS_RAILS_OK = 1 ↔ d.pw.rails.length = 13) ∧ t.dev.rd (GLB_SERIAL_BYTES 0) = d.nv.serial.toNat % 2 ^ 64 ∧ t.dev.rd (GLB_SERIAL_BYTES 1) = d.nv.serial.toNat / 2 ^ 64
    let kept : Power := { modEn := d.pw.modEn, on := d.pw.on, pwrGood := d.pw.pwrGood, rails := d.pw.rails, inputOk := d.pw.inputOk, modEnLowSince := d.pw.modEnLowSince, tripped := d.pw.tripped }
    let romRegs := [GLB_STATUS_STEP.reg, (GLB_SERIAL_BYTES 0).reg, (GLB_SERIAL_BYTES 1).reg, PWR_LAST_OFF_CAUSE.reg, PWR_STATUS_RAILS_OK.reg, NRW_CLK_STATUS_REF_OK.reg]
    let cold := fun (t : State) => romShows t 1 ∧ t.dev.rd NRW_CLK_STATUS_REF_OK = d.rd NRW_CLK_STATUS_REF_OK ∧ (∀ off, off ∉ romRegs → t.dev.word off = regReset off) ∧
      t = { s with dev := { regs := t.dev.regs, nv := d.nv, fresh := d.fresh, out := d.out, tdm := { shelfDump := m.shelfDump }, pw := kept } }
    let warmSpecial := romRegs ++ [TDM_DUMP_STATE.reg, CTU_STATUS_ACTIVE.reg, SEC_LC_STATE_STATE.reg, TWN_STATUS_STATE.reg, TDM_STATUS_USED.reg]
    let warm := fun (t : State) => romShows t 2 ∧ t.dev.rd GLB_STATUS_WARM_COUNT = min 255 (d.rd GLB_STATUS_WARM_COUNT + 1) ∧ t.dev.now = d.now ∧ t.dev.rd TDM_SEQ_SEQ = d.rd TDM_SEQ_SEQ ∧ t.dev.lcState = lc ∧
      (d.twState = 8 ↔ t.dev.twState = 8) ∧ (∀ p, m.dump = some p → p.complete = false → t.dev.rd TDM_DUMP_STATE = 3) ∧ (m.dump = none → t.dev.rd TDM_DUMP_STATE = d.rd TDM_DUMP_STATE) ∧
      (∀ off, off ∉ warmSpecial → t.dev.word off = warmWord off (d.word off)) ∧ t.dev.fe = {} ∧ t.dev.seq = {} ∧ t.dev.thr = {} ∧ t.dev.coh = {} ∧ t.dev.cores = {} ∧ t.dev.nfp = {} ∧ t.dev.str = {} ∧ t.dev.tier = {} ∧ t.dev.twn = {} ∧ t.dev.boot = {} ∧
      t.dev.ras = {} ∧ t.dev.nv = d.nv ∧ t.dev.out = d.out ∧ t.dev.sec = { qseq := d.sec.qseq, locked := d.sec.locked } ∧ t.dev.pw = { kept with seen := d.pw.seen } ∧ t.otp = s.otp ∧ t.meter = s.meter ∧
      (∀ a, a < spillBase → sget (fun _ => 0) t.dev.pool.hbm a = 0) ∧ (m.spillReady = true → t.dev.tdm.buffer = []) ∧ t.dev.tdm.dump = m.dump ∧ t.dev.tdm.shelfDump = m.shelfDump ∧
      (m.spillReady = false ∨ m.buffer = [] → t.dev.tdm = { m with spillReady := false } ∧ ∀ a, spillBase ≤ a → sget (fun _ => 0) t.dev.pool.hbm a = sget (fun _ => 0) d.pool.hbm a)
    let failed := fun (t : State) (cause die : Nat) => t.dev.rd GLB_STATUS_STEP = 9 ∧ t.dev.rd GLB_STATUS_FAIL = cause ∧ t.dev.rd GLB_STATUS_FAIL_DIE = die ∧ t.dev.tdm.reports = m.reports ++ [⟨12, 3, 7, 0, 0, cause, die⟩] ∧ RegsKept d t.dev [GLB_STATUS_STEP.reg] ∧
      t = { s with dev := { d with regs := t.dev.regs, tdm := t.dev.tdm, out := t.dev.out, str := t.dev.str } }
    let refused : Dev := { d with tdm := { m with reports := m.reports ++ [⟨15, 0, 5, 0, 0, 0, 0⟩] } }
    let early := d.rd GLB_STATUS_READY = 0 ∧ kind ≠ 2
    (d.pw.on = true → d.pw.pwrGood = true → Gives .coldRstN s cold) ∧ (d.pw.on = false ∨ d.pw.pwrGood = false → GivesDev .coldRstN s d) ∧
    (s.runs → lc = 5 → GivesDev .resetCold s refused ∧ GivesDev .resetWarm s refused) ∧ (s.runs → lc ≠ 5 → Gives .resetCold s cold) ∧
    (∀ c, (c = Instr.warmRstN ∧ d.live = true) ∨ (c = .resetWarm ∧ s.runs ∧ lc ≠ 5) → (early → Gives c s cold) ∧ (d.rd GLB_STATUS_READY = 0 → kind = 2 → step = 9 → GivesDev c s d) ∧
      ((d.regs.map (·.1)).Nodup → d.rd GLB_STATUS_READY = 1 ∨ (kind = 2 ∧ step ≠ 9) → Gives c s warm)) ∧
    (d.live = true →
      (∀ fails, d.boot.discovered = false ∨ d.boot.shelfInit = true ∨ step = 9 → GivesDev (.shelfPackagesInitialised fails) s d) ∧
      (∀ fails, d.boot.discovered = true → d.boot.shelfInit = false → step ≠ 9 →
        let gone := d.nv.copies.all (!·) = true ∨ fails = BitVec.allOnes 16
        Gives (.shelfPackagesInitialised fails) s fun t => t.dev.boot = { d.boot with shelfInit := true, shelfFails := fails } ∧ t.otp = s.otp ∧ t.dev.nv.patch = d.nv.patch ∧ t.dev.nv.copies = [true, true] ∧ t.dev.rd GLB_STATUS_STEP = (if kind = 2 then 5 else 4) ∧
          (gone → t.dev.nv.record = [] ∧ t.dev.rd RAS_PERSIST_LOST = 1 ∧ (⟨12, 2, 5, 0, 0, 0, 0⟩ : TReport) ∈ t.dev.tdm.reports) ∧ (¬gone → t.dev.nv.record = d.nv.record ∧ t.dev.rd RAS_PERSIST_LOST = d.rd RAS_PERSIST_LOST) ∧
          t.dev.rd RAS_PERSIST_ENTRIES = t.dev.nv.record.length % 2 ^ 17 ∧ (∃ n, t.dev.rd SEC_CHALLENGE_VALUE = (Config.freeWord n).toNat ∧ d.fresh ≤ n) ∧
          (kind ≠ 2 → t.dev.cores.testing = (List.range 18).map (fun i => (i / 9, i % 9)) ∧ ∀ die q, die < 4 → q < 168 → if tileCoord die q ∈ t.dev.recorded 1 then t.dev.pts die q = 0 else t.dev.pts die q = 3 ∧ getKey t.dev.tiles.testing (die * 192 + q) = some d.now) ∧
          (kind = 2 → t.dev.cores.testing = d.cores.testing ∧ ∀ die q, die < 4 → q < 168 → t.dev.pts die q = d.pts die q ∧ (d.pts die q = 3 → getKey t.dev.tiles.testing (die * 192 + q) = some d.now)) ∧
          (d.nv.patch = none → t.dev.sec.loaded = d.sec.loaded ∧ t.dev.rd SEC_PATCH_STATUS_LOADED = d.rd SEC_PATCH_STATUS_LOADED) ∧
          (∀ b, d.nv.patch = some b → (d.patchReason s.otp b = 0 → t.dev.sec.loaded = some b ∧ t.dev.rd SEC_PATCH_STATUS_LOADED = 1 ∧ t.dev.rd SEC_PATCH_STATUS_VERSION = fieldAt b 8 4) ∧
            (d.patchReason s.otp b ≠ 0 → t.dev.sec.loaded = d.sec.loaded ∧ t.dev.rd SEC_PATCH_STATUS_REASON = d.patchReason s.otp b ∧ (⟨15, 2, 2, 0, 0, d.patchReason s.otp b, 0⟩ : TReport) ∈ t.dev.tdm.reports))) ∧
      (∀ bad lost, d.boot.discovered = false ∨ d.boot.shelfInit = false ∨ d.boot.trained = true ∨ step = 9 → GivesDev (.hbmTrainingComplete bad lost) s d) ∧
      (d.boot.discovered = true → d.boot.shelfInit = true → d.boot.trained = false → step ≠ 9 → (∀ p ∈ d.recorded 3, p < 512) → ∀ bad : List Nat,
        let out := (d.pcsIn [5] ++ d.recorded 3 ++ bad.filter (· < 512)).eraseDups
        (∀ i, i < 16 → Gives (.hbmTrainingComplete bad (some i)) s (failed · 3 (i / 4))) ∧ (10 < out.length → Gives (.hbmTrainingComplete bad none) s (failed · 3 (out.getD 10 0 / 128))) ∧
        (out.length ≤ 10 → Gives (.hbmTrainingComplete bad none) s fun t => t.dev.boot = { d.boot with trained := true } ∧ t.dev.rd GLB_STATUS_STEP = 3 ∧ t.dev.rd MEM_STATUS_RETIRED = out.length ∧ (∀ p, p < 512 → t.dev.pcState p = if p ∈ out then 5 else d.pcState p) ∧
          (∀ p ∈ out, p ∉ d.recorded 3 → d.pcState p ≠ 5 → p ∈ t.dev.recorded 3) ∧ (kind = 2 → t.dev.pool.hardRepairs = d.pool.hardRepairs) ∧ t.otp = s.otp)) ∧
      (∀ pc br, ((d.pool.hardRepairs.find? fun h => h.1 / 32 == pc / 32) ≠ some (pc, br) ∨ step = 9 → GivesDev (.hardRepairComplete pc br) s d) ∧
        ((d.pool.hardRepairs.find? fun h => h.1 / 32 == pc / 32) = some (pc, br) → step ≠ 9 → ∀ l1 e l2, let is := fun (e : BitVec 128) => e.toNat % 2 ^ 16 = 2 ∧ e.toNat / 2 ^ 16 % 2 ^ 16 = pc ∧ e.toNat / 2 ^ 32 % 2 ^ 32 = br
          d.nv.record = l1 ++ e :: l2 → is e → (∀ x ∈ l1, ¬is x) → Gives (.hardRepairComplete pc br) s fun t => t.dev.nv = { d.nv with record := l1 ++ (e ||| 0x100#128) :: l2, recordGen := d.nv.recordGen + 1 } ∧
            t.dev.pool = { d.pool with hardRepairs := d.pool.hardRepairs.erase (pc, br) } ∧ RegsKept d t.dev [RAS_PERSIST_GEN.reg] ∧ t = { s with dev := { d with regs := t.dev.regs, nv := t.dev.nv, pool := t.dev.pool } })) ∧
      (d.boot.trained = false ∨ d.boot.filled = true ∨ d.pool.hardRepairs ≠ [] ∨ step = 9 → GivesDev .poolFillComplete s d) ∧
      (d.boot.trained = true → d.boot.filled = false → d.pool.hardRepairs = [] → step ≠ 9 → let top := if kind = 2 then spillBase else poolTop
        Gives .poolFillComplete s fun t => t.dev.boot = { d.boot with filled := true } ∧ t.dev.tdm = { m with spillReady := true } ∧ t.dev.rd GLB_BOOT_TIME_HBM_MS = (d.now - d.boot.released.getD 0) / 100000 % 2 ^ 32 ∧
          (∀ a, a < top → sget (fun _ => 0) t.dev.pool.hbm a = 0) ∧ (∀ a, top ≤ a → sget (fun _ => 0) t.dev.pool.hbm a = sget (fun _ => 0) d.pool.hbm a) ∧ (∀ l, l < top / 64 → sget (fun _ => false) t.dev.pool.poison l = false) ∧ t.dev.nv = d.nv) ∧
      (d.boot.shelfInit = false ∨ d.boot.dirLoaded = true ∨ step = 9 → GivesDev .shelfDirectoryLoaded s d) ∧
      (d.boot.shelfInit = true → d.boot.dirLoaded = false → step ≠ 9 → let boot := { d.boot with dirLoaded := true }
        (lc = 0 ∨ lc = 5 → GivesDev .shelfDirectoryLoaded s { d with boot := boot }) ∧
        (¬(lc = 0 ∨ lc = 5) → Gives .shelfDirectoryLoaded s fun t => t.dev.boot = boot ∧ (∀ e ∈ t.dev.nv.dir, e.state ≠ 1) ∧ (t.dev.rd TIER_SHELF_STATUS_READY = 1 ↔ d.boot.shelfFails = 0) ∧ t.dev.nv.erasing = (d.nv.erasing && (lc == 1 || lc == 4)) ∧
          (lc = 1 ∨ lc = 4 ∨ d.nv.erasing = true → t.dev.nv.dir = [] ∧ t.dev.nv.shelfKeys = some d.nv.keyGen) ∧ (¬(lc = 1 ∨ lc = 4 ∨ d.nv.erasing = true) → t.dev.nv.shelfKeys = d.nv.shelfKeys ∧ t.dev.tdm = m) ∧
          (∀ k, k < 4 → t.dev.rd (SEC_MR_BYTES 4 k) = (digest256 (((List.range 4).flatMap fun k => leBytes 8 (d.rd (SEC_MR_BYTES 4 k))) ++ leBytes 32 t.dev.dirDigest.toNat)).toNat / 2 ^ (64 * k) % 2 ^ 64) ∧ t.otp = s.otp)) ∧
      (let due := d.boot.filled = true ∧ d.boot.dirLoaded = true ∧ d.tiles.testing = [] ∧ d.cores.testing = [] ∧ step < 6
       let serves := fun (t : State) => t.dev.rd GLB_STATUS_STEP = 6 ∧ t.dev.tdm.buffer = [] ∧ t.dev.tier.loaded = true ∧ t.dev.rd TDM_STATUS_SHADOW_OK = 1 ∧ t.dev.ctu.hasStandby = (if kind = 2 then d.ctu.hasStandby else d.rd (NRW_DIE_STATE 5) == 2) ∧
         (∀ n, n < 96 → (agentClass n = none → t.dev.rd (COH_AGENT_STATE n) = 4) ∧ (∀ c, agentClass n = some c → t.dev.rd (COH_AGENT_CLASS n) = c ∧ t.dev.agentState n = if isCluster n = false ∧ d.agentState n = 3 then 0 else d.agentState n))
       (¬due → GivesDev .servicesStart s d) ∧
       (due → s.otp.intent = none → Gives .servicesStart s fun t => serves t ∧ t.otp = s.otp ∧ (∀ p, m.dump = some p → t.dev.tdm.dump = some p ∧ t.dev.rd TDM_DUMP_VALID = 1 ∧ (p.complete = false → t.dev.rd TDM_DUMP_STATE = 3) ∧ (p.complete = true → t.dev.rd TDM_DUMP_SOURCE = 0)) ∧
         (∀ p, m.dump = none → m.shelfDump = some p → t.dev.tdm.dump = some p ∧ t.dev.rd TDM_DUMP_VALID = 1 ∧ t.dev.rd TDM_DUMP_STATE = 4 ∧ t.dev.rd TDM_DUMP_SOURCE = 1)) ∧
       (∀ x, due → s.otp.intent = some x → ¬(x = 2 ∧ d.entropyOk = false) → Gives .servicesStart s fun t => serves t ∧ t.otp.intent = none ∧ t.otp.lc0.toNat = max (max s.otp.lc0.toNat s.otp.lc1.toNat) x.toNat ∧ t.otp.lc1 = t.otp.lc0 ∧
         (x = 4 ∨ x = 5 → t.dev.nv.idKey = none ∧ t.dev.sec.locked = true)) ∧
       (due → s.otp.intent = some 2 → d.entropyOk = false → Gives .servicesStart s (failed · 6 0xFF))) ∧
      (step ≠ 6 → GivesDev .startUpReady s d) ∧
      (step = 6 → lc = 0 ∨ lc = 5 → Gives .startUpReady s fun t => t.dev.rd GLB_STATUS_STEP = 8 ∧ t.dev.rd GLB_STATUS_READY = d.rd GLB_STATUS_READY ∧ RegsKept d t.dev [GLB_STATUS_STEP.reg] ∧ t = { s with dev := { d with regs := t.dev.regs } }) ∧
      (step = 6 → lc ≠ 0 → lc ≠ 5 → Gives .startUpReady s fun t => t.dev.rd GLB_STATUS_STEP = 7 ∧ t.dev.rd GLB_STATUS_READY = 1 ∧ t.dev.rd FE_STATUS_READY = 1 ∧ t.dev.rd GLB_BOOT_TIME_READY_MS = (d.now - d.boot.released.getD 0) / 100000 % 2 ^ 32 ∧
        (d.mute = false → d.straitUp = true → d.rd STR_CTRL_HOLDOFF = 0 → t.dev.out = d.out ++ [.int 0]) ∧ RegsKept d t.dev [GLB_STATUS_STEP.reg, FE_STATUS_READY.reg, GLB_BOOT_TIME_READY_MS.reg] ∧
        t = { s with dev := { d with regs := t.dev.regs, out := t.dev.out, str := t.dev.str } }))

/-- CORE_TASK begins on the core it names, or the one picked for 0xFF, with the entry's PC, a0 and SP and counters at 0; no core behind the number is RESOURCE_LOST, C1 away TARGET_RESET. An ECALL acts by a7: ENQ appends to a device-owned queue of the context, else BUSY or HANDLE_INVALID; FSIG signals or records FRONT_END event 5; EXIT ends OK with EXIT; any other ends NOT_PERMITTED. A return ends OK, an exception ABORTED with its event. Arithmetic, LUI, JAL and branches have their RISC-V result and retire; an illegal word is an exception; a load of a line the L2 holds gives its value, a poisoned one ends POISON_CONSUMED, a missing one holds the instruction until CORE_MEMORY_RESPONSE finds the line. CBOs go to the home, CBO.ZERO zeroes an owned line. A register write outside every map does nothing, a misaligned access is an event, an early or out-of-range one is discarded; PWR_CAP takes a value in range. -/
def Obligations.CoresTasksAndRegisterWrites : Prop :=
  ∀ (s : State), s.runs →
    let d := s.dev
    let sets := fun (e : Dev) (core : Nat) (f : Core → Core) => { e with cores := { e.cores with cores := e.cores.cores.map fun x => if x.id = core then f x else x } }
    (∀ o : FeOp, s.opReady o 6 → ∀ pick, let named := entF o.entry 56 1
      let n := if named = 0xFF then pick else named
      let core := 33 * (n / 32) + ((d.physCore (n / 32) (n % 32)).getD 0)
      let away := n / 32 = 1 ∧ d.engineAway 18 = true
      let free := (cacheAgent core).any (fun a => d.agentState a == 0) = true ∧ d.coreTask? core = none
      let lacks := d.physCore (n / 32) (n % 32) = none
      (63 < n → GivesDev (.coreTask o.id pick) s d) ∧
      (n ≤ 63 → lacks → (named = 0xFF → GivesDev (.coreTask o.id pick) s d) ∧ (named ≠ 0xFF → d.isWindward = false → Concludes (.coreTask o.id pick) s o .resourceLost 0 0)) ∧
      (n ≤ 63 → ¬lacks → away → (named = 0xFF → GivesDev (.coreTask o.id pick) s d) ∧ (named ≠ 0xFF → d.isWindward = false → Concludes (.coreTask o.id pick) s o .targetReset 0 0)) ∧
      (n ≤ 63 → ¬lacks → ¬away → (¬free → GivesDev (.coreTask o.id pick) s d) ∧ (free → Gives (.coreTask o.id pick) s fun t => OpBecomes s t o { o with unit := core, phase := .running, start := d.tick } ∧
        (∀ x, x.id ≠ core → (x ∈ t.dev.cores.cores ↔ x ∈ d.cores.cores)) ∧ (∃ k, t.dev.core? core = some k ∧ k.task = some ⟨o.id, o.tag⟩ ∧ k.pc.toNat = entF o.entry 32 8 ∧ (k.xr 10).toNat = entF o.entry 40 8 ∧ (k.xr 2).toNat = entF o.entry 48 8 ∧
          k.cycle = 0 ∧ k.instret = 0 ∧ k.held = none ∧ k.resv = none) ∧ t = { s with dev := { d with fe := { d.fe with ops := t.dev.fe.ops }, cores := { d.cores with cores := t.dev.cores.cores }, fresh := t.dev.fresh } }))) ∧
    (∀ core, d.busyCore core = none → ∀ cause tval va w e x, ∀ c ∈ [Instr.coreTaskReturn core, .ecallEnq core, .ecallFsig core, .ecallExit core, .ecallOther core, .coreException core cause tval, .cboClean core va, .cboFlush core va, .cboInval core va, .cboZero core va,
      .coreInstruction core w, .coreMemoryResponse core e x], GivesDev c s d) ∧
    (∀ core k (q : CoreTask), d.busyCore core = some (k, q) →
      let ends := fun (st : Status) (exit : BitVec 32) (l : List TReport) (t : State) => (∀ o, d.op? q.op = some o → o.phase = .running → t.dev.op? q.op = some { o with phase := .done st 0 exit }) ∧ (∀ j, j ≠ q.op → t.dev.op? j = d.op? j) ∧
        (∀ x ∈ t.dev.cores.cores, x.id = core → x.task = none ∧ x.held = none ∧ x.resv = none) ∧ 
        (d.isWindward = false → (∀ x, x.id ≠ core → (x ∈ t.dev.cores.cores ↔ x ∈ d.cores.cores)) ∧ t.dev.tdm = { d.tdm with reports := d.tdm.reports ++ l } ∧ t = { s with dev := { d with fe := { d.fe with ops := t.dev.fe.ops }, cores := { d.cores with cores := t.dev.cores.cores }, tdm := t.dev.tdm } })
      let exc := fun (cause : Nat) (tval : Word) => ends .aborted 0 [⟨12, 2, 6, d.logicalCore core, cause, k.pc.toNat, tval.toNat⟩]
      let a := fun n => k.xr n
      let answered := fun (e : Dev) (st : Nat) => sets e core fun x => { x.setX 10 (BitVec.ofNat 64 st) with pc := x.pc + 4 }
      let retired := fun (e : Dev) (f : Core → Core) => sets e core fun x => let y := f x
        { y with pc := y.pc + 4, instret := y.instret + 1, held := none }
      (∀ cause tval, Gives (.coreException core cause tval) s (exc cause tval)) ∧
      (∀ w x y, k.held = some w → ∀ c ∈ [Instr.coreTaskReturn core, .ecallEnq core, .ecallFsig core, .ecallExit core, .ecallOther core, .cboClean core x, .cboFlush core x, .cboInval core x, .cboZero core x, .coreInstruction core y], GivesDev c s d) ∧
      (k.held = none →
        let n := (a 17).toNat
        (∀ e x, GivesDev (.coreMemoryResponse core e x) s d) ∧ Gives (.coreTaskReturn core) s (ends .ok 0 []) ∧
        (∀ c ∈ ([(0x100, .ecallEnq core), (0x101, .ecallFsig core), (0x102, .ecallExit core)] : List (Nat × Instr)), n ≠ c.1 → GivesDev c.2 s d) ∧ (n ∈ [0x100, 0x101, 0x102] → GivesDev (.ecallOther core) s d) ∧
        (n = 0x102 → Gives (.ecallExit core) s (ends .ok ((a 10).setWidth 32) [])) ∧ (n ∉ [0x100, 0x101, 0x102] → Gives (.ecallOther core) s (ends .notPermitted 0 [])) ∧
        (n = 0x101 → let qid := (d.op? q.op).elim 0 (·.qid)
          let i := (a 10).toNat
          let mine := (d.fence? i).any fun f => f.tag == q.tag && f.signaller == some qid
          (mine = true → GivesDev (.ecallFsig core) s (answered (d.signalFence i (min (a 11).toNat (2 ^ 63 - 1))) 0)) ∧
          (mine = false → GivesDev (.ecallFsig core) s (answered { d with tdm := { d.tdm with reports := d.tdm.reports ++ [⟨7, 0, 5, qid, i, (a 11).toNat, 0⟩] } } 0))) ∧
        (n = 0x100 → (∀ st, d.vgather q.tag (a 10).toNat 128 = .error (.ended st) → Gives (.ecallEnq core) s (ends st 0 [])) ∧ (d.vgather q.tag (a 10).toNat 128 = .error .waits → GivesDev (.ecallEnq core) s d) ∧
          (∀ bs : List (Byte × Bool), d.vgather q.tag (a 10).toNat 128 = .ok (d, bs) → let qid := (a 11).toNat
            (bs.any (·.2) = true → Gives (.ecallEnq core) s (ends .poisonConsumed 0 [])) ∧
            (bs.any (·.2) = false → (d.queue? qid = none ∨ d.rd (FE_Q_STATE_DEVICE_OWNED qid) = 0 ∨ d.rd (FE_Q_STATE_TAG qid) ≠ q.tag ∨ d.qState qid = 6 → GivesDev (.ecallEnq core) s (answered d 5)) ∧
              (∀ u, d.queue? qid = some u → d.rd (FE_Q_STATE_DEVICE_OWNED qid) = 1 → d.rd (FE_Q_STATE_TAG qid) = q.tag → d.qState qid ≠ 6 → (2 ^ u.sqLog2 ≤ u.devRing.length → GivesDev (.ecallEnq core) s (answered d 14)) ∧
                (u.devRing.length < 2 ^ u.sqLog2 → Gives (.ecallEnq core) s fun t => t.dev.cores = (answered d 0).cores ∧ t.dev.rd (FE_Q_COUNT_TAIL qid) = (d.rd (FE_Q_COUNT_TAIL qid) + 1) % 2 ^ 32 ∧ RegsKept d t.dev [(FE_Q_COUNT_TAIL qid).reg] ∧
                  (∃ e, (t.dev.queue? qid).map (·.devRing) = some (u.devRing ++ [(e, q.op)]) ∧ entF e 4 4 = (d.rd (FE_Q_COUNT_TAIL qid) + 1) % 2 ^ 32 ∧ (∀ i, i < 128 → i < 4 ∨ 8 ≤ i → entF e i 1 = ((bs.map Prod.fst).getD i 0).toNat)) ∧ t.dev.pool = d.pool))))) ∧
        (∀ va : Word, (∀ st, d.xlate q.tag va.toNat .read = .ended st → ∀ c ∈ [Instr.cboClean core va, .cboFlush core va, .cboInval core va], Gives c s (ends st 0 [])) ∧
          (∀ pa, d.xlate q.tag va.toNat .read = .pa pa → ∀ c ∈ [(Instr.cboClean core va, HomeReq.clean core), (.cboFlush core va, .flush core), (.cboInval core va, .flush core)],
            (inPool pa = false → GivesDev c.1 s (retired d id)) ∧ (inPool pa = true → d.mayAsk core (pa / 64) = true → GivesDev c.1 s (retired (d.homeRequest (pa / 64) c.2) id)) ∧
            (inPool pa = true → d.mayAsk core (pa / 64) = false → GivesDev c.1 s (sets d core fun x => { x with held := none }))) ∧
          (∀ l x, d.corePas q.tag .write (vaRange (va.toNat / 64 * 64) 64) = .ok ((List.range 64).map (64 * l + ·)) → inPool (64 * l + 63) = true → d.cline? core l = some x → x.st ≠ .s → Gives (.cboZero core va) s fun t =>
            (∃ y, t.dev.cline? core l = some y ∧ y.st = .m ∧ y.data = 0 ∧ y.poisoned = false) ∧ (∀ y, ¬(y.cache = core ∧ y.line = l) → (y ∈ t.dev.coh.lines ↔ y ∈ d.coh.lines)) ∧ t.dev.cores = (retired d id).cores ∧ t.dev.pool = d.pool ∧ t.dev.regs = d.regs)) ∧
        (∀ rd rs1 rs2, rd < 32 → rs1 < 32 → rs2 < 32 →
          let writes := fun (w : Nat) (v : Word) => GivesDev (.coreInstruction core (BitVec.ofNat 32 w)) s (retired d (·.setX rd v))
          let r := fun (f7 f3 : Nat) => f7 * 2 ^ 25 + rs2 * 2 ^ 20 + rs1 * 2 ^ 15 + f3 * 2 ^ 12 + rd * 2 ^ 7 + 0x33
          writes (r 0 0) (a rs1 + a rs2) ∧ writes (r 0x20 0) (a rs1 - a rs2) ∧ writes (r 0 1) (a rs1 <<< ((a rs2).toNat % 64)) ∧ writes (r 0 2) (if (a rs1).toInt < (a rs2).toInt then 1 else 0) ∧ writes (r 0 3) (if (a rs1).toNat < (a rs2).toNat then 1 else 0) ∧
          writes (r 0 4) (a rs1 ^^^ a rs2) ∧ writes (r 0 5) (a rs1 >>> ((a rs2).toNat % 64)) ∧ writes (r 0x20 5) ((a rs1).sshiftRight ((a rs2).toNat % 64)) ∧ writes (r 0 6) (a rs1 ||| a rs2) ∧ writes (r 0 7) (a rs1 &&& a rs2) ∧ writes (r 1 0) (a rs1 * a rs2) ∧
          (∀ imm, imm < 2 ^ 12 → writes (imm * 2 ^ 20 + rs1 * 2 ^ 15 + rd * 2 ^ 7 + 0x13) (a rs1 + (BitVec.ofNat 12 imm).signExtend 64)) ∧ (∀ imm, imm < 2 ^ 20 → writes (imm * 2 ^ 12 + rd * 2 ^ 7 + 0x37) ((BitVec.ofNat 32 (imm * 2 ^ 12)).signExtend 64)) ∧
          (let b := fun (f3 : Nat) => Instr.coreInstruction core (BitVec.ofNat 32 (rs2 * 2 ^ 20 + rs1 * 2 ^ 15 + f3 * 2 ^ 12 + 8 * 2 ^ 8 + 0x63))
           let goes := fun (c : Instr) (p : Prop) => (p → GivesDev c s (sets d core fun x => { x with pc := k.pc + 16, instret := x.instret + 1, held := none })) ∧ (¬p → GivesDev c s (retired d id))
           goes (b 0) (a rs1 = a rs2) ∧ goes (b 1) (a rs1 ≠ a rs2) ∧ goes (b 4) ((a rs1).toInt < (a rs2).toInt) ∧ goes (b 5) ((a rs2).toInt ≤ (a rs1).toInt) ∧ goes (b 6) ((a rs1).toNat < (a rs2).toNat) ∧ goes (b 7) ((a rs2).toNat ≤ (a rs1).toNat)) ∧
          GivesDev (.coreInstruction core (BitVec.ofNat 32 (8 * 2 ^ 21 + rd * 2 ^ 7 + 0x6F))) s (sets d core fun x => { x.setX rd (k.pc + 4) with pc := k.pc + 16, instret := x.instret + 1, held := none })) ∧
        Gives (.coreInstruction core 0) s (exc 2 0) ∧ (∀ w : BitVec 32, w.toNat % 128 = 0x7F → Gives (.coreInstruction core w) s (exc 2 (w.setWidth 64))) ∧ Gives (.coreInstruction core 0x00100073) s (exc 3 k.pc) ∧
        (∀ c ∈ [Instr.ecallEnq core, .ecallFsig core, .ecallExit core, .ecallOther core], c ≠ (if n = 0x100 then Instr.ecallEnq core else if n = 0x101 then .ecallFsig core else if n = 0x102 then .ecallExit core else .ecallOther core) ∨
          exec (.coreInstruction core 0x73) s = exec c s)) ∧
      (∀ rd rs1 pa, 0 < rd → rd < 32 → rs1 < 32 → d.corePas q.tag .read (vaRange (a rs1).toNat 8) = .ok ((List.range 8).map (pa + ·)) → inPool (pa + 7) = true → pa % 64 ≤ 56 →
        let w : BitVec 32 := BitVec.ofNat 32 (rs1 * 2 ^ 15 + 3 * 2 ^ 12 + rd * 2 ^ 7 + 0x03)
        ∀ c, (k.held = none ∧ c = Instr.coreInstruction core w) ∨ (k.held = some w ∧ (∀ y ∈ d.str.reqs, y.core ≠ some core) ∧ ∃ x, c = .coreMemoryResponse core none x) →
          (∀ x, d.cline? core (pa / 64) = some x → (x.poisoned = false → GivesDev c s (retired d (·.setX rd (BitVec.ofNat 64 (x.data.toNat / 2 ^ (8 * (pa % 64)) % 2 ^ 64))))) ∧ (x.poisoned = true → Gives c s (ends .poisonConsumed 0 []))) ∧
          (d.cline? core (pa / 64) = none → d.mayAsk core (pa / 64) = false → GivesDev c s (sets d core fun x => { x with held := some w }))) ∧
      (∀ w e x, k.held = some w → (∃ y ∈ d.str.reqs, y.core = some core) → GivesDev (.coreMemoryResponse core e x) s d)) ∧
    (let base := 0x7F0000000000
     let rep := fun (x : TReport) => { d with tdm := { d.tdm with reports := d.tdm.reports ++ [x] } }
     (∀ x isW w, (x % 8 = 0 ∧ w = 8 → GivesDev (.misalignedRegisterAccess isW x w) s d) ∧ (¬(x % 8 = 0 ∧ w = 8) → base ≤ x → x < base + 15 * 2 ^ 24 → GivesDev (.misalignedRegisterAccess isW x w) s (rep ⟨0, 0, 1, (x - base) / 2 ^ 24, x, 0, 0⟩)) ∧
       (¬(x % 8 = 0 ∧ w = 8) → base + 2 ^ 36 ≤ x → x < base + 2 ^ 36 + 2 ^ 25 → GivesDev (.misalignedRegisterAccess isW x w) s (rep ⟨0, 0, 1, 15, x, 0, 0⟩)) ∧
       (¬(x % 8 = 0 ∧ w = 8) → x < base ∨ (base + 15 * 2 ^ 24 ≤ x ∧ x < base + 2 ^ 36) ∨ base + 2 ^ 36 + 2 ^ 25 ≤ x → GivesDev (.misalignedRegisterAccess isW x w) s d)) ∧
     (∀ x v, (x < base ∨ base + 15 * 2 ^ 24 ≤ x → GivesDev (.registerWrite x v) s d) ∧ (base ≤ x → x < base + 15 * 2 ^ 24 → x % 8 ≠ 0 → GivesDev (.registerWrite x v) s (rep ⟨0, 0, 1, (x - base) / 2 ^ 24, x, 0, 0⟩)) ∧
       (base ≤ x → x < base + 15 * 2 ^ 24 → x % 8 = 0 → let off := x - base
         let gone := rep ⟨0, 0, 2, off / 2 ^ 24, x, v.toNat, 0⟩
         (regMapAt off = none → GivesDev (.registerWrite x v) s d) ∧ (∀ m, regMapAt off = some m →
           (d.lcState = 5 → off ≠ TDM_OPEN_DUMP.reg → GivesDev (.registerWrite x v) s (rep ⟨15, 0, 5, 0, 0, 0, 0⟩)) ∧ (d.lcState ≠ 5 → d.discStopped = false → d.rd GLB_STATUS_READY = 0 → openEarly off = false → GivesDev (.registerWrite x v) s gone) ∧
           (s.ready → rangeOk m.base v = false → off ≠ SEC_CMD_GO.reg → GivesDev (.registerWrite x v) s gone)))) ∧
     (s.ready → ∀ v : Word, let cap := v.toNat / 2 ^ 48
       let low := v.toNat / 2 ^ 32 % 2 ^ 16
       let ms := v.toNat / 2 ^ 16 % 2 ^ 16
       (2000 ≤ cap → cap ≤ 3400 → low < cap → 1 ≤ ms → Gives (.registerWrite (base + 0xD000018) v) s fun t => t.dev.rd PWR_CAP_CAP_W = cap ∧ t.dev.rd PWR_CAP_LOW_W = low ∧ t.dev.rd PWR_CAP_LOWER_MS = ms ∧ RegsKept d t.dev [PWR_CAP_CAP_W.reg] ∧
         t = { s with dev := { d with regs := t.dev.regs } }) ∧
       (¬(2000 ≤ cap ∧ cap ≤ 3400 ∧ low < cap ∧ 1 ≤ ms) → GivesDev (.registerWrite (base + 0xD000018) v) s (rep ⟨0, 0, 2, 13, base + 0xD000018, v.toNat, 0⟩))))
end

