-- ==== Sys2Proof/Laws/Dispatch.lean ====
section
/-! SUPPORT. Each arm of exec, as a rewriting rule. -/

namespace Sys2Proof.Machine

theorem exec_registerWrite addr v (s : State) : exec (.registerWrite addr v) s = execRegisterWrite addr v s := rfl
theorem exec_misalignedRegisterAccess isWrite addr width (s : State) : exec (.misalignedRegisterAccess isWrite addr width) s = execMisalignedRegisterAccess isWrite addr width s := rfl
theorem exec_dropCountRead same (s : State) : exec (.dropCountRead same) s = execDropCountRead same s := rfl
theorem exec_ecallEnq core (s : State) : exec (.ecallEnq core) s = execEcallEnq core s := rfl
theorem exec_ecallFsig core (s : State) : exec (.ecallFsig core) s = execEcallFsig core s := rfl
theorem exec_ecallExit core (s : State) : exec (.ecallExit core) s = execEcallExit core s := rfl
theorem exec_ecallOther core (s : State) : exec (.ecallOther core) s = execEcallOther core s := rfl
theorem exec_coreTaskReturn core (s : State) : exec (.coreTaskReturn core) s = execCoreTaskReturn core s := rfl
theorem exec_coreException core cause tval (s : State) : exec (.coreException core cause tval) s = execCoreException core cause tval s := rfl
theorem exec_cboClean core va (s : State) : exec (.cboClean core va) s = execCboClean core va s := rfl
theorem exec_cboFlush core va (s : State) : exec (.cboFlush core va) s = execCboFlush core va s := rfl
theorem exec_cboInval core va (s : State) : exec (.cboInval core va) s = execCboInval core va s := rfl
theorem exec_cboZero core va (s : State) : exec (.cboZero core va) s = execCboZero core va s := rfl
theorem exec_splitChange op (s : State) : exec (.splitChange op) s = execSplitChange op s := rfl
theorem exec_l1InvalidateAllComplete tile (s : State) : exec (.l1InvalidateAllComplete tile) s = execL1InvalidateAllComplete tile s := rfl
theorem exec_reefSramLimitWrite v (s : State) : exec (.reefSramLimitWrite v) s = execReefSramLimitWrite v s := rfl
theorem exec_tileSelfTestEnd die q unit (s : State) : exec (.tileSelfTestEnd die q unit) s = execTileSelfTestEnd die q unit s := rfl
theorem exec_firmwareRotation dies (s : State) : exec (.firmwareRotation dies) s = execFirmwareRotation dies s := rfl
theorem exec_spareRetestDue die q (s : State) : exec (.spareRetestDue die q) s = execSpareRetestDue die q s := rfl
theorem exec_sliceExpiry (s : State) : exec .sliceExpiry s = execSliceExpiry s := rfl
theorem exec_yieldWaitExpiry (s : State) : exec .yieldWaitExpiry s = execYieldWaitExpiry s := rfl
theorem exec_reefSaveComplete cycles (s : State) : exec (.reefSaveComplete cycles) s = execReefSaveComplete cycles s := rfl
theorem exec_reefRestoreComplete (s : State) : exec .reefRestoreComplete s = execReefRestoreComplete s := rfl
theorem exec_imageLoadComplete poisoned (s : State) : exec (.imageLoadComplete poisoned) s = execImageLoadComplete poisoned s := rfl
theorem exec_resyncComplete dig (s : State) : exec (.resyncComplete dig) s = execResyncComplete dig s := rfl
theorem exec_seqNop a (s : State) : exec (.seqNop a) s = execSeqNop a s := rfl
theorem exec_seqAdd a (s : State) : exec (.seqAdd a) s = execSeqAdd a s := rfl
theorem exec_seqSub a (s : State) : exec (.seqSub a) s = execSeqSub a s := rfl
theorem exec_seqAnd a (s : State) : exec (.seqAnd a) s = execSeqAnd a s := rfl
theorem exec_seqOr a (s : State) : exec (.seqOr a) s = execSeqOr a s := rfl
theorem exec_seqXor a (s : State) : exec (.seqXor a) s = execSeqXor a s := rfl
theorem exec_seqShl a (s : State) : exec (.seqShl a) s = execSeqShl a s := rfl
theorem exec_seqShr a (s : State) : exec (.seqShr a) s = execSeqShr a s := rfl
theorem exec_seqSar a (s : State) : exec (.seqSar a) s = execSeqSar a s := rfl
theorem exec_seqMul a (s : State) : exec (.seqMul a) s = execSeqMul a s := rfl
theorem exec_seqMin a (s : State) : exec (.seqMin a) s = execSeqMin a s := rfl
theorem exec_seqMax a (s : State) : exec (.seqMax a) s = execSeqMax a s := rfl
theorem exec_seqMinu a (s : State) : exec (.seqMinu a) s = execSeqMinu a s := rfl
theorem exec_seqMaxu a (s : State) : exec (.seqMaxu a) s = execSeqMaxu a s := rfl
theorem exec_seqAddi a (s : State) : exec (.seqAddi a) s = execSeqAddi a s := rfl
theorem exec_seqSubi a (s : State) : exec (.seqSubi a) s = execSeqSubi a s := rfl
theorem exec_seqAndi a (s : State) : exec (.seqAndi a) s = execSeqAndi a s := rfl
theorem exec_seqOri a (s : State) : exec (.seqOri a) s = execSeqOri a s := rfl
theorem exec_seqXori a (s : State) : exec (.seqXori a) s = execSeqXori a s := rfl
theorem exec_seqShli a (s : State) : exec (.seqShli a) s = execSeqShli a s := rfl
theorem exec_seqShri a (s : State) : exec (.seqShri a) s = execSeqShri a s := rfl
theorem exec_seqSari a (s : State) : exec (.seqSari a) s = execSeqSari a s := rfl
theorem exec_seqMuli a (s : State) : exec (.seqMuli a) s = execSeqMuli a s := rfl
theorem exec_seqMini a (s : State) : exec (.seqMini a) s = execSeqMini a s := rfl
theorem exec_seqMaxi a (s : State) : exec (.seqMaxi a) s = execSeqMaxi a s := rfl
theorem exec_seqMinui a (s : State) : exec (.seqMinui a) s = execSeqMinui a s := rfl
theorem exec_seqMaxui a (s : State) : exec (.seqMaxui a) s = execSeqMaxui a s := rfl
theorem exec_seqLih a (s : State) : exec (.seqLih a) s = execSeqLih a s := rfl
theorem exec_seqCmp a (s : State) : exec (.seqCmp a) s = execSeqCmp a s := rfl
theorem exec_seqCmpi a (s : State) : exec (.seqCmpi a) s = execSeqCmpi a s := rfl
theorem exec_seqLdc a (s : State) : exec (.seqLdc a) s = execSeqLdc a s := rfl
theorem exec_seqLdd a (s : State) : exec (.seqLdd a) s = execSeqLdd a s := rfl
theorem exec_seqOrdl a (s : State) : exec (.seqOrdl a) s = execSeqOrdl a s := rfl
theorem exec_seqDbase a (s : State) : exec (.seqDbase a) s = execSeqDbase a s := rfl
theorem exec_seqDscale a (s : State) : exec (.seqDscale a) s = execSeqDscale a s := rfl
theorem exec_seqMovh a (s : State) : exec (.seqMovh a) s = execSeqMovh a s := rfl
theorem exec_seqHcmp a (s : State) : exec (.seqHcmp a) s = execSeqHcmp a s := rfl
theorem exec_seqHclr a (s : State) : exec (.seqHclr a) s = execSeqHclr a s := rfl
theorem exec_seqBr a (s : State) : exec (.seqBr a) s = execSeqBr a s := rfl
theorem exec_seqLoop a (s : State) : exec (.seqLoop a) s = execSeqLoop a s := rfl
theorem exec_seqEnd a (s : State) : exec (.seqEnd a) s = execSeqEnd a s := rfl
theorem exec_aop a dig (s : State) : exec (.aop a dig) s = execAop a dig s := rfl
theorem exec_matrixPartStart op (s : State) : exec (.matrixPartStart op) s = execMatrixPartStart op s := rfl
theorem exec_flowPartStart op (s : State) : exec (.flowPartStart op) s = execFlowPartStart op s := rfl
theorem exec_flowPartEnd op (s : State) : exec (.flowPartEnd op) s = execFlowPartEnd op s := rfl
theorem exec_arrayOpDone op (s : State) : exec (.arrayOpDone op) s = execArrayOpDone op s := rfl
theorem exec_seqWaita a (s : State) : exec (.seqWaita a) s = execSeqWaita a s := rfl
theorem exec_seqLdt a (s : State) : exec (.seqLdt a) s = execSeqLdt a s := rfl
theorem exec_seqStt a (s : State) : exec (.seqStt a) s = execSeqStt a s := rfl
theorem exec_seqXlt a (s : State) : exec (.seqXlt a) s = execSeqXlt a s := rfl
theorem exec_moveComplete tok err (s : State) : exec (.moveComplete tok err) s = execMoveComplete tok err s := rfl
theorem exec_seqWaitm a (s : State) : exec (.seqWaitm a) s = execSeqWaitm a s := rfl
theorem exec_seqEnq a (s : State) : exec (.seqEnq a) s = execSeqEnq a s := rfl
theorem exec_seqFsig a (s : State) : exec (.seqFsig a) s = execSeqFsig a s := rfl
theorem exec_seqRotp a (s : State) : exec (.seqRotp a) s = execSeqRotp a s := rfl
theorem exec_seqYldp a (s : State) : exec (.seqYldp a) s = execSeqYldp a s := rfl
theorem exec_seqTally a (s : State) : exec (.seqTally a) s = execSeqTally a s := rfl
theorem exec_blockPlacement die (s : State) : exec (.blockPlacement die) s = execBlockPlacement die s := rfl
theorem exec_intAdd l (s : State) : exec (.intAdd l) s = execIntAdd l s := rfl
theorem exec_intSub l (s : State) : exec (.intSub l) s = execIntSub l s := rfl
theorem exec_intMul l (s : State) : exec (.intMul l) s = execIntMul l s := rfl
theorem exec_intMulhi l (s : State) : exec (.intMulhi l) s = execIntMulhi l s := rfl
theorem exec_intMulhiu l (s : State) : exec (.intMulhiu l) s = execIntMulhiu l s := rfl
theorem exec_intAnd l (s : State) : exec (.intAnd l) s = execIntAnd l s := rfl
theorem exec_intOr l (s : State) : exec (.intOr l) s = execIntOr l s := rfl
theorem exec_intXor l (s : State) : exec (.intXor l) s = execIntXor l s := rfl
theorem exec_intShl l (s : State) : exec (.intShl l) s = execIntShl l s := rfl
theorem exec_intShr l (s : State) : exec (.intShr l) s = execIntShr l s := rfl
theorem exec_intSar l (s : State) : exec (.intSar l) s = execIntSar l s := rfl
theorem exec_intMin l (s : State) : exec (.intMin l) s = execIntMin l s := rfl
theorem exec_intMax l (s : State) : exec (.intMax l) s = execIntMax l s := rfl
theorem exec_intMinu l (s : State) : exec (.intMinu l) s = execIntMinu l s := rfl
theorem exec_intMaxu l (s : State) : exec (.intMaxu l) s = execIntMaxu l s := rfl
theorem exec_intPopc l (s : State) : exec (.intPopc l) s = execIntPopc l s := rfl
theorem exec_intClz l (s : State) : exec (.intClz l) s = execIntClz l s := rfl
theorem exec_intMad l (s : State) : exec (.intMad l) s = execIntMad l s := rfl
theorem exec_intMov l (s : State) : exec (.intMov l) s = execIntMov l s := rfl
theorem exec_fp32Add l (s : State) : exec (.fp32Add l) s = execFp32Add l s := rfl
theorem exec_fp32Sub l (s : State) : exec (.fp32Sub l) s = execFp32Sub l s := rfl
theorem exec_fp32Mul l (s : State) : exec (.fp32Mul l) s = execFp32Mul l s := rfl
theorem exec_fp32Fma l (s : State) : exec (.fp32Fma l) s = execFp32Fma l s := rfl
theorem exec_fp32Min l (s : State) : exec (.fp32Min l) s = execFp32Min l s := rfl
theorem exec_fp32Max l (s : State) : exec (.fp32Max l) s = execFp32Max l s := rfl
theorem exec_fp32Abs l (s : State) : exec (.fp32Abs l) s = execFp32Abs l s := rfl
theorem exec_fp32Neg l (s : State) : exec (.fp32Neg l) s = execFp32Neg l s := rfl
theorem exec_fp32Rint l (s : State) : exec (.fp32Rint l) s = execFp32Rint l s := rfl
theorem exec_fp32Ldexp l (s : State) : exec (.fp32Ldexp l) s = execFp32Ldexp l s := rfl
theorem exec_fp32Rcp l (s : State) : exec (.fp32Rcp l) s = execFp32Rcp l s := rfl
theorem exec_fp32Div l (s : State) : exec (.fp32Div l) s = execFp32Div l s := rfl
theorem exec_fp32Sqrt l (s : State) : exec (.fp32Sqrt l) s = execFp32Sqrt l s := rfl
theorem exec_fp32Rsqrt l (s : State) : exec (.fp32Rsqrt l) s = execFp32Rsqrt l s := rfl
theorem exec_fp32Exp l (s : State) : exec (.fp32Exp l) s = execFp32Exp l s := rfl
theorem exec_fp32Exp2 l (s : State) : exec (.fp32Exp2 l) s = execFp32Exp2 l s := rfl
theorem exec_fp32Log l (s : State) : exec (.fp32Log l) s = execFp32Log l s := rfl
theorem exec_fp32Log2 l (s : State) : exec (.fp32Log2 l) s = execFp32Log2 l s := rfl
theorem exec_fp32Tanh l (s : State) : exec (.fp32Tanh l) s = execFp32Tanh l s := rfl
theorem exec_fp32Sigmoid l (s : State) : exec (.fp32Sigmoid l) s = execFp32Sigmoid l s := rfl
theorem exec_fp32Erf l (s : State) : exec (.fp32Erf l) s = execFp32Erf l s := rfl
theorem exec_fp32Sin l (s : State) : exec (.fp32Sin l) s = execFp32Sin l s := rfl
theorem exec_fp32Cos l (s : State) : exec (.fp32Cos l) s = execFp32Cos l s := rfl
theorem exec_fp64Add l (s : State) : exec (.fp64Add l) s = execFp64Add l s := rfl
theorem exec_fp64Sub l (s : State) : exec (.fp64Sub l) s = execFp64Sub l s := rfl
theorem exec_fp64Mul l (s : State) : exec (.fp64Mul l) s = execFp64Mul l s := rfl
theorem exec_fp64Fma l (s : State) : exec (.fp64Fma l) s = execFp64Fma l s := rfl
theorem exec_fp64Min l (s : State) : exec (.fp64Min l) s = execFp64Min l s := rfl
theorem exec_fp64Max l (s : State) : exec (.fp64Max l) s = execFp64Max l s := rfl
theorem exec_fp64Abs l (s : State) : exec (.fp64Abs l) s = execFp64Abs l s := rfl
theorem exec_fp64Neg l (s : State) : exec (.fp64Neg l) s = execFp64Neg l s := rfl
theorem exec_fp64Rint l (s : State) : exec (.fp64Rint l) s = execFp64Rint l s := rfl
theorem exec_fp64Ldexp l (s : State) : exec (.fp64Ldexp l) s = execFp64Ldexp l s := rfl
theorem exec_fp64Rcp l (s : State) : exec (.fp64Rcp l) s = execFp64Rcp l s := rfl
theorem exec_fp64Div l (s : State) : exec (.fp64Div l) s = execFp64Div l s := rfl
theorem exec_fp64Sqrt l (s : State) : exec (.fp64Sqrt l) s = execFp64Sqrt l s := rfl
theorem exec_fp64Rsqrt l (s : State) : exec (.fp64Rsqrt l) s = execFp64Rsqrt l s := rfl
theorem exec_fp64Exp l (s : State) : exec (.fp64Exp l) s = execFp64Exp l s := rfl
theorem exec_fp64Exp2 l (s : State) : exec (.fp64Exp2 l) s = execFp64Exp2 l s := rfl
theorem exec_fp64Log l (s : State) : exec (.fp64Log l) s = execFp64Log l s := rfl
theorem exec_fp64Log2 l (s : State) : exec (.fp64Log2 l) s = execFp64Log2 l s := rfl
theorem exec_fp64Tanh l (s : State) : exec (.fp64Tanh l) s = execFp64Tanh l s := rfl
theorem exec_fp64Sigmoid l (s : State) : exec (.fp64Sigmoid l) s = execFp64Sigmoid l s := rfl
theorem exec_fp64Erf l (s : State) : exec (.fp64Erf l) s = execFp64Erf l s := rfl
theorem exec_fp64Sin l (s : State) : exec (.fp64Sin l) s = execFp64Sin l s := rfl
theorem exec_fp64Cos l (s : State) : exec (.fp64Cos l) s = execFp64Cos l s := rfl
theorem exec_laneCvt l (s : State) : exec (.laneCvt l) s = execLaneCvt l s := rfl
theorem exec_laneCmp l (s : State) : exec (.laneCmp l) s = execLaneCmp l s := rfl
theorem exec_laneSel l (s : State) : exec (.laneSel l) s = execLaneSel l s := rfl
theorem exec_lanePand l (s : State) : exec (.lanePand l) s = execLanePand l s := rfl
theorem exec_lanePor l (s : State) : exec (.lanePor l) s = execLanePor l s := rfl
theorem exec_lanePxor l (s : State) : exec (.lanePxor l) s = execLanePxor l s := rfl
theorem exec_lanePnot l (s : State) : exec (.lanePnot l) s = execLanePnot l s := rfl
theorem exec_laneBra l (s : State) : exec (.laneBra l) s = execLaneBra l s := rfl
theorem exec_laneJoin l (s : State) : exec (.laneJoin l) s = execLaneJoin l s := rfl
theorem exec_laneBar l (s : State) : exec (.laneBar l) s = execLaneBar l s := rfl
theorem exec_laneExit l (s : State) : exec (.laneExit l) s = execLaneExit l s := rfl
theorem exec_laneNop l (s : State) : exec (.laneNop l) s = execLaneNop l s := rfl
theorem exec_lds8 l (s : State) : exec (.lds8 l) s = execLds8 l s := rfl
theorem exec_lds16 l (s : State) : exec (.lds16 l) s = execLds16 l s := rfl
theorem exec_lds32 l (s : State) : exec (.lds32 l) s = execLds32 l s := rfl
theorem exec_lds64 l (s : State) : exec (.lds64 l) s = execLds64 l s := rfl
theorem exec_lds8s l (s : State) : exec (.lds8s l) s = execLds8s l s := rfl
theorem exec_lds16s l (s : State) : exec (.lds16s l) s = execLds16s l s := rfl
theorem exec_sts8 l (s : State) : exec (.sts8 l) s = execSts8 l s := rfl
theorem exec_sts16 l (s : State) : exec (.sts16 l) s = execSts16 l s := rfl
theorem exec_sts32 l (s : State) : exec (.sts32 l) s = execSts32 l s := rfl
theorem exec_sts64 l (s : State) : exec (.sts64 l) s = execSts64 l s := rfl
theorem exec_ldsa32 l (s : State) : exec (.ldsa32 l) s = execLdsa32 l s := rfl
theorem exec_ldsa64 l (s : State) : exec (.ldsa64 l) s = execLdsa64 l s := rfl
theorem exec_ld8 l (s : State) : exec (.ld8 l) s = execLd8 l s := rfl
theorem exec_ld16 l (s : State) : exec (.ld16 l) s = execLd16 l s := rfl
theorem exec_ld32 l (s : State) : exec (.ld32 l) s = execLd32 l s := rfl
theorem exec_ld64 l (s : State) : exec (.ld64 l) s = execLd64 l s := rfl
theorem exec_ldcg8 l (s : State) : exec (.ldcg8 l) s = execLdcg8 l s := rfl
theorem exec_ldcg16 l (s : State) : exec (.ldcg16 l) s = execLdcg16 l s := rfl
theorem exec_ldcg32 l (s : State) : exec (.ldcg32 l) s = execLdcg32 l s := rfl
theorem exec_ldcg64 l (s : State) : exec (.ldcg64 l) s = execLdcg64 l s := rfl
theorem exec_st8 l (s : State) : exec (.st8 l) s = execSt8 l s := rfl
theorem exec_st16 l (s : State) : exec (.st16 l) s = execSt16 l s := rfl
theorem exec_st32 l (s : State) : exec (.st32 l) s = execSt32 l s := rfl
theorem exec_st64 l (s : State) : exec (.st64 l) s = execSt64 l s := rfl
theorem exec_ldc32 l (s : State) : exec (.ldc32 l) s = execLdc32 l s := rfl
theorem exec_ldc64 l (s : State) : exec (.ldc64 l) s = execLdc64 l s := rfl
theorem exec_atomAdd l (s : State) : exec (.atomAdd l) s = execAtomAdd l s := rfl
theorem exec_atomFadd l (s : State) : exec (.atomFadd l) s = execAtomFadd l s := rfl
theorem exec_atomMin l (s : State) : exec (.atomMin l) s = execAtomMin l s := rfl
theorem exec_atomMax l (s : State) : exec (.atomMax l) s = execAtomMax l s := rfl
theorem exec_atomMinu l (s : State) : exec (.atomMinu l) s = execAtomMinu l s := rfl
theorem exec_atomMaxu l (s : State) : exec (.atomMaxu l) s = execAtomMaxu l s := rfl
theorem exec_atomAnd l (s : State) : exec (.atomAnd l) s = execAtomAnd l s := rfl
theorem exec_atomOr l (s : State) : exec (.atomOr l) s = execAtomOr l s := rfl
theorem exec_atomXor l (s : State) : exec (.atomXor l) s = execAtomXor l s := rfl
theorem exec_atomExch l (s : State) : exec (.atomExch l) s = execAtomExch l s := rfl
theorem exec_atomCas l (s : State) : exec (.atomCas l) s = execAtomCas l s := rfl
theorem exec_redo l (s : State) : exec (.redo l) s = execRedo l s := rfl
theorem exec_laneLread l (s : State) : exec (.laneLread l) s = execLaneLread l s := rfl
theorem exec_laneLpair l (s : State) : exec (.laneLpair l) s = execLaneLpair l s := rfl
theorem exec_laneLrot l (s : State) : exec (.laneLrot l) s = execLaneLrot l s := rfl
theorem exec_laneVmask l (s : State) : exec (.laneVmask l) s = execLaneVmask l s := rfl
theorem exec_laneVfirst l (s : State) : exec (.laneVfirst l) s = execLaneVfirst l s := rfl
theorem exec_lanePmask l (s : State) : exec (.lanePmask l) s = execLanePmask l s := rfl
theorem exec_laneS2r l (s : State) : exec (.laneS2r l) s = execLaneS2r l s := rfl
theorem exec_laneFence l (s : State) : exec (.laneFence l) s = execLaneFence l s := rfl
theorem exec_laneMemoryResponse acc err ext (s : State) : exec (.laneMemoryResponse acc err ext) s = execLaneMemoryResponse acc err ext s := rfl
theorem exec_barrierExpiry tile blk (s : State) : exec (.barrierExpiry tile blk) s = execBarrierExpiry tile blk s := rfl
theorem exec_nfpDomCtrlWrite v (s : State) : exec (.nfpDomCtrlWrite v) s = execNfpDomCtrlWrite v s := rfl
theorem exec_ptpMessage port isSync offsetNs (s : State) : exec (.ptpMessage port isSync offsetNs) s = execPtpMessage port isSync offsetNs s := rfl
theorem exec_fineSyncExchange resp (s : State) : exec (.fineSyncExchange resp) s = execFineSyncExchange resp s := rfl
theorem exec_domainStart (s : State) : exec .domainStart s = execDomainStart s := rfl
theorem exec_tickBoundary (s : State) : exec .tickBoundary s = execTickBoundary s := rfl
theorem exec_domainWord rank div (s : State) : exec (.domainWord rank div) s = execDomainWord rank div s := rfl
theorem exec_announcement div tick start (s : State) : exec (.announcement div tick start) s = execAnnouncement div tick start s := rfl
theorem exec_schedLoad (s : State) : exec .schedLoad s = execSchedLoad s := rfl
theorem exec_scheduledSlot port entry lateData (s : State) : exec (.scheduledSlot port entry lateData) s = execScheduledSlot port entry lateData s := rfl
theorem exec_openSlot port (s : State) : exec (.openSlot port) s = execOpenSlot port s := rfl
theorem exec_domainLaunchStart (s : State) : exec .domainLaunchStart s = execDomainLaunchStart s := rfl
theorem exec_hbmRead addr symbols (s : State) : exec (.hbmRead addr symbols) s = execHbmRead addr symbols s := rfl
theorem exec_hbmWrite addr data poisoned (s : State) : exec (.hbmWrite addr data poisoned) s = execHbmWrite addr data poisoned s := rfl
theorem exec_perBankRefresh pc latWaits idle (s : State) : exec (.perBankRefresh pc latWaits idle) s = execPerBankRefresh pc latWaits idle s := rfl
theorem exec_refreshManagementRequest pc bank (s : State) : exec (.refreshManagementRequest pc bank) s = execRefreshManagementRequest pc bank s := rfl
theorem exec_channelRetrain chan ok (s : State) : exec (.channelRetrain chan ok) s = execChannelRetrain chan ok s := rfl
theorem exec_stackTemperatureRead stack tenths (s : State) : exec (.stackTemperatureRead stack tenths) s = execStackTemperatureRead stack tenths s := rfl
theorem exec_saturationWindowEnd pc fullCycles (s : State) : exec (.saturationWindowEnd pc fullCycles) s = execSaturationWindowEnd pc fullCycles s := rfl
theorem exec_scrub addr symbols (s : State) : exec (.scrub addr symbols) s = execScrub addr symbols s := rfl
theorem exec_parityError chan retrainOk (s : State) : exec (.parityError chan retrainOk) s = execParityError chan retrainOk s := rfl
theorem exec_takeOut pc (s : State) : exec (.takeOut pc) s = execTakeOut pc s := rfl
theorem exec_memReturn pc (s : State) : exec (.memReturn pc) s = execMemReturn pc s := rfl
theorem exec_margin pc kind (s : State) : exec (.margin pc kind) s = execMargin pc kind s := rfl
theorem exec_retire pc (s : State) : exec (.retire pc) s = execRetire pc s := rfl
theorem exec_sweep stack all (s : State) : exec (.sweep stack all) s = execSweep stack all s := rfl
theorem exec_takeOutCopyComplete pc (s : State) : exec (.takeOutCopyComplete pc) s = execTakeOutCopyComplete pc s := rfl
theorem exec_returnCopyComplete pc (s : State) : exec (.returnCopyComplete pc) s = execReturnCopyComplete pc s := rfl
theorem exec_marginRunComplete left right (s : State) : exec (.marginRunComplete left right) s = execMarginRunComplete left right s := rfl
theorem exec_publishOpen op (s : State) : exec (.publishOpen op) s = execPublishOpen op s := rfl
theorem exec_publishWrite op (s : State) : exec (.publishWrite op) s = execPublishWrite op s := rfl
theorem exec_publishProgramComplete op (s : State) : exec (.publishProgramComplete op) s = execPublishProgramComplete op s := rfl
theorem exec_publishSeal op (s : State) : exec (.publishSeal op) s = execPublishSeal op s := rfl
theorem exec_shelfDelete op (s : State) : exec (.shelfDelete op) s = execShelfDelete op s := rfl
theorem exec_promote op (s : State) : exec (.promote op) s = execPromote op s := rfl
theorem exec_evict op (s : State) : exec (.evict op) s = execEvict op s := rfl
theorem exec_bindRecv op (s : State) : exec (.bindRecv op) s = execBindRecv op s := rfl
theorem exec_unbind op (s : State) : exec (.unbind op) s = execUnbind op s := rfl
theorem exec_shelfStripeRead cp stripe bad (s : State) : exec (.shelfStripeRead cp stripe bad) s = execShelfStripeRead cp stripe bad s := rfl
theorem exec_promotionDeadline wt (s : State) : exec (.promotionDeadline wt) s = execPromotionDeadline wt s := rfl
theorem exec_refetchDeadline cp (s : State) : exec (.refetchDeadline cp) s = execRefetchDeadline cp s := rfl
theorem exec_rdShared cache line (s : State) : exec (.rdShared cache line) s = execRdShared cache line s := rfl
theorem exec_rdOwn cache line (s : State) : exec (.rdOwn cache line) s = execRdOwn cache line s := rfl
theorem exec_upgrade cache line (s : State) : exec (.upgrade cache line) s = execUpgrade cache line s := rfl
theorem exec_rdOnce agent line (s : State) : exec (.rdOnce agent line) s = execRdOnce agent line s := rfl
theorem exec_wr agent line mask data poisoned hint (s : State) : exec (.wr agent line mask data poisoned hint) s = execWr agent line mask data poisoned hint s := rfl
theorem exec_atom agent line lanes (s : State) : exec (.atom agent line lanes) s = execAtom agent line lanes s := rfl
theorem exec_clean cache line (s : State) : exec (.clean cache line) s = execClean cache line s := rfl
theorem exec_flush cache line (s : State) : exec (.flush cache line) s = execFlush cache line s := rfl
theorem exec_cohMove cache line (s : State) : exec (.cohMove cache line) s = execCohMove cache line s := rfl
theorem exec_evictLine cache line (s : State) : exec (.evictLine cache line) s = execEvictLine cache line s := rfl
theorem exec_snpShare cache line (s : State) : exec (.snpShare cache line) s = execSnpShare cache line s := rfl
theorem exec_snpClean cache line (s : State) : exec (.snpClean cache line) s = execSnpClean cache line s := rfl
theorem exec_snpInv cache line (s : State) : exec (.snpInv cache line) s = execSnpInv cache line s := rfl
theorem exec_snpAns cache line (s : State) : exec (.snpAns cache line) s = execSnpAns cache line s := rfl
theorem exec_snoopTimeout cache line (s : State) : exec (.snoopTimeout cache line) s = execSnoopTimeout cache line s := rfl
theorem exec_offline agent (s : State) : exec (.offline agent) s = execOffline agent s := rfl
theorem exec_online agent (s : State) : exec (.online agent) s = execOnline agent s := rfl
theorem exec_dead agent (s : State) : exec (.dead agent) s = execDead agent s := rfl
theorem exec_clusterCleaningComplete agent (s : State) : exec (.clusterCleaningComplete agent) s = execClusterCleaningComplete agent s := rfl
theorem exec_wayTargetWrite c v (s : State) : exec (.wayTargetWrite c v) s = execWayTargetWrite c v s := rfl
theorem exec_wayCleaningComplete c (s : State) : exec (.wayCleaningComplete c) s = execWayCleaningComplete c s := rfl
theorem exec_cacheDataError cache line dbl (s : State) : exec (.cacheDataError cache line dbl) s = execCacheDataError cache line dbl s := rfl
theorem exec_cacheTagParityError kind cache line home (s : State) : exec (.cacheTagParityError kind cache line home) s = execCacheTagParityError kind cache line home s := rfl
theorem exec_dumpHandlerFailure (s : State) : exec .dumpHandlerFailure s = execDumpHandlerFailure s := rfl
theorem exec_translationQuery port tag va acc lines (s : State) : exec (.translationQuery port tag va acc lines) s = execTranslationQuery port tag va acc lines s := rfl
theorem exec_walkReadComplete walk (s : State) : exec (.walkReadComplete walk) s = execWalkReadComplete walk s := rfl
theorem exec_faultRetry req (s : State) : exec (.faultRetry req) s = execFaultRetry req s := rfl
theorem exec_ctuRetry id (s : State) : exec (.ctuRetry id) s = execCtuRetry id s := rfl
theorem exec_ctuFail id (s : State) : exec (.ctuFail id) s = execCtuFail id s := rfl
theorem exec_faultTimeout id (s : State) : exec (.faultTimeout id) s = execFaultTimeout id s := rfl
theorem exec_invRange tag va size count (s : State) : exec (.invRange tag va size count) s = execInvRange tag va size count s := rfl
theorem exec_invTag tag (s : State) : exec (.invTag tag) s = execInvTag tag s := rfl
theorem exec_invalidationComplete inv (s : State) : exec (.invalidationComplete inv) s = execInvalidationComplete inv s := rfl
theorem exec_counterHalving (s : State) : exec .counterHalving s = execCounterHalving s := rfl
theorem exec_faultRingEnable v (s : State) : exec (.faultRingEnable v) s = execFaultRingEnable v s := rfl
theorem exec_ctuSwitchover die (s : State) : exec (.ctuSwitchover die) s = execCtuSwitchover die s := rfl
theorem exec_standbyCtuFailure (s : State) : exec .standbyCtuFailure s = execStandbyCtuFailure s := rfl
theorem exec_sqTail qid v (s : State) : exec (.sqTail qid v) s = execSqTail qid v s := rfl
theorem exec_cqHead qid v (s : State) : exec (.cqHead qid v) s = execCqHead qid v s := rfl
theorem exec_entryRead qid ext (s : State) : exec (.entryRead qid ext) s = execEntryRead qid ext s := rfl
theorem exec_entryReRead qid ext (s : State) : exec (.entryReRead qid ext) s = execEntryReRead qid ext s := rfl
theorem exec_entryDispatch qid cb (s : State) : exec (.entryDispatch qid cb) s = execEntryDispatch qid cb s := rfl
theorem exec_nopEntry op (s : State) : exec (.nopEntry op) s = execNopEntry op s := rfl
theorem exec_launchArray op (s : State) : exec (.launchArray op) s = execLaunchArray op s := rfl
theorem exec_launchThreads op (s : State) : exec (.launchThreads op) s = execLaunchThreads op s := rfl
theorem exec_copy op (s : State) : exec (.copy op) s = execCopy op s := rfl
theorem exec_collective op (s : State) : exec (.collective op) s = execCollective op s := rfl
theorem exec_coreTask op pick (s : State) : exec (.coreTask op pick) s = execCoreTask op pick s := rfl
theorem exec_feWait op (s : State) : exec (.feWait op) s = execFeWait op s := rfl
theorem exec_feSignal op (s : State) : exec (.feSignal op) s = execFeSignal op s := rfl
theorem exec_feAlloc op base frames (s : State) : exec (.feAlloc op base frames) s = execFeAlloc op base frames s := rfl
theorem exec_feFree op (s : State) : exec (.feFree op) s = execFeFree op s := rfl
theorem exec_feInvalidate op (s : State) : exec (.feInvalidate op) s = execFeInvalidate op s := rfl
theorem exec_graphLaunch op (s : State) : exec (.graphLaunch op) s = execGraphLaunch op s := rfl
theorem exec_createContext op rootPa (s : State) : exec (.createContext op rootPa) s = execCreateContext op rootPa s := rfl
theorem exec_destroyContext op (s : State) : exec (.destroyContext op) s = execDestroyContext op s := rfl
theorem exec_createQueue op fcore (s : State) : exec (.createQueue op fcore) s = execCreateQueue op fcore s := rfl
theorem exec_resetQueue op (s : State) : exec (.resetQueue op) s = execResetQueue op s := rfl
theorem exec_resumeQueue op (s : State) : exec (.resumeQueue op) s = execResumeQueue op s := rfl
theorem exec_destroyQueue op (s : State) : exec (.destroyQueue op) s = execDestroyQueue op s := rfl
theorem exec_createFence op (s : State) : exec (.createFence op) s = execCreateFence op s := rfl
theorem exec_destroyFence op (s : State) : exec (.destroyFence op) s = execDestroyFence op s := rfl
theorem exec_graphCreate op nodes edges (s : State) : exec (.graphCreate op nodes edges) s = execGraphCreate op nodes edges s := rfl
theorem exec_graphPatch op node (s : State) : exec (.graphPatch op node) s = execGraphPatch op node s := rfl
theorem exec_graphDestroy op (s : State) : exec (.graphDestroy op) s = execGraphDestroy op s := rfl
theorem exec_allocPhys op frame (s : State) : exec (.allocPhys op frame) s = execAllocPhys op frame s := rfl
theorem exec_freePhys op (s : State) : exec (.freePhys op) s = execFreePhys op s := rfl
theorem exec_operationComplete op (s : State) : exec (.operationComplete op) s = execOperationComplete op s := rfl
theorem exec_fenceTimeout qid (s : State) : exec (.fenceTimeout qid) s = execFenceTimeout qid s := rfl
theorem exec_coreTaskTimeout core (s : State) : exec (.coreTaskTimeout core) s = execCoreTaskTimeout core s := rfl
theorem exec_functionDisable f (s : State) : exec (.functionDisable f) s = execFunctionDisable f s := rfl
theorem exec_functionEnable f (s : State) : exec (.functionEnable f) s = execFunctionEnable f s := rfl
theorem exec_functionDrainTimeout f (s : State) : exec (.functionDrainTimeout f) s = execFunctionDrainTimeout f s := rfl
theorem exec_feFenceSignal index (s : State) : exec (.feFenceSignal index) s = execFeFenceSignal index s := rfl
theorem exec_clrError index (s : State) : exec (.clrError index) s = execClrError index s := rfl
theorem exec_adminRingEnable isCq v (s : State) : exec (.adminRingEnable isCq v) s = execAdminRingEnable isCq v s := rfl
theorem exec_interruptHoldoffExpiry vec (s : State) : exec (.interruptHoldoffExpiry vec) s = execInterruptHoldoffExpiry vec s := rfl
theorem exec_portEnable port (s : State) : exec (.portEnable port) s = execPortEnable port s := rfl
theorem exec_linkStepTimeout link (s : State) : exec (.linkStepTimeout link) s = execLinkStepTimeout link s := rfl
theorem exec_linkRestart link (s : State) : exec (.linkRestart link) s = execLinkRestart link s := rfl
theorem exec_laneFailure link lane (s : State) : exec (.laneFailure link lane) s = execLaneFailure link lane s := rfl
theorem exec_laneRepair link (s : State) : exec (.laneRepair link) s = execLaneRepair link s := rfl
theorem exec_dataFlit link hdr crcOk (s : State) : exec (.dataFlit link hdr crcOk) s = execDataFlit link hdr crcOk s := rfl
theorem exec_linkNak link seq (s : State) : exec (.linkNak link seq) s = execLinkNak link seq s := rfl
theorem exec_nfpWr port p (s : State) : exec (.nfpWr port p) s = execNfpWr port p s := rfl
theorem exec_nfpRd port p (s : State) : exec (.nfpRd port p) s = execNfpRd port p s := rfl
theorem exec_nfpAtom port p (s : State) : exec (.nfpAtom port p) s = execNfpAtom port p s := rfl
theorem exec_fetch port p (s : State) : exec (.fetch port p) s = execFetch port p s := rfl
theorem exec_coll port p (s : State) : exec (.coll port p) s = execColl port p s := rfl
theorem exec_mgmt port p (s : State) : exec (.mgmt port p) s = execMgmt port p s := rfl
theorem exec_nfpAck p (s : State) : exec (.nfpAck p) s = execNfpAck p s := rfl
theorem exec_rdata p (s : State) : exec (.rdata p) s = execRdata p s := rfl
theorem exec_atomr p (s : State) : exec (.atomr p) s = execAtomr p s := rfl
theorem exec_nack p (s : State) : exec (.nack p) s = execNack p s := rfl
theorem exec_requestTimeout tag (s : State) : exec (.requestTimeout tag) s = execRequestTimeout tag s := rfl
theorem exec_jobEnd j (s : State) : exec (.jobEnd j) s = execJobEnd j s := rfl
theorem exec_exportWindowOpen n v (s : State) : exec (.exportWindowOpen n v) s = execExportWindowOpen n v s := rfl
theorem exec_exportWindowClose n (s : State) : exec (.exportWindowClose n) s = execExportWindowClose n s := rfl
theorem exec_collectiveTimeout op (s : State) : exec (.collectiveTimeout op) s = execCollectiveTimeout op s := rfl
theorem exec_ethernetFrame port dst etype vlans p (s : State) : exec (.ethernetFrame port dst etype vlans p) s = execEthernetFrame port dst etype vlans p s := rfl
theorem exec_straitWr addr data pmask (s : State) : exec (.straitWr addr data pmask) s = execStraitWr addr data pmask s := rfl
theorem exec_straitRd tag addr len (s : State) : exec (.straitRd tag addr len) s = execStraitRd tag addr len s := rfl
theorem exec_straitAtom tag addr aop a b (s : State) : exec (.straitAtom tag addr aop a b) s = execStraitAtom tag addr aop a b s := rfl
theorem exec_cpl tag status data pmask (s : State) : exec (.cpl tag status data pmask) s = execCpl tag status data pmask s := rfl
theorem exec_straitRequestTimeout tag (s : State) : exec (.straitRequestTimeout tag) s = execStraitRequestTimeout tag s := rfl
theorem exec_straitLinkDown (s : State) : exec .straitLinkDown s = execStraitLinkDown s := rfl
theorem exec_dmaTailWrite ch tail (s : State) : exec (.dmaTailWrite ch tail) s = execDmaTailWrite ch tail s := rfl
theorem exec_dmaDescriptorComplete ch ext err (s : State) : exec (.dmaDescriptorComplete ch ext err) s = execDmaDescriptorComplete ch ext err s := rfl
theorem exec_dmaChannelEnable ch en (s : State) : exec (.dmaChannelEnable ch en) s = execDmaChannelEnable ch en s := rfl
theorem exec_moduleTakeOut link m (s : State) : exec (.moduleTakeOut link m) s = execModuleTakeOut link m s := rfl
theorem exec_narrowsFlit link hdr crcOk ptype (s : State) : exec (.narrowsFlit link hdr crcOk ptype) s = execNarrowsFlit link hdr crcOk ptype s := rfl
theorem exec_narrowsNak link seq failed (s : State) : exec (.narrowsNak link seq failed) s = execNarrowsNak link seq failed s := rfl
theorem exec_moduleIdle link m (s : State) : exec (.moduleIdle link m) s = execModuleIdle link m s := rfl
theorem exec_dieResetRelease (s : State) : exec .dieResetRelease s = execDieResetRelease s := rfl
theorem exec_discoveryStepTimeout die (s : State) : exec (.discoveryStepTimeout die) s = execDiscoveryStepTimeout die s := rfl
theorem exec_identity die idn (s : State) : exec (.identity die idn) s = execIdentity die idn s := rfl
theorem exec_configuration (s : State) : exec .configuration s = execConfiguration s := rfl
theorem exec_confirm die (s : State) : exec (.confirm die) s = execConfirm die s := rfl
theorem exec_clockMasterFailure (s : State) : exec .clockMasterFailure s = execClockMasterFailure s := rfl
theorem exec_standbyRootFailure (s : State) : exec .standbyRootFailure s = execStandbyRootFailure s := rfl
theorem exec_referenceLoss (s : State) : exec .referenceLoss s = execReferenceLoss s := rfl
theorem exec_referenceReturn (s : State) : exec .referenceReturn s = execReferenceReturn s := rfl
theorem exec_dieReset die (s : State) : exec (.dieReset die) s = execDieReset die s := rfl
theorem exec_dieDrainComplete (s : State) : exec .dieDrainComplete s = execDieDrainComplete s := rfl
theorem exec_dieResetHoldEnd (s : State) : exec .dieResetHoldEnd s = execDieResetHoldEnd s := rfl
theorem exec_dieRejoinComplete idn (s : State) : exec (.dieRejoinComplete idn) s = execDieRejoinComplete idn s := rfl
theorem exec_twinLinkEnable en (s : State) : exec (.twinLinkEnable en) s = execTwinLinkEnable en s := rfl
theorem exec_partnerSilence (s : State) : exec .partnerSilence s = execPartnerSilence s := rfl
theorem exec_twinLinkDown (s : State) : exec .twinLinkDown s = execTwinLinkDown s := rfl
theorem exec_twnDispatch gdn qid entry (s : State) : exec (.twnDispatch gdn qid entry) s = execTwnDispatch gdn qid entry s := rfl
theorem exec_twnRefusal qid entry status cause (s : State) : exec (.twnRefusal qid entry status cause) s = execTwnRefusal qid entry status cause s := rfl
theorem exec_worldWrite addr mask data poisoned (s : State) : exec (.worldWrite addr mask data poisoned) s = execWorldWrite addr mask data poisoned s := rfl
theorem exec_twnAnswer isAtom addr len data (s : State) : exec (.twnAnswer isAtom addr len data) s = execTwnAnswer isAtom addr len data s := rfl
theorem exec_twnDecision dc (s : State) : exec (.twnDecision dc) s = execTwnDecision dc s := rfl
theorem exec_twnComplete gdn status cause exit (s : State) : exec (.twnComplete gdn status cause exit) s = execTwnComplete gdn status cause exit s := rfl
theorem exec_twnStream gdn addr mask data poisoned last (s : State) : exec (.twnStream gdn addr mask data poisoned last) s = execTwnStream gdn addr mask data poisoned last s := rfl
theorem exec_twnAck gdn (s : State) : exec (.twnAck gdn) s = execTwnAck gdn s := rfl
theorem exec_twnCommit gdn (s : State) : exec (.twnCommit gdn) s = execTwnCommit gdn s := rfl
theorem exec_twnDigest tseq dig (s : State) : exec (.twnDigest tseq dig) s = execTwnDigest tseq dig s := rfl
theorem exec_twnAgree tseq (s : State) : exec (.twnAgree tseq) s = execTwnAgree tseq s := rfl
theorem exec_twnDisagree tseq dig (s : State) : exec (.twnDisagree tseq dig) s = execTwnDisagree tseq dig s := rfl
theorem exec_twnPosted gdn (s : State) : exec (.twnPosted gdn) s = execTwnPosted gdn s := rfl
theorem exec_twnFailing (s : State) : exec .twnFailing s = execTwnFailing s := rfl
theorem exec_twnPair (s : State) : exec .twnPair s = execTwnPair s := rfl
theorem exec_verdictWindward (s : State) : exec .verdictWindward s = execVerdictWindward s := rfl
theorem exec_verdictLeeward (s : State) : exec .verdictLeeward s = execVerdictLeeward s := rfl
theorem exec_twnSolo (s : State) : exec .twnSolo s = execTwnSolo s := rfl
theorem exec_twnTakeover (s : State) : exec .twnTakeover s = execTwnTakeover s := rfl
theorem exec_twnFence (s : State) : exec .twnFence s = execTwnFence s := rfl
theorem exec_verdictTimeout (s : State) : exec .verdictTimeout s = execVerdictTimeout s := rfl
theorem exec_seedingCopyComplete (s : State) : exec .seedingCopyComplete s = execSeedingCopyComplete s := rfl
theorem exec_coreSelfTestEnd die cluster fails unit (s : State) : exec (.coreSelfTestEnd die cluster fails unit) s = execCoreSelfTestEnd die cluster fails unit s := rfl
theorem exec_firmwareCoreFailure die f (s : State) : exec (.firmwareCoreFailure die f) s = execFirmwareCoreFailure die f s := rfl
theorem exec_shelfBlockFailure pkg stripes badDigest (s : State) : exec (.shelfBlockFailure pkg stripes badDigest) s = execShelfBlockFailure pkg stripes badDigest s := rfl
theorem exec_maintenanceEntry (s : State) : exec .maintenanceEntry s = execMaintenanceEntry s := rfl
theorem exec_maintenanceReached (s : State) : exec .maintenanceReached s = execMaintenanceReached s := rfl
theorem exec_maintenanceExit (s : State) : exec .maintenanceExit s = execMaintenanceExit s := rfl
theorem exec_testTile target (s : State) : exec (.testTile target) s = execTestTile target s := rfl
theorem exec_testTileAll (s : State) : exec .testTileAll s = execTestTileAll s := rfl
theorem exec_testCore target (s : State) : exec (.testCore target) s = execTestCore target s := rfl
theorem exec_shelfScan (s : State) : exec .shelfScan s = execShelfScan s := rfl
theorem exec_testCommandComplete failed unit (s : State) : exec (.testCommandComplete failed unit) s = execTestCommandComplete failed unit s := rfl
theorem exec_tidemarkReport n (s : State) : exec (.tidemarkReport n) s = execTidemarkReport n s := rfl
theorem exec_spillDrain (s : State) : exec .spillDrain s = execSpillDrain s := rfl
theorem exec_tdmAck fatal seq (s : State) : exec (.tdmAck fatal seq) s = execTdmAck fatal seq s := rfl
theorem exec_tdmOpen dump spill (s : State) : exec (.tdmOpen dump spill) s = execTdmOpen dump spill s := rfl
theorem exec_dumpRelease (s : State) : exec .dumpRelease s = execDumpRelease s := rfl
theorem exec_lcTransition target confirm (s : State) : exec (.lcTransition target confirm) s = execLcTransition target confirm s := rfl
theorem exec_quote mask (s : State) : exec (.quote mask) s = execQuote mask s := rfl
theorem exec_mrExtend index (s : State) : exec (.mrExtend index) s = execMrExtend index s := rfl
theorem exec_patchStage (s : State) : exec .patchStage s = execPatchStage s := rfl
theorem exec_patchClear (s : State) : exec .patchClear s = execPatchClear s := rfl
theorem exec_rollbackAdvance v (s : State) : exec (.rollbackAdvance v) s = execRollbackAdvance v s := rfl
theorem exec_cryptoErase confirm (s : State) : exec (.cryptoErase confirm) s = execCryptoErase confirm s := rfl
theorem exec_installCert (s : State) : exec .installCert s = execInstallCert s := rfl
theorem exec_lcAdvance (s : State) : exec .lcAdvance s = execLcAdvance s := rfl
theorem exec_tapBypass (s : State) : exec .tapBypass s = execTapBypass s := rfl
theorem exec_tapIdcode (s : State) : exec .tapIdcode s = execTapIdcode s := rfl
theorem exec_tapSamplePreload (s : State) : exec .tapSamplePreload s = execTapSamplePreload s := rfl
theorem exec_tapExtest (s : State) : exec .tapExtest s = execTapExtest s := rfl
theorem exec_tapClamp (s : State) : exec .tapClamp s = execTapClamp s := rfl
theorem exec_tapHighz (s : State) : exec .tapHighz s = execTapHighz s := rfl
theorem exec_tapEscape mode (s : State) : exec (.tapEscape mode) s = execTapEscape mode s := rfl
theorem exec_entropyHealthFailure die (s : State) : exec (.entropyHealthFailure die) s = execEntropyHealthFailure die s := rfl
theorem exec_leak (s : State) : exec .leak s = execLeak s := rfl
theorem exec_converterStart railFail (s : State) : exec (.converterStart railFail) s = execConverterStart railFail s := rfl
theorem exec_pwrGood (s : State) : exec .pwrGood s = execPwrGood s := rfl
theorem exec_modEnFall (s : State) : exec .modEnFall s = execModEnFall s := rfl
theorem exec_inputLoss (s : State) : exec .inputLoss s = execInputLoss s := rfl
theorem exec_vddAccFault die (s : State) : exec (.vddAccFault die) s = execVddAccFault die s := rfl
theorem exec_limitSample lim reading (s : State) : exec (.limitSample lim reading) s = execLimitSample lim reading s := rfl
theorem exec_divisorChange (s : State) : exec .divisorChange s = execDivisorChange s := rfl
theorem exec_meterFrame (s : State) : exec .meterFrame s = execMeterFrame s := rfl
theorem exec_meterStale (s : State) : exec .meterStale s = execMeterStale s := rfl
theorem exec_meterPulse (s : State) : exec .meterPulse s = execMeterPulse s := rfl
theorem exec_meterSupplyChange up (s : State) : exec (.meterSupplyChange up) s = execMeterSupplyChange up s := rfl
theorem exec_coverOpening (s : State) : exec .coverOpening s = execCoverOpening s := rfl
theorem exec_readEnergy index (s : State) : exec (.readEnergy index) s = execReadEnergy index s := rfl
theorem exec_readIdent index (s : State) : exec (.readIdent index) s = execReadIdent index s := rfl
theorem exec_readLog index (s : State) : exec (.readLog index) s = execReadLog index s := rfl
theorem exec_readStatus index (s : State) : exec (.readStatus index) s = execReadStatus index s := rfl
theorem exec_coldRstN (s : State) : exec .coldRstN s = execColdRstN s := rfl
theorem exec_warmRstN (s : State) : exec .warmRstN s = execWarmRstN s := rfl
theorem exec_resetCold (s : State) : exec .resetCold s = execResetCold s := rfl
theorem exec_resetWarm (s : State) : exec .resetWarm s = execResetWarm s := rfl
theorem exec_hbmTrainingComplete badPcs stackLost (s : State) : exec (.hbmTrainingComplete badPcs stackLost) s = execHbmTrainingComplete badPcs stackLost s := rfl
theorem exec_hardRepairComplete pc bankRow (s : State) : exec (.hardRepairComplete pc bankRow) s = execHardRepairComplete pc bankRow s := rfl
theorem exec_poolFillComplete (s : State) : exec .poolFillComplete s = execPoolFillComplete s := rfl
theorem exec_shelfDirectoryLoaded (s : State) : exec .shelfDirectoryLoaded s = execShelfDirectoryLoaded s := rfl
theorem exec_servicesStart (s : State) : exec .servicesStart s = execServicesStart s := rfl
theorem exec_startUpReady (s : State) : exec .startUpReady s = execStartUpReady s := rfl
theorem exec_coreInstruction core w (s : State) : exec (.coreInstruction core w) s = execCoreInstruction core w s := rfl
theorem exec_coreMemoryResponse core err ext (s : State) : exec (.coreMemoryResponse core err ext) s = execCoreMemoryResponse core err ext s := rfl
theorem exec_unknownOpcode op (s : State) : exec (.unknownOpcode op) s = execUnknownOpcode op s := rfl
theorem exec_laneIllegalInstruction l (s : State) : exec (.laneIllegalInstruction l) s = execLaneIllegalInstruction l s := rfl
theorem exec_trainingStepComplete link ok (s : State) : exec (.trainingStepComplete link ok) s = execTrainingStepComplete link ok s := rfl
theorem exec_atomrHoldExpiry src tag epoch (s : State) : exec (.atomrHoldExpiry src tag epoch) s = execAtomrHoldExpiry src tag epoch s := rfl
theorem exec_dumpComplete (s : State) : exec .dumpComplete s = execDumpComplete s := rfl
theorem exec_secCommandComplete (s : State) : exec .secCommandComplete s = execSecCommandComplete s := rfl
theorem exec_railFault rail (s : State) : exec (.railFault rail) s = execRailFault rail s := rfl
theorem exec_meterUnknownCmd cmd (s : State) : exec (.meterUnknownCmd cmd) s = execMeterUnknownCmd cmd s := rfl
theorem exec_shelfPackagesInitialised fails (s : State) : exec (.shelfPackagesInitialised fails) s = execShelfPackagesInitialised fails s := rfl
theorem exec_standbyCtuCopyComplete (s : State) : exec .standbyCtuCopyComplete s = execStandbyCtuCopyComplete s := rfl

end Sys2Proof.Machine
end

