-- ==== Sys2Proof/Laws/Tables.lean ====
section
/-! SUPPORT. The laws of the sparse tables: a read after a write, and the canonical form that every write keeps. -/

namespace Sys2Proof.Machine

variable {α : Type}

theorem sget_sinsert (dflt : Nat → α) (t : Sparse α) (k k' : Nat) (v : α) (h : ∀ p ∈ t, p.1 ≠ k) :
    sget dflt (sinsert t k v) k' = if k' = k then v else sget dflt t k' := by
  induction t with
  | nil => simp [sinsert, sget]
  | cons p r ih =>
    obtain ⟨j, w⟩ := p
    have hj : j ≠ k := h (j, w) (List.mem_cons_self ..)
    have ih := ih fun p hp => h p (List.mem_cons_of_mem _ hp)
    by_cases hk : k < j
    · simp [sinsert, hk, sget]
    · by_cases h1 : k' = j
      · subst h1
        simp [sinsert, hk, sget, hj]
      · simp [sinsert, hk, sget, h1, ih]

theorem sget_drop (dflt : Nat → α) (t : Sparse α) (k k' : Nat) :
    sget dflt (t.filter fun p => !(p.1 == k)) k' = if k' = k then dflt k else sget dflt t k' := by
  induction t with
  | nil => by_cases h : k' = k <;> simp [sget, h]
  | cons p r ih =>
    obtain ⟨j, w⟩ := p
    by_cases hj : j = k
    · subst hj
      by_cases h : k' = j
      · simpa [h] using (by simpa [h] using ih)
      · simpa [h, sget] using (by simpa [h] using ih)
    · by_cases h : k' = j
      · subst h
        simp [sget, hj]
      · simpa [List.filter_cons, sget, h, hj] using ih

/-- A read after a write: the value written at its key, and every other key as before. -/
@[simp] theorem sget_sput [DecidableEq α] (dflt : Nat → α) (t : Sparse α) (k k' : Nat) (v : α) :
    sget dflt (sput dflt t k v) k' = if k' = k then v else sget dflt t k' := by
  unfold sput
  by_cases hv : v = dflt k
  · simp only [hv, if_true]
    rw [sget_drop]
  · simp only [hv, if_false]
    rw [sget_sinsert _ _ _ _ _ (by simp), sget_drop]
    by_cases h : k' = k <;> simp [h]

theorem sget_sput_same [DecidableEq α] (dflt : Nat → α) (t : Sparse α) (k : Nat) (v : α) :
    sget dflt (sput dflt t k v) k = v := by simp

theorem sget_sput_ne [DecidableEq α] (dflt : Nat → α) (t : Sparse α) (k k' : Nat) (v : α) (h : k' ≠ k) :
    sget dflt (sput dflt t k v) k' = sget dflt t k' := by simp [h]

/-- A read after a range is cleared: the default inside it, and every other key as before. -/
@[simp] theorem sget_sclear (dflt : Nat → α) (t : Sparse α) (lo hi k : Nat) :
    sget dflt (sclear t lo hi) k = if lo ≤ k ∧ k < hi then dflt k else sget dflt t k := by
  induction t with
  | nil => simp [sclear, sget]
  | cons p r ih =>
    obtain ⟨j, w⟩ := p
    unfold sclear at ih ⊢
    by_cases hj : lo ≤ j ∧ j < hi
    · by_cases h : k = j
      · subst h
        simpa [hj] using (by simpa [hj] using ih)
      · simpa [hj, sget, h] using ih
    · have hj' : (!(decide (lo ≤ j) && decide (j < hi))) = true := by
        by_cases h1 : lo ≤ j
        · simpa [h1] using fun h2 => hj ⟨h1, h2⟩
        · simp [h1]
      by_cases h : k = j
      · subst h
        rw [List.filter_cons, if_pos hj', sget, if_pos rfl, if_neg hj, sget, if_pos rfl]
      · simp only [List.filter_cons, hj', if_true, sget, h, if_false]
        exact ih

/-! ### The canonical form -/

theorem swfAbove_mono [DecidableEq α] (dflt : Nat → α) (t : Sparse α) (a b : Nat) (h : a ≤ b)
    (ht : swfAbove dflt b t = true) : swfAbove dflt a t = true := by
  cases t with
  | nil => rfl
  | cons p r =>
    obtain ⟨j, w⟩ := p
    simp only [swfAbove, Bool.and_eq_true, decide_eq_true_eq] at ht ⊢
    exact ⟨⟨by omega, ht.1.2⟩, ht.2⟩

theorem swfAbove_filter [DecidableEq α] (dflt : Nat → α) (q : Nat × α → Bool) (t : Sparse α) (b : Nat)
    (ht : swfAbove dflt b t = true) : swfAbove dflt b (t.filter q) = true := by
  induction t generalizing b with
  | nil => rfl
  | cons p r ih =>
    obtain ⟨j, w⟩ := p
    simp only [swfAbove, Bool.and_eq_true, decide_eq_true_eq] at ht
    have hr := ih (j + 1) ht.2
    by_cases hq : q (j, w) = true
    · simp [hq, swfAbove, ht.1, hr]
    · simpa [hq] using swfAbove_mono dflt _ b (j + 1) (by omega) hr

theorem swfAbove_sinsert [DecidableEq α] (dflt : Nat → α) (t : Sparse α) (k b : Nat) (v : α) (hv : v ≠ dflt k)
    (hb : b ≤ k) (hk : ∀ p ∈ t, p.1 ≠ k) (ht : swfAbove dflt b t = true) : swfAbove dflt b (sinsert t k v) = true := by
  induction t generalizing b with
  | nil => simp [sinsert, swfAbove, hv, hb]
  | cons p r ih =>
    obtain ⟨j, w⟩ := p
    have hj : j ≠ k := hk (j, w) (List.mem_cons_self ..)
    simp only [swfAbove, Bool.and_eq_true, decide_eq_true_eq] at ht
    by_cases h : k < j
    · simp only [sinsert, h, if_true, swfAbove, Bool.and_eq_true, decide_eq_true_eq]
      exact ⟨⟨hb, hv⟩, ⟨⟨by omega, ht.1.2⟩, ht.2⟩⟩
    · simp only [sinsert, h, if_false, swfAbove, Bool.and_eq_true, decide_eq_true_eq]
      exact ⟨ht.1, ih (j + 1) (by omega) (fun p hp => hk p (List.mem_cons_of_mem _ hp)) ht.2⟩

/-- A write keeps the canonical form. -/
theorem swf_sput [DecidableEq α] (dflt : Nat → α) (t : Sparse α) (k : Nat) (v : α) (ht : swf dflt t = true) :
    swf dflt (sput dflt t k v) = true := by
  unfold swf sput at *
  have hf := swfAbove_filter dflt (fun p => !(p.1 == k)) t 0 ht
  by_cases hv : v = dflt k
  · simpa [hv] using hf
  · simpa [hv] using swfAbove_sinsert dflt _ k 0 v hv (by omega) (by simp) hf

/-- Clearing a range keeps the canonical form. -/
theorem swf_sclear [DecidableEq α] (dflt : Nat → α) (t : Sparse α) (lo hi : Nat) (ht : swf dflt t = true) :
    swf dflt (sclear t lo hi) = true := swfAbove_filter dflt _ t 0 ht

end Sys2Proof.Machine
end

