-- ==== Sys2Proof/Laws/Memory.lean ====
section
/-! SUPPORT. The laws of the memory: what a byte reads after a write, and that every memory operation keeps the canonical form. -/

namespace Sys2Proof.Machine

/-- A byte after a write of bytes from an address on: the byte written there, or as before. -/
theorem sget_hbmWrite (m : Sparse Byte) (a : Nat) (bs : List Byte) (k : Nat) :
    sget (fun _ => 0) (hbmWrite m a bs) k = if a ≤ k ∧ k < a + bs.length then bs.getD (k - a) 0 else sget (fun _ => 0) m k := by
  induction bs generalizing m a with
  | nil => rw [hbmWrite, if_neg (by simp)]
  | cons b r ih =>
    rw [hbmWrite, ih, sget_sput]
    rcases Nat.lt_trichotomy k a with h | h | h
    · rw [if_neg (by omega), if_neg (by omega), if_neg (by omega)]
    · subst h
      rw [if_neg (by omega), if_pos rfl, if_pos ⟨Nat.le_refl _, by simp⟩]
      simp
    · by_cases h2 : k < a + 1 + r.length
      · rw [if_pos ⟨by omega, h2⟩, if_pos ⟨by omega, by simp only [List.length_cons]; omega⟩]
        have e : k - a = (k - (a + 1)) + 1 := by omega
        rw [e, List.getD_cons_succ]
      · rw [if_neg (by omega), if_neg (by omega), if_neg (by simp only [List.length_cons]; omega)]

theorem swf_hbmWrite (m : Sparse Byte) (a : Nat) (bs : List Byte) (h : swf (fun _ => (0 : Byte)) m = true) :
    swf (fun _ => (0 : Byte)) (hbmWrite m a bs) = true := by
  induction bs generalizing m a with
  | nil => exact h
  | cons b r ih => exact ih _ _ (swf_sput _ _ _ _ h)

theorem swf_foldl_sput {β : Type} (l : List β) (key : β → Nat) (val : Sparse Bool → β → Bool) (m : Sparse Bool)
    (h : swf (fun _ => false) m = true) :
    swf (fun _ => false) (l.foldl (fun m i => sput (fun _ => false) m (key i) (val m i)) m) = true := by
  induction l generalizing m with
  | nil => exact h
  | cons x r ih => exact ih _ (swf_sput _ _ _ _ h)

theorem swf_poisonWrite (m : Sparse Bool) (a n : Nat) (bad : Bool) (h : swf (fun _ => false) m = true) :
    swf (fun _ => false) (poisonWrite m a n bad) = true := swf_foldl_sput _ _ _ m h

theorem Dev.recall_wf (d : Dev) (line : Nat) (h : Memory.wf d.pool) : Memory.wf (d.recall line).pool := by
  unfold Dev.recall
  cases d.dirtyLine (line * 64) with
  | none => exact h
  | some l => exact ⟨swf_hbmWrite _ _ _ h.1, swf_sput _ _ _ _ h.2⟩

theorem Dev.foldl_recall_wf (l : List Nat) (k : Nat) (d : Dev) (h : Memory.wf d.pool) :
    Memory.wf (l.foldl (fun d i => d.recall (k + i)) d).pool := by
  induction l generalizing d with
  | nil => exact h
  | cons x r ih => exact ih _ (d.recall_wf _ h)

theorem Dev.recallRange_wf (d : Dev) (a n : Nat) (h : Memory.wf d.pool) : Memory.wf (d.recallRange a n).pool :=
  d.foldl_recall_wf _ _ h

theorem Dev.putBytes_wf (d : Dev) (a : Nat) (bs : List Byte) (bad : Bool) (h : Memory.wf d.pool) :
    Memory.wf (d.putBytes a bs bad).pool :=
  have h' := d.recallRange_wf a bs.length h
  ⟨swf_hbmWrite _ _ _ h'.1, swf_poisonWrite _ _ _ _ h'.2⟩

theorem Dev.putNat_wf (d : Dev) (a n v : Nat) (h : Memory.wf d.pool) : Memory.wf (d.putNat a n v).pool := d.putBytes_wf _ _ _ h

theorem Dev.zeroFill_wf (d : Dev) (lo hi : Nat) (h : Memory.wf d.pool) : Memory.wf (d.zeroFill lo hi).pool :=
  ⟨swf_sclear _ _ _ _ h.1, swf_sclear _ _ _ _ h.2⟩

theorem Dev.rawWrite_wf (d : Dev) (a : Nat) (bs : List Byte) (h : Memory.wf d.pool) : Memory.wf (d.rawWrite a bs).pool :=
  ⟨swf_hbmWrite _ _ _ h.1, swf_poisonWrite _ _ _ _ h.2⟩

/-- The memory after reset has its canonical form. -/
theorem reset_mem_wf : Memory.wf State.reset.dev.pool := by decide

/-- A byte of the memory after a raw write. -/
theorem Dev.memByte_rawWrite (d : Dev) (a : Nat) (bs : List Byte) (k : Nat) :
    (d.rawWrite a bs).memByte k = if a ≤ k ∧ k < a + bs.length then bs.getD (k - a) 0 else d.memByte k :=
  sget_hbmWrite _ _ _ _

/-- A byte of the memory after a zero fill. -/
theorem Dev.memByte_zeroFill (d : Dev) (lo hi k : Nat) :
    (d.zeroFill lo hi).memByte k = if lo ≤ k ∧ k < hi then 0 else d.memByte k := sget_sclear _ _ _ _ _

end Sys2Proof.Machine
end

