-- ==== Sys2Proof/Laws/Regs.lean ====
section
/-! SUPPORT. The laws of registers and their fields: what a field reads after a write of it, of another field and of another register. -/

namespace Sys2Proof.Machine

/-- The number that `withField` writes, before it is narrowed. -/
theorem withField_toNat (w : Word) (hi lo v : Nat) (hh : hi < 64) (hl : lo ≤ hi) :
    (withField w hi lo v).toNat =
      w.toNat % 2 ^ lo + 2 ^ lo * (v % 2 ^ (hi + 1 - lo) + 2 ^ (hi + 1 - lo) * (w.toNat / 2 ^ (hi + 1))) := by
  have e : 2 ^ (hi + 1) = 2 ^ lo * 2 ^ (hi + 1 - lo) := by rw [← Nat.pow_add]; congr 1; omega
  have hw : w.toNat < 2 ^ 64 := w.isLt
  have e64 : 2 ^ 64 = 2 ^ (hi + 1) * 2 ^ (64 - (hi + 1)) := by rw [← Nat.pow_add]; congr 1; omega
  have hq : w.toNat / 2 ^ (hi + 1) < 2 ^ (64 - (hi + 1)) := by
    rw [Nat.div_lt_iff_lt_mul (Nat.two_pow_pos _), Nat.mul_comm, ← e64]; exact hw
  have ha : w.toNat % 2 ^ lo < 2 ^ lo := Nat.mod_lt _ (Nat.two_pow_pos _)
  have hv : v % 2 ^ (hi + 1 - lo) < 2 ^ (hi + 1 - lo) := Nat.mod_lt _ (Nat.two_pow_pos _)
  have h1 : w.toNat % 2 ^ lo + 2 ^ lo * (v % 2 ^ (hi + 1 - lo)) < 2 ^ (hi + 1) := by
    rw [e]
    calc _ < 2 ^ lo + 2 ^ lo * (v % 2 ^ (hi + 1 - lo)) := by omega
      _ = 2 ^ lo * (v % 2 ^ (hi + 1 - lo) + 1) := by rw [Nat.mul_add, Nat.mul_one, Nat.add_comm]
      _ ≤ 2 ^ lo * 2 ^ (hi + 1 - lo) := Nat.mul_le_mul_left _ hv
  have h2 : 2 ^ (hi + 1) * (w.toNat / 2 ^ (hi + 1) + 1) ≤ 2 ^ 64 := by
    rw [e64]; exact Nat.mul_le_mul_left _ hq
  unfold withField
  rw [BitVec.toNat_ofNat, Nat.mod_eq_of_lt]
  · rw [Nat.mul_add, ← Nat.mul_assoc, ← e, Nat.mul_comm (v % _), Nat.mul_comm (w.toNat / _), Nat.add_assoc]
  · rw [Nat.mul_comm (v % _), Nat.mul_comm (w.toNat / _)]
    rw [Nat.mul_add, Nat.mul_one] at h2
    omega

/-- A field reads what was written to it, modulo its width. -/
theorem fieldOf_withField_same (w : Word) (hi lo v : Nat) (hh : hi < 64) (hl : lo ≤ hi) :
    fieldOf (withField w hi lo v) hi lo = v % 2 ^ (hi + 1 - lo) := by
  have hp : 0 < 2 ^ lo := Nat.two_pow_pos _
  unfold fieldOf
  rw [withField_toNat w hi lo v hh hl, Nat.add_mul_div_left _ _ hp, Nat.div_eq_of_lt (Nat.mod_lt _ hp), Nat.zero_add,
    Nat.add_mul_mod_self_left, Nat.mod_mod]

theorem testBit_withField (w : Word) (hi lo v i : Nat) (hh : hi < 64) (hl : lo ≤ hi) (hi' : i < lo ∨ hi < i) :
    (withField w hi lo v).toNat.testBit i = w.toNat.testBit i := by
  have hp : 0 < 2 ^ lo := Nat.two_pow_pos _
  rw [withField_toNat w hi lo v hh hl]
  rcases hi' with h | h
  · have := Nat.testBit_mod_two_pow (w.toNat % 2 ^ lo + 2 ^ lo * (v % 2 ^ (hi + 1 - lo) + 2 ^ (hi + 1 - lo) * (w.toNat / 2 ^ (hi + 1)))) lo i
    rw [Nat.add_mul_mod_self_left, Nat.mod_mod, Nat.testBit_mod_two_pow] at this
    simpa [h] using this.symm
  · have e : 2 ^ (hi + 1) = 2 ^ lo * 2 ^ (hi + 1 - lo) := by rw [← Nat.pow_add]; congr 1; omega
    have hq : (w.toNat % 2 ^ lo + 2 ^ lo * (v % 2 ^ (hi + 1 - lo) + 2 ^ (hi + 1 - lo) * (w.toNat / 2 ^ (hi + 1)))) / 2 ^ (hi + 1)
        = w.toNat / 2 ^ (hi + 1) := by
      rw [e, ← Nat.div_div_eq_div_mul, Nat.add_mul_div_left _ _ hp, Nat.div_eq_of_lt (Nat.mod_lt _ hp), Nat.zero_add,
        Nat.add_mul_div_left _ _ (Nat.two_pow_pos _), Nat.div_eq_of_lt (Nat.mod_lt _ (Nat.two_pow_pos _)), Nat.zero_add]
    have e2 : hi + 1 + (i - (hi + 1)) = i := by omega
    have h1 := congrArg (fun n => n.testBit (i - (hi + 1))) hq
    simpa [Nat.testBit_div_two_pow, e2, Nat.add_comm] using h1

/-- A field reads as before a write of a field of the same word that does not overlap it. -/
theorem fieldOf_withField_disjoint (w : Word) (hi lo v hi' lo' : Nat) (hh : hi < 64) (hl : lo ≤ hi) (hl' : lo' ≤ hi')
    (hd : hi' < lo ∨ hi < lo') : fieldOf (withField w hi lo v) hi' lo' = fieldOf w hi' lo' := by
  unfold fieldOf
  apply Nat.eq_of_testBit_eq
  intro i
  rw [Nat.testBit_mod_two_pow, Nat.testBit_mod_two_pow, Nat.testBit_div_two_pow, Nat.testBit_div_two_pow]
  by_cases h : i < hi' + 1 - lo'
  · rw [testBit_withField w hi lo v _ hh hl (by omega)]
  · simp [h]

/-! ### Registers of the device -/

@[simp] theorem Dev.word_setWord (d : Dev) (off off' : Nat) (v : Word) :
    (d.setWord off v).word off' = if off' = off then v else d.word off' := by
  simp [Dev.word, Dev.setWord]

theorem Dev.word_wr (d : Dev) (f : Fld) (v off : Nat) :
    (d.wr f v).word off = if off = f.reg then withField (d.word f.reg) f.hi f.lo v else d.word off := by
  simp [Dev.wr]

theorem Dev.word_wr_ne (d : Dev) (f : Fld) (v off : Nat) (h : off ≠ f.reg) : (d.wr f v).word off = d.word off := by
  simp [Dev.word_wr, h]

theorem Dev.rd_wr_same (d : Dev) (f : Fld) (v : Nat) (hh : f.hi < 64) (hl : f.lo ≤ f.hi) :
    (d.wr f v).rd f = v % 2 ^ (f.hi + 1 - f.lo) := by
  simp [Dev.rd, Dev.word_wr, fieldOf_withField_same _ _ _ _ hh hl]

theorem Dev.rd_wr_ne (d : Dev) (f g : Fld) (v : Nat) (h : g.reg ≠ f.reg) : (d.wr f v).rd g = d.rd g := by
  simp [Dev.rd, Dev.word_wr, h]

theorem Dev.rd_wr_disjoint (d : Dev) (f g : Fld) (v : Nat) (hh : f.hi < 64) (hl : f.lo ≤ f.hi) (hg : g.lo ≤ g.hi)
    (hd : g.hi < f.lo ∨ f.hi < g.lo) : (d.wr f v).rd g = d.rd g := by
  unfold Dev.rd
  rw [Dev.word_wr]
  by_cases h : g.reg = f.reg
  · simp [h, fieldOf_withField_disjoint _ _ _ _ _ _ hh hl hg hd]
  · simp [h]

/-- An event leaves every register and field as it was and is the last report. -/
@[simp] theorem Dev.word_event (d : Dev) (cls sev ev src a0 a1 a2 off : Nat) :
    (d.event cls sev ev src a0 a1 a2).word off = d.word off := rfl
@[simp] theorem Dev.rd_event (d : Dev) (cls sev ev src a0 a1 a2 : Nat) (f : Fld) :
    (d.event cls sev ev src a0 a1 a2).rd f = d.rd f := rfl
@[simp] theorem Dev.reports_event (d : Dev) (cls sev ev src a0 a1 a2 : Nat) :
    (d.event cls sev ev src a0 a1 a2).tdm.reports = d.tdm.reports ++ [⟨cls, sev, ev, src, a0, a1, a2⟩] := rfl

end Sys2Proof.Machine
end

