-- ==== Sys2Proof/Laws/State.lean ====
section
/-! SUPPORT. One lemma per field of the device for each basic update: what the update leaves as it was. -/

namespace Sys2Proof.Machine

/-! ### setWord -/

@[simp] theorem Dev.setWord_pool (d : Dev) (off : Nat) (v : Word) : (d.setWord off v).pool = d.pool := rfl
@[simp] theorem Dev.setWord_seq (d : Dev) (off : Nat) (v : Word) : (d.setWord off v).seq = d.seq := rfl
@[simp] theorem Dev.setWord_tiles (d : Dev) (off : Nat) (v : Word) : (d.setWord off v).tiles = d.tiles := rfl
@[simp] theorem Dev.setWord_thr (d : Dev) (off : Nat) (v : Word) : (d.setWord off v).thr = d.thr := rfl
@[simp] theorem Dev.setWord_fe (d : Dev) (off : Nat) (v : Word) : (d.setWord off v).fe = d.fe := rfl
@[simp] theorem Dev.setWord_ctu (d : Dev) (off : Nat) (v : Word) : (d.setWord off v).ctu = d.ctu := rfl
@[simp] theorem Dev.setWord_tier (d : Dev) (off : Nat) (v : Word) : (d.setWord off v).tier = d.tier := rfl
@[simp] theorem Dev.setWord_coh (d : Dev) (off : Nat) (v : Word) : (d.setWord off v).coh = d.coh := rfl
@[simp] theorem Dev.setWord_cores (d : Dev) (off : Nat) (v : Word) : (d.setWord off v).cores = d.cores := rfl
@[simp] theorem Dev.setWord_nfp (d : Dev) (off : Nat) (v : Word) : (d.setWord off v).nfp = d.nfp := rfl
@[simp] theorem Dev.setWord_str (d : Dev) (off : Nat) (v : Word) : (d.setWord off v).str = d.str := rfl
@[simp] theorem Dev.setWord_nrw (d : Dev) (off : Nat) (v : Word) : (d.setWord off v).nrw = d.nrw := rfl
@[simp] theorem Dev.setWord_twn (d : Dev) (off : Nat) (v : Word) : (d.setWord off v).twn = d.twn := rfl
@[simp] theorem Dev.setWord_tdm (d : Dev) (off : Nat) (v : Word) : (d.setWord off v).tdm = d.tdm := rfl
@[simp] theorem Dev.setWord_sec (d : Dev) (off : Nat) (v : Word) : (d.setWord off v).sec = d.sec := rfl
@[simp] theorem Dev.setWord_ras (d : Dev) (off : Nat) (v : Word) : (d.setWord off v).ras = d.ras := rfl
@[simp] theorem Dev.setWord_pw (d : Dev) (off : Nat) (v : Word) : (d.setWord off v).pw = d.pw := rfl
@[simp] theorem Dev.setWord_boot (d : Dev) (off : Nat) (v : Word) : (d.setWord off v).boot = d.boot := rfl
@[simp] theorem Dev.setWord_out (d : Dev) (off : Nat) (v : Word) : (d.setWord off v).out = d.out := rfl
@[simp] theorem Dev.setWord_nv (d : Dev) (off : Nat) (v : Word) : (d.setWord off v).nv = d.nv := rfl
@[simp] theorem Dev.setWord_fresh (d : Dev) (off : Nat) (v : Word) : (d.setWord off v).fresh = d.fresh := rfl

/-! ### wr -/

@[simp] theorem Dev.wr_pool (d : Dev) (f : Fld) (v : Nat) : (d.wr f v).pool = d.pool := rfl
@[simp] theorem Dev.wr_seq (d : Dev) (f : Fld) (v : Nat) : (d.wr f v).seq = d.seq := rfl
@[simp] theorem Dev.wr_tiles (d : Dev) (f : Fld) (v : Nat) : (d.wr f v).tiles = d.tiles := rfl
@[simp] theorem Dev.wr_thr (d : Dev) (f : Fld) (v : Nat) : (d.wr f v).thr = d.thr := rfl
@[simp] theorem Dev.wr_fe (d : Dev) (f : Fld) (v : Nat) : (d.wr f v).fe = d.fe := rfl
@[simp] theorem Dev.wr_ctu (d : Dev) (f : Fld) (v : Nat) : (d.wr f v).ctu = d.ctu := rfl
@[simp] theorem Dev.wr_tier (d : Dev) (f : Fld) (v : Nat) : (d.wr f v).tier = d.tier := rfl
@[simp] theorem Dev.wr_coh (d : Dev) (f : Fld) (v : Nat) : (d.wr f v).coh = d.coh := rfl
@[simp] theorem Dev.wr_cores (d : Dev) (f : Fld) (v : Nat) : (d.wr f v).cores = d.cores := rfl
@[simp] theorem Dev.wr_nfp (d : Dev) (f : Fld) (v : Nat) : (d.wr f v).nfp = d.nfp := rfl
@[simp] theorem Dev.wr_str (d : Dev) (f : Fld) (v : Nat) : (d.wr f v).str = d.str := rfl
@[simp] theorem Dev.wr_nrw (d : Dev) (f : Fld) (v : Nat) : (d.wr f v).nrw = d.nrw := rfl
@[simp] theorem Dev.wr_twn (d : Dev) (f : Fld) (v : Nat) : (d.wr f v).twn = d.twn := rfl
@[simp] theorem Dev.wr_tdm (d : Dev) (f : Fld) (v : Nat) : (d.wr f v).tdm = d.tdm := rfl
@[simp] theorem Dev.wr_sec (d : Dev) (f : Fld) (v : Nat) : (d.wr f v).sec = d.sec := rfl
@[simp] theorem Dev.wr_ras (d : Dev) (f : Fld) (v : Nat) : (d.wr f v).ras = d.ras := rfl
@[simp] theorem Dev.wr_pw (d : Dev) (f : Fld) (v : Nat) : (d.wr f v).pw = d.pw := rfl
@[simp] theorem Dev.wr_boot (d : Dev) (f : Fld) (v : Nat) : (d.wr f v).boot = d.boot := rfl
@[simp] theorem Dev.wr_out (d : Dev) (f : Fld) (v : Nat) : (d.wr f v).out = d.out := rfl
@[simp] theorem Dev.wr_nv (d : Dev) (f : Fld) (v : Nat) : (d.wr f v).nv = d.nv := rfl
@[simp] theorem Dev.wr_fresh (d : Dev) (f : Fld) (v : Nat) : (d.wr f v).fresh = d.fresh := rfl

/-! ### incBy -/

@[simp] theorem Dev.incBy_pool (d : Dev) (f : Fld) (n : Nat) : (d.incBy f n).pool = d.pool := rfl
@[simp] theorem Dev.incBy_seq (d : Dev) (f : Fld) (n : Nat) : (d.incBy f n).seq = d.seq := rfl
@[simp] theorem Dev.incBy_tiles (d : Dev) (f : Fld) (n : Nat) : (d.incBy f n).tiles = d.tiles := rfl
@[simp] theorem Dev.incBy_thr (d : Dev) (f : Fld) (n : Nat) : (d.incBy f n).thr = d.thr := rfl
@[simp] theorem Dev.incBy_fe (d : Dev) (f : Fld) (n : Nat) : (d.incBy f n).fe = d.fe := rfl
@[simp] theorem Dev.incBy_ctu (d : Dev) (f : Fld) (n : Nat) : (d.incBy f n).ctu = d.ctu := rfl
@[simp] theorem Dev.incBy_tier (d : Dev) (f : Fld) (n : Nat) : (d.incBy f n).tier = d.tier := rfl
@[simp] theorem Dev.incBy_coh (d : Dev) (f : Fld) (n : Nat) : (d.incBy f n).coh = d.coh := rfl
@[simp] theorem Dev.incBy_cores (d : Dev) (f : Fld) (n : Nat) : (d.incBy f n).cores = d.cores := rfl
@[simp] theorem Dev.incBy_nfp (d : Dev) (f : Fld) (n : Nat) : (d.incBy f n).nfp = d.nfp := rfl
@[simp] theorem Dev.incBy_str (d : Dev) (f : Fld) (n : Nat) : (d.incBy f n).str = d.str := rfl
@[simp] theorem Dev.incBy_nrw (d : Dev) (f : Fld) (n : Nat) : (d.incBy f n).nrw = d.nrw := rfl
@[simp] theorem Dev.incBy_twn (d : Dev) (f : Fld) (n : Nat) : (d.incBy f n).twn = d.twn := rfl
@[simp] theorem Dev.incBy_tdm (d : Dev) (f : Fld) (n : Nat) : (d.incBy f n).tdm = d.tdm := rfl
@[simp] theorem Dev.incBy_sec (d : Dev) (f : Fld) (n : Nat) : (d.incBy f n).sec = d.sec := rfl
@[simp] theorem Dev.incBy_ras (d : Dev) (f : Fld) (n : Nat) : (d.incBy f n).ras = d.ras := rfl
@[simp] theorem Dev.incBy_pw (d : Dev) (f : Fld) (n : Nat) : (d.incBy f n).pw = d.pw := rfl
@[simp] theorem Dev.incBy_boot (d : Dev) (f : Fld) (n : Nat) : (d.incBy f n).boot = d.boot := rfl
@[simp] theorem Dev.incBy_out (d : Dev) (f : Fld) (n : Nat) : (d.incBy f n).out = d.out := rfl
@[simp] theorem Dev.incBy_nv (d : Dev) (f : Fld) (n : Nat) : (d.incBy f n).nv = d.nv := rfl
@[simp] theorem Dev.incBy_fresh (d : Dev) (f : Fld) (n : Nat) : (d.incBy f n).fresh = d.fresh := rfl

/-! ### inc -/

@[simp] theorem Dev.inc_pool (d : Dev) (f : Fld) : (d.inc f).pool = d.pool := rfl
@[simp] theorem Dev.inc_seq (d : Dev) (f : Fld) : (d.inc f).seq = d.seq := rfl
@[simp] theorem Dev.inc_tiles (d : Dev) (f : Fld) : (d.inc f).tiles = d.tiles := rfl
@[simp] theorem Dev.inc_thr (d : Dev) (f : Fld) : (d.inc f).thr = d.thr := rfl
@[simp] theorem Dev.inc_fe (d : Dev) (f : Fld) : (d.inc f).fe = d.fe := rfl
@[simp] theorem Dev.inc_ctu (d : Dev) (f : Fld) : (d.inc f).ctu = d.ctu := rfl
@[simp] theorem Dev.inc_tier (d : Dev) (f : Fld) : (d.inc f).tier = d.tier := rfl
@[simp] theorem Dev.inc_coh (d : Dev) (f : Fld) : (d.inc f).coh = d.coh := rfl
@[simp] theorem Dev.inc_cores (d : Dev) (f : Fld) : (d.inc f).cores = d.cores := rfl
@[simp] theorem Dev.inc_nfp (d : Dev) (f : Fld) : (d.inc f).nfp = d.nfp := rfl
@[simp] theorem Dev.inc_str (d : Dev) (f : Fld) : (d.inc f).str = d.str := rfl
@[simp] theorem Dev.inc_nrw (d : Dev) (f : Fld) : (d.inc f).nrw = d.nrw := rfl
@[simp] theorem Dev.inc_twn (d : Dev) (f : Fld) : (d.inc f).twn = d.twn := rfl
@[simp] theorem Dev.inc_tdm (d : Dev) (f : Fld) : (d.inc f).tdm = d.tdm := rfl
@[simp] theorem Dev.inc_sec (d : Dev) (f : Fld) : (d.inc f).sec = d.sec := rfl
@[simp] theorem Dev.inc_ras (d : Dev) (f : Fld) : (d.inc f).ras = d.ras := rfl
@[simp] theorem Dev.inc_pw (d : Dev) (f : Fld) : (d.inc f).pw = d.pw := rfl
@[simp] theorem Dev.inc_boot (d : Dev) (f : Fld) : (d.inc f).boot = d.boot := rfl
@[simp] theorem Dev.inc_out (d : Dev) (f : Fld) : (d.inc f).out = d.out := rfl
@[simp] theorem Dev.inc_nv (d : Dev) (f : Fld) : (d.inc f).nv = d.nv := rfl
@[simp] theorem Dev.inc_fresh (d : Dev) (f : Fld) : (d.inc f).fresh = d.fresh := rfl

/-! ### event -/

@[simp] theorem Dev.event_regs (d : Dev) (c sv e sr a0 a1 a2 : Nat) : (d.event c sv e sr a0 a1 a2).regs = d.regs := rfl
@[simp] theorem Dev.event_pool (d : Dev) (c sv e sr a0 a1 a2 : Nat) : (d.event c sv e sr a0 a1 a2).pool = d.pool := rfl
@[simp] theorem Dev.event_seq (d : Dev) (c sv e sr a0 a1 a2 : Nat) : (d.event c sv e sr a0 a1 a2).seq = d.seq := rfl
@[simp] theorem Dev.event_tiles (d : Dev) (c sv e sr a0 a1 a2 : Nat) : (d.event c sv e sr a0 a1 a2).tiles = d.tiles := rfl
@[simp] theorem Dev.event_thr (d : Dev) (c sv e sr a0 a1 a2 : Nat) : (d.event c sv e sr a0 a1 a2).thr = d.thr := rfl
@[simp] theorem Dev.event_fe (d : Dev) (c sv e sr a0 a1 a2 : Nat) : (d.event c sv e sr a0 a1 a2).fe = d.fe := rfl
@[simp] theorem Dev.event_ctu (d : Dev) (c sv e sr a0 a1 a2 : Nat) : (d.event c sv e sr a0 a1 a2).ctu = d.ctu := rfl
@[simp] theorem Dev.event_tier (d : Dev) (c sv e sr a0 a1 a2 : Nat) : (d.event c sv e sr a0 a1 a2).tier = d.tier := rfl
@[simp] theorem Dev.event_coh (d : Dev) (c sv e sr a0 a1 a2 : Nat) : (d.event c sv e sr a0 a1 a2).coh = d.coh := rfl
@[simp] theorem Dev.event_cores (d : Dev) (c sv e sr a0 a1 a2 : Nat) : (d.event c sv e sr a0 a1 a2).cores = d.cores := rfl
@[simp] theorem Dev.event_nfp (d : Dev) (c sv e sr a0 a1 a2 : Nat) : (d.event c sv e sr a0 a1 a2).nfp = d.nfp := rfl
@[simp] theorem Dev.event_str (d : Dev) (c sv e sr a0 a1 a2 : Nat) : (d.event c sv e sr a0 a1 a2).str = d.str := rfl
@[simp] theorem Dev.event_nrw (d : Dev) (c sv e sr a0 a1 a2 : Nat) : (d.event c sv e sr a0 a1 a2).nrw = d.nrw := rfl
@[simp] theorem Dev.event_twn (d : Dev) (c sv e sr a0 a1 a2 : Nat) : (d.event c sv e sr a0 a1 a2).twn = d.twn := rfl
@[simp] theorem Dev.event_sec (d : Dev) (c sv e sr a0 a1 a2 : Nat) : (d.event c sv e sr a0 a1 a2).sec = d.sec := rfl
@[simp] theorem Dev.event_ras (d : Dev) (c sv e sr a0 a1 a2 : Nat) : (d.event c sv e sr a0 a1 a2).ras = d.ras := rfl
@[simp] theorem Dev.event_pw (d : Dev) (c sv e sr a0 a1 a2 : Nat) : (d.event c sv e sr a0 a1 a2).pw = d.pw := rfl
@[simp] theorem Dev.event_boot (d : Dev) (c sv e sr a0 a1 a2 : Nat) : (d.event c sv e sr a0 a1 a2).boot = d.boot := rfl
@[simp] theorem Dev.event_out (d : Dev) (c sv e sr a0 a1 a2 : Nat) : (d.event c sv e sr a0 a1 a2).out = d.out := rfl
@[simp] theorem Dev.event_nv (d : Dev) (c sv e sr a0 a1 a2 : Nat) : (d.event c sv e sr a0 a1 a2).nv = d.nv := rfl
@[simp] theorem Dev.event_fresh (d : Dev) (c sv e sr a0 a1 a2 : Nat) : (d.event c sv e sr a0 a1 a2).fresh = d.fresh := rfl
@[simp] theorem Dev.event_word (d : Dev) (c sv e sr a0 a1 a2 : Nat) (off : Nat) : (d.event c sv e sr a0 a1 a2).word off = d.word off := rfl
@[simp] theorem Dev.event_rd (d : Dev) (c sv e sr a0 a1 a2 : Nat) (g : Fld) : (d.event c sv e sr a0 a1 a2).rd g = d.rd g := rfl

/-! ### send -/

@[simp] theorem Dev.send_regs (d : Dev) (m : Msg) : (d.send m).regs = d.regs := rfl
@[simp] theorem Dev.send_pool (d : Dev) (m : Msg) : (d.send m).pool = d.pool := rfl
@[simp] theorem Dev.send_seq (d : Dev) (m : Msg) : (d.send m).seq = d.seq := rfl
@[simp] theorem Dev.send_tiles (d : Dev) (m : Msg) : (d.send m).tiles = d.tiles := rfl
@[simp] theorem Dev.send_thr (d : Dev) (m : Msg) : (d.send m).thr = d.thr := rfl
@[simp] theorem Dev.send_fe (d : Dev) (m : Msg) : (d.send m).fe = d.fe := rfl
@[simp] theorem Dev.send_ctu (d : Dev) (m : Msg) : (d.send m).ctu = d.ctu := rfl
@[simp] theorem Dev.send_tier (d : Dev) (m : Msg) : (d.send m).tier = d.tier := rfl
@[simp] theorem Dev.send_coh (d : Dev) (m : Msg) : (d.send m).coh = d.coh := rfl
@[simp] theorem Dev.send_cores (d : Dev) (m : Msg) : (d.send m).cores = d.cores := rfl
@[simp] theorem Dev.send_nfp (d : Dev) (m : Msg) : (d.send m).nfp = d.nfp := rfl
@[simp] theorem Dev.send_str (d : Dev) (m : Msg) : (d.send m).str = d.str := rfl
@[simp] theorem Dev.send_nrw (d : Dev) (m : Msg) : (d.send m).nrw = d.nrw := rfl
@[simp] theorem Dev.send_twn (d : Dev) (m : Msg) : (d.send m).twn = d.twn := rfl
@[simp] theorem Dev.send_tdm (d : Dev) (m : Msg) : (d.send m).tdm = d.tdm := rfl
@[simp] theorem Dev.send_sec (d : Dev) (m : Msg) : (d.send m).sec = d.sec := rfl
@[simp] theorem Dev.send_ras (d : Dev) (m : Msg) : (d.send m).ras = d.ras := rfl
@[simp] theorem Dev.send_pw (d : Dev) (m : Msg) : (d.send m).pw = d.pw := rfl
@[simp] theorem Dev.send_boot (d : Dev) (m : Msg) : (d.send m).boot = d.boot := rfl
@[simp] theorem Dev.send_nv (d : Dev) (m : Msg) : (d.send m).nv = d.nv := rfl
@[simp] theorem Dev.send_fresh (d : Dev) (m : Msg) : (d.send m).fresh = d.fresh := rfl
@[simp] theorem Dev.send_word (d : Dev) (m : Msg) (off : Nat) : (d.send m).word off = d.word off := rfl
@[simp] theorem Dev.send_rd (d : Dev) (m : Msg) (g : Fld) : (d.send m).rd g = d.rd g := rfl

/-! ### zeroFill -/

@[simp] theorem Dev.zeroFill_regs (d : Dev) (lo hi : Nat) : (d.zeroFill lo hi).regs = d.regs := rfl
@[simp] theorem Dev.zeroFill_seq (d : Dev) (lo hi : Nat) : (d.zeroFill lo hi).seq = d.seq := rfl
@[simp] theorem Dev.zeroFill_tiles (d : Dev) (lo hi : Nat) : (d.zeroFill lo hi).tiles = d.tiles := rfl
@[simp] theorem Dev.zeroFill_thr (d : Dev) (lo hi : Nat) : (d.zeroFill lo hi).thr = d.thr := rfl
@[simp] theorem Dev.zeroFill_fe (d : Dev) (lo hi : Nat) : (d.zeroFill lo hi).fe = d.fe := rfl
@[simp] theorem Dev.zeroFill_ctu (d : Dev) (lo hi : Nat) : (d.zeroFill lo hi).ctu = d.ctu := rfl
@[simp] theorem Dev.zeroFill_tier (d : Dev) (lo hi : Nat) : (d.zeroFill lo hi).tier = d.tier := rfl
@[simp] theorem Dev.zeroFill_coh (d : Dev) (lo hi : Nat) : (d.zeroFill lo hi).coh = d.coh := rfl
@[simp] theorem Dev.zeroFill_cores (d : Dev) (lo hi : Nat) : (d.zeroFill lo hi).cores = d.cores := rfl
@[simp] theorem Dev.zeroFill_nfp (d : Dev) (lo hi : Nat) : (d.zeroFill lo hi).nfp = d.nfp := rfl
@[simp] theorem Dev.zeroFill_str (d : Dev) (lo hi : Nat) : (d.zeroFill lo hi).str = d.str := rfl
@[simp] theorem Dev.zeroFill_nrw (d : Dev) (lo hi : Nat) : (d.zeroFill lo hi).nrw = d.nrw := rfl
@[simp] theorem Dev.zeroFill_twn (d : Dev) (lo hi : Nat) : (d.zeroFill lo hi).twn = d.twn := rfl
@[simp] theorem Dev.zeroFill_tdm (d : Dev) (lo hi : Nat) : (d.zeroFill lo hi).tdm = d.tdm := rfl
@[simp] theorem Dev.zeroFill_sec (d : Dev) (lo hi : Nat) : (d.zeroFill lo hi).sec = d.sec := rfl
@[simp] theorem Dev.zeroFill_ras (d : Dev) (lo hi : Nat) : (d.zeroFill lo hi).ras = d.ras := rfl
@[simp] theorem Dev.zeroFill_pw (d : Dev) (lo hi : Nat) : (d.zeroFill lo hi).pw = d.pw := rfl
@[simp] theorem Dev.zeroFill_boot (d : Dev) (lo hi : Nat) : (d.zeroFill lo hi).boot = d.boot := rfl
@[simp] theorem Dev.zeroFill_out (d : Dev) (lo hi : Nat) : (d.zeroFill lo hi).out = d.out := rfl
@[simp] theorem Dev.zeroFill_nv (d : Dev) (lo hi : Nat) : (d.zeroFill lo hi).nv = d.nv := rfl
@[simp] theorem Dev.zeroFill_fresh (d : Dev) (lo hi : Nat) : (d.zeroFill lo hi).fresh = d.fresh := rfl
@[simp] theorem Dev.zeroFill_word (d : Dev) (lo hi : Nat) (off : Nat) : (d.zeroFill lo hi).word off = d.word off := rfl
@[simp] theorem Dev.zeroFill_rd (d : Dev) (lo hi : Nat) (g : Fld) : (d.zeroFill lo hi).rd g = d.rd g := rfl

/-! ### hold -/

@[simp] theorem Dev.hold_regs (d : Dev) (a n : Nat) : (d.hold a n).regs = d.regs := rfl
@[simp] theorem Dev.hold_pool (d : Dev) (a n : Nat) : (d.hold a n).pool = d.pool := rfl
@[simp] theorem Dev.hold_seq (d : Dev) (a n : Nat) : (d.hold a n).seq = d.seq := rfl
@[simp] theorem Dev.hold_tiles (d : Dev) (a n : Nat) : (d.hold a n).tiles = d.tiles := rfl
@[simp] theorem Dev.hold_thr (d : Dev) (a n : Nat) : (d.hold a n).thr = d.thr := rfl
@[simp] theorem Dev.hold_ctu (d : Dev) (a n : Nat) : (d.hold a n).ctu = d.ctu := rfl
@[simp] theorem Dev.hold_tier (d : Dev) (a n : Nat) : (d.hold a n).tier = d.tier := rfl
@[simp] theorem Dev.hold_coh (d : Dev) (a n : Nat) : (d.hold a n).coh = d.coh := rfl
@[simp] theorem Dev.hold_cores (d : Dev) (a n : Nat) : (d.hold a n).cores = d.cores := rfl
@[simp] theorem Dev.hold_nfp (d : Dev) (a n : Nat) : (d.hold a n).nfp = d.nfp := rfl
@[simp] theorem Dev.hold_str (d : Dev) (a n : Nat) : (d.hold a n).str = d.str := rfl
@[simp] theorem Dev.hold_nrw (d : Dev) (a n : Nat) : (d.hold a n).nrw = d.nrw := rfl
@[simp] theorem Dev.hold_twn (d : Dev) (a n : Nat) : (d.hold a n).twn = d.twn := rfl
@[simp] theorem Dev.hold_tdm (d : Dev) (a n : Nat) : (d.hold a n).tdm = d.tdm := rfl
@[simp] theorem Dev.hold_sec (d : Dev) (a n : Nat) : (d.hold a n).sec = d.sec := rfl
@[simp] theorem Dev.hold_ras (d : Dev) (a n : Nat) : (d.hold a n).ras = d.ras := rfl
@[simp] theorem Dev.hold_pw (d : Dev) (a n : Nat) : (d.hold a n).pw = d.pw := rfl
@[simp] theorem Dev.hold_boot (d : Dev) (a n : Nat) : (d.hold a n).boot = d.boot := rfl
@[simp] theorem Dev.hold_out (d : Dev) (a n : Nat) : (d.hold a n).out = d.out := rfl
@[simp] theorem Dev.hold_nv (d : Dev) (a n : Nat) : (d.hold a n).nv = d.nv := rfl
@[simp] theorem Dev.hold_fresh (d : Dev) (a n : Nat) : (d.hold a n).fresh = d.fresh := rfl
@[simp] theorem Dev.hold_word (d : Dev) (a n : Nat) (off : Nat) : (d.hold a n).word off = d.word off := rfl
@[simp] theorem Dev.hold_rd (d : Dev) (a n : Nat) (g : Fld) : (d.hold a n).rd g = d.rd g := rfl

/-! ### updOp -/

@[simp] theorem Dev.updOp_regs (d : Dev) (i : Nat) (f : FeOp → FeOp) : (d.updOp i f).regs = d.regs := rfl
@[simp] theorem Dev.updOp_pool (d : Dev) (i : Nat) (f : FeOp → FeOp) : (d.updOp i f).pool = d.pool := rfl
@[simp] theorem Dev.updOp_seq (d : Dev) (i : Nat) (f : FeOp → FeOp) : (d.updOp i f).seq = d.seq := rfl
@[simp] theorem Dev.updOp_tiles (d : Dev) (i : Nat) (f : FeOp → FeOp) : (d.updOp i f).tiles = d.tiles := rfl
@[simp] theorem Dev.updOp_thr (d : Dev) (i : Nat) (f : FeOp → FeOp) : (d.updOp i f).thr = d.thr := rfl
@[simp] theorem Dev.updOp_ctu (d : Dev) (i : Nat) (f : FeOp → FeOp) : (d.updOp i f).ctu = d.ctu := rfl
@[simp] theorem Dev.updOp_tier (d : Dev) (i : Nat) (f : FeOp → FeOp) : (d.updOp i f).tier = d.tier := rfl
@[simp] theorem Dev.updOp_coh (d : Dev) (i : Nat) (f : FeOp → FeOp) : (d.updOp i f).coh = d.coh := rfl
@[simp] theorem Dev.updOp_cores (d : Dev) (i : Nat) (f : FeOp → FeOp) : (d.updOp i f).cores = d.cores := rfl
@[simp] theorem Dev.updOp_nfp (d : Dev) (i : Nat) (f : FeOp → FeOp) : (d.updOp i f).nfp = d.nfp := rfl
@[simp] theorem Dev.updOp_str (d : Dev) (i : Nat) (f : FeOp → FeOp) : (d.updOp i f).str = d.str := rfl
@[simp] theorem Dev.updOp_nrw (d : Dev) (i : Nat) (f : FeOp → FeOp) : (d.updOp i f).nrw = d.nrw := rfl
@[simp] theorem Dev.updOp_twn (d : Dev) (i : Nat) (f : FeOp → FeOp) : (d.updOp i f).twn = d.twn := rfl
@[simp] theorem Dev.updOp_tdm (d : Dev) (i : Nat) (f : FeOp → FeOp) : (d.updOp i f).tdm = d.tdm := rfl
@[simp] theorem Dev.updOp_sec (d : Dev) (i : Nat) (f : FeOp → FeOp) : (d.updOp i f).sec = d.sec := rfl
@[simp] theorem Dev.updOp_ras (d : Dev) (i : Nat) (f : FeOp → FeOp) : (d.updOp i f).ras = d.ras := rfl
@[simp] theorem Dev.updOp_pw (d : Dev) (i : Nat) (f : FeOp → FeOp) : (d.updOp i f).pw = d.pw := rfl
@[simp] theorem Dev.updOp_boot (d : Dev) (i : Nat) (f : FeOp → FeOp) : (d.updOp i f).boot = d.boot := rfl
@[simp] theorem Dev.updOp_out (d : Dev) (i : Nat) (f : FeOp → FeOp) : (d.updOp i f).out = d.out := rfl
@[simp] theorem Dev.updOp_nv (d : Dev) (i : Nat) (f : FeOp → FeOp) : (d.updOp i f).nv = d.nv := rfl
@[simp] theorem Dev.updOp_fresh (d : Dev) (i : Nat) (f : FeOp → FeOp) : (d.updOp i f).fresh = d.fresh := rfl
@[simp] theorem Dev.updOp_word (d : Dev) (i : Nat) (f : FeOp → FeOp) (off : Nat) : (d.updOp i f).word off = d.word off := rfl
@[simp] theorem Dev.updOp_rd (d : Dev) (i : Nat) (f : FeOp → FeOp) (g : Fld) : (d.updOp i f).rd g = d.rd g := rfl

/-! ### updQueue -/

@[simp] theorem Dev.updQueue_regs (d : Dev) (q : Nat) (f : Queue → Queue) : (d.updQueue q f).regs = d.regs := rfl
@[simp] theorem Dev.updQueue_pool (d : Dev) (q : Nat) (f : Queue → Queue) : (d.updQueue q f).pool = d.pool := rfl
@[simp] theorem Dev.updQueue_seq (d : Dev) (q : Nat) (f : Queue → Queue) : (d.updQueue q f).seq = d.seq := rfl
@[simp] theorem Dev.updQueue_tiles (d : Dev) (q : Nat) (f : Queue → Queue) : (d.updQueue q f).tiles = d.tiles := rfl
@[simp] theorem Dev.updQueue_thr (d : Dev) (q : Nat) (f : Queue → Queue) : (d.updQueue q f).thr = d.thr := rfl
@[simp] theorem Dev.updQueue_ctu (d : Dev) (q : Nat) (f : Queue → Queue) : (d.updQueue q f).ctu = d.ctu := rfl
@[simp] theorem Dev.updQueue_tier (d : Dev) (q : Nat) (f : Queue → Queue) : (d.updQueue q f).tier = d.tier := rfl
@[simp] theorem Dev.updQueue_coh (d : Dev) (q : Nat) (f : Queue → Queue) : (d.updQueue q f).coh = d.coh := rfl
@[simp] theorem Dev.updQueue_cores (d : Dev) (q : Nat) (f : Queue → Queue) : (d.updQueue q f).cores = d.cores := rfl
@[simp] theorem Dev.updQueue_nfp (d : Dev) (q : Nat) (f : Queue → Queue) : (d.updQueue q f).nfp = d.nfp := rfl
@[simp] theorem Dev.updQueue_str (d : Dev) (q : Nat) (f : Queue → Queue) : (d.updQueue q f).str = d.str := rfl
@[simp] theorem Dev.updQueue_nrw (d : Dev) (q : Nat) (f : Queue → Queue) : (d.updQueue q f).nrw = d.nrw := rfl
@[simp] theorem Dev.updQueue_twn (d : Dev) (q : Nat) (f : Queue → Queue) : (d.updQueue q f).twn = d.twn := rfl
@[simp] theorem Dev.updQueue_tdm (d : Dev) (q : Nat) (f : Queue → Queue) : (d.updQueue q f).tdm = d.tdm := rfl
@[simp] theorem Dev.updQueue_sec (d : Dev) (q : Nat) (f : Queue → Queue) : (d.updQueue q f).sec = d.sec := rfl
@[simp] theorem Dev.updQueue_ras (d : Dev) (q : Nat) (f : Queue → Queue) : (d.updQueue q f).ras = d.ras := rfl
@[simp] theorem Dev.updQueue_pw (d : Dev) (q : Nat) (f : Queue → Queue) : (d.updQueue q f).pw = d.pw := rfl
@[simp] theorem Dev.updQueue_boot (d : Dev) (q : Nat) (f : Queue → Queue) : (d.updQueue q f).boot = d.boot := rfl
@[simp] theorem Dev.updQueue_out (d : Dev) (q : Nat) (f : Queue → Queue) : (d.updQueue q f).out = d.out := rfl
@[simp] theorem Dev.updQueue_nv (d : Dev) (q : Nat) (f : Queue → Queue) : (d.updQueue q f).nv = d.nv := rfl
@[simp] theorem Dev.updQueue_fresh (d : Dev) (q : Nat) (f : Queue → Queue) : (d.updQueue q f).fresh = d.fresh := rfl
@[simp] theorem Dev.updQueue_word (d : Dev) (q : Nat) (f : Queue → Queue) (off : Nat) : (d.updQueue q f).word off = d.word off := rfl
@[simp] theorem Dev.updQueue_rd (d : Dev) (q : Nat) (f : Queue → Queue) (g : Fld) : (d.updQueue q f).rd g = d.rd g := rfl

/-! ### updSeq -/

@[simp] theorem Dev.updSeq_regs (d : Dev) (f : Seq → Seq) : (d.updSeq f).regs = d.regs := rfl
@[simp] theorem Dev.updSeq_pool (d : Dev) (f : Seq → Seq) : (d.updSeq f).pool = d.pool := rfl
@[simp] theorem Dev.updSeq_tiles (d : Dev) (f : Seq → Seq) : (d.updSeq f).tiles = d.tiles := rfl
@[simp] theorem Dev.updSeq_thr (d : Dev) (f : Seq → Seq) : (d.updSeq f).thr = d.thr := rfl
@[simp] theorem Dev.updSeq_fe (d : Dev) (f : Seq → Seq) : (d.updSeq f).fe = d.fe := rfl
@[simp] theorem Dev.updSeq_ctu (d : Dev) (f : Seq → Seq) : (d.updSeq f).ctu = d.ctu := rfl
@[simp] theorem Dev.updSeq_tier (d : Dev) (f : Seq → Seq) : (d.updSeq f).tier = d.tier := rfl
@[simp] theorem Dev.updSeq_coh (d : Dev) (f : Seq → Seq) : (d.updSeq f).coh = d.coh := rfl
@[simp] theorem Dev.updSeq_cores (d : Dev) (f : Seq → Seq) : (d.updSeq f).cores = d.cores := rfl
@[simp] theorem Dev.updSeq_nfp (d : Dev) (f : Seq → Seq) : (d.updSeq f).nfp = d.nfp := rfl
@[simp] theorem Dev.updSeq_str (d : Dev) (f : Seq → Seq) : (d.updSeq f).str = d.str := rfl
@[simp] theorem Dev.updSeq_nrw (d : Dev) (f : Seq → Seq) : (d.updSeq f).nrw = d.nrw := rfl
@[simp] theorem Dev.updSeq_twn (d : Dev) (f : Seq → Seq) : (d.updSeq f).twn = d.twn := rfl
@[simp] theorem Dev.updSeq_tdm (d : Dev) (f : Seq → Seq) : (d.updSeq f).tdm = d.tdm := rfl
@[simp] theorem Dev.updSeq_sec (d : Dev) (f : Seq → Seq) : (d.updSeq f).sec = d.sec := rfl
@[simp] theorem Dev.updSeq_ras (d : Dev) (f : Seq → Seq) : (d.updSeq f).ras = d.ras := rfl
@[simp] theorem Dev.updSeq_pw (d : Dev) (f : Seq → Seq) : (d.updSeq f).pw = d.pw := rfl
@[simp] theorem Dev.updSeq_boot (d : Dev) (f : Seq → Seq) : (d.updSeq f).boot = d.boot := rfl
@[simp] theorem Dev.updSeq_out (d : Dev) (f : Seq → Seq) : (d.updSeq f).out = d.out := rfl
@[simp] theorem Dev.updSeq_nv (d : Dev) (f : Seq → Seq) : (d.updSeq f).nv = d.nv := rfl
@[simp] theorem Dev.updSeq_fresh (d : Dev) (f : Seq → Seq) : (d.updSeq f).fresh = d.fresh := rfl
@[simp] theorem Dev.updSeq_word (d : Dev) (f : Seq → Seq) (off : Nat) : (d.updSeq f).word off = d.word off := rfl
@[simp] theorem Dev.updSeq_rd (d : Dev) (f : Seq → Seq) (g : Fld) : (d.updSeq f).rd g = d.rd g := rfl
@[simp] theorem Dev.updSeq_seq (d : Dev) (f : Seq → Seq) : (d.updSeq f).seq = f d.seq := rfl

/-! ### updTiles -/

@[simp] theorem Dev.updTiles_regs (d : Dev) (f : Tiles → Tiles) : (d.updTiles f).regs = d.regs := rfl
@[simp] theorem Dev.updTiles_pool (d : Dev) (f : Tiles → Tiles) : (d.updTiles f).pool = d.pool := rfl
@[simp] theorem Dev.updTiles_seq (d : Dev) (f : Tiles → Tiles) : (d.updTiles f).seq = d.seq := rfl
@[simp] theorem Dev.updTiles_thr (d : Dev) (f : Tiles → Tiles) : (d.updTiles f).thr = d.thr := rfl
@[simp] theorem Dev.updTiles_fe (d : Dev) (f : Tiles → Tiles) : (d.updTiles f).fe = d.fe := rfl
@[simp] theorem Dev.updTiles_ctu (d : Dev) (f : Tiles → Tiles) : (d.updTiles f).ctu = d.ctu := rfl
@[simp] theorem Dev.updTiles_tier (d : Dev) (f : Tiles → Tiles) : (d.updTiles f).tier = d.tier := rfl
@[simp] theorem Dev.updTiles_coh (d : Dev) (f : Tiles → Tiles) : (d.updTiles f).coh = d.coh := rfl
@[simp] theorem Dev.updTiles_cores (d : Dev) (f : Tiles → Tiles) : (d.updTiles f).cores = d.cores := rfl
@[simp] theorem Dev.updTiles_nfp (d : Dev) (f : Tiles → Tiles) : (d.updTiles f).nfp = d.nfp := rfl
@[simp] theorem Dev.updTiles_str (d : Dev) (f : Tiles → Tiles) : (d.updTiles f).str = d.str := rfl
@[simp] theorem Dev.updTiles_nrw (d : Dev) (f : Tiles → Tiles) : (d.updTiles f).nrw = d.nrw := rfl
@[simp] theorem Dev.updTiles_twn (d : Dev) (f : Tiles → Tiles) : (d.updTiles f).twn = d.twn := rfl
@[simp] theorem Dev.updTiles_tdm (d : Dev) (f : Tiles → Tiles) : (d.updTiles f).tdm = d.tdm := rfl
@[simp] theorem Dev.updTiles_sec (d : Dev) (f : Tiles → Tiles) : (d.updTiles f).sec = d.sec := rfl
@[simp] theorem Dev.updTiles_ras (d : Dev) (f : Tiles → Tiles) : (d.updTiles f).ras = d.ras := rfl
@[simp] theorem Dev.updTiles_pw (d : Dev) (f : Tiles → Tiles) : (d.updTiles f).pw = d.pw := rfl
@[simp] theorem Dev.updTiles_boot (d : Dev) (f : Tiles → Tiles) : (d.updTiles f).boot = d.boot := rfl
@[simp] theorem Dev.updTiles_out (d : Dev) (f : Tiles → Tiles) : (d.updTiles f).out = d.out := rfl
@[simp] theorem Dev.updTiles_nv (d : Dev) (f : Tiles → Tiles) : (d.updTiles f).nv = d.nv := rfl
@[simp] theorem Dev.updTiles_fresh (d : Dev) (f : Tiles → Tiles) : (d.updTiles f).fresh = d.fresh := rfl
@[simp] theorem Dev.updTiles_word (d : Dev) (f : Tiles → Tiles) (off : Nat) : (d.updTiles f).word off = d.word off := rfl
@[simp] theorem Dev.updTiles_rd (d : Dev) (f : Tiles → Tiles) (g : Fld) : (d.updTiles f).rd g = d.rd g := rfl
@[simp] theorem Dev.updTiles_tiles (d : Dev) (f : Tiles → Tiles) : (d.updTiles f).tiles = f d.tiles := rfl

/-! ### updThr -/

@[simp] theorem Dev.updThr_regs (d : Dev) (f : Threads → Threads) : (d.updThr f).regs = d.regs := rfl
@[simp] theorem Dev.updThr_pool (d : Dev) (f : Threads → Threads) : (d.updThr f).pool = d.pool := rfl
@[simp] theorem Dev.updThr_seq (d : Dev) (f : Threads → Threads) : (d.updThr f).seq = d.seq := rfl
@[simp] theorem Dev.updThr_tiles (d : Dev) (f : Threads → Threads) : (d.updThr f).tiles = d.tiles := rfl
@[simp] theorem Dev.updThr_fe (d : Dev) (f : Threads → Threads) : (d.updThr f).fe = d.fe := rfl
@[simp] theorem Dev.updThr_ctu (d : Dev) (f : Threads → Threads) : (d.updThr f).ctu = d.ctu := rfl
@[simp] theorem Dev.updThr_tier (d : Dev) (f : Threads → Threads) : (d.updThr f).tier = d.tier := rfl
@[simp] theorem Dev.updThr_coh (d : Dev) (f : Threads → Threads) : (d.updThr f).coh = d.coh := rfl
@[simp] theorem Dev.updThr_cores (d : Dev) (f : Threads → Threads) : (d.updThr f).cores = d.cores := rfl
@[simp] theorem Dev.updThr_nfp (d : Dev) (f : Threads → Threads) : (d.updThr f).nfp = d.nfp := rfl
@[simp] theorem Dev.updThr_str (d : Dev) (f : Threads → Threads) : (d.updThr f).str = d.str := rfl
@[simp] theorem Dev.updThr_nrw (d : Dev) (f : Threads → Threads) : (d.updThr f).nrw = d.nrw := rfl
@[simp] theorem Dev.updThr_twn (d : Dev) (f : Threads → Threads) : (d.updThr f).twn = d.twn := rfl
@[simp] theorem Dev.updThr_tdm (d : Dev) (f : Threads → Threads) : (d.updThr f).tdm = d.tdm := rfl
@[simp] theorem Dev.updThr_sec (d : Dev) (f : Threads → Threads) : (d.updThr f).sec = d.sec := rfl
@[simp] theorem Dev.updThr_ras (d : Dev) (f : Threads → Threads) : (d.updThr f).ras = d.ras := rfl
@[simp] theorem Dev.updThr_pw (d : Dev) (f : Threads → Threads) : (d.updThr f).pw = d.pw := rfl
@[simp] theorem Dev.updThr_boot (d : Dev) (f : Threads → Threads) : (d.updThr f).boot = d.boot := rfl
@[simp] theorem Dev.updThr_out (d : Dev) (f : Threads → Threads) : (d.updThr f).out = d.out := rfl
@[simp] theorem Dev.updThr_nv (d : Dev) (f : Threads → Threads) : (d.updThr f).nv = d.nv := rfl
@[simp] theorem Dev.updThr_fresh (d : Dev) (f : Threads → Threads) : (d.updThr f).fresh = d.fresh := rfl
@[simp] theorem Dev.updThr_word (d : Dev) (f : Threads → Threads) (off : Nat) : (d.updThr f).word off = d.word off := rfl
@[simp] theorem Dev.updThr_rd (d : Dev) (f : Threads → Threads) (g : Fld) : (d.updThr f).rd g = d.rd g := rfl
@[simp] theorem Dev.updThr_thr (d : Dev) (f : Threads → Threads) : (d.updThr f).thr = f d.thr := rfl

/-! ### updCoh -/

@[simp] theorem Dev.updCoh_regs (d : Dev) (f : Coh → Coh) : (d.updCoh f).regs = d.regs := rfl
@[simp] theorem Dev.updCoh_pool (d : Dev) (f : Coh → Coh) : (d.updCoh f).pool = d.pool := rfl
@[simp] theorem Dev.updCoh_seq (d : Dev) (f : Coh → Coh) : (d.updCoh f).seq = d.seq := rfl
@[simp] theorem Dev.updCoh_tiles (d : Dev) (f : Coh → Coh) : (d.updCoh f).tiles = d.tiles := rfl
@[simp] theorem Dev.updCoh_thr (d : Dev) (f : Coh → Coh) : (d.updCoh f).thr = d.thr := rfl
@[simp] theorem Dev.updCoh_fe (d : Dev) (f : Coh → Coh) : (d.updCoh f).fe = d.fe := rfl
@[simp] theorem Dev.updCoh_ctu (d : Dev) (f : Coh → Coh) : (d.updCoh f).ctu = d.ctu := rfl
@[simp] theorem Dev.updCoh_tier (d : Dev) (f : Coh → Coh) : (d.updCoh f).tier = d.tier := rfl
@[simp] theorem Dev.updCoh_cores (d : Dev) (f : Coh → Coh) : (d.updCoh f).cores = d.cores := rfl
@[simp] theorem Dev.updCoh_nfp (d : Dev) (f : Coh → Coh) : (d.updCoh f).nfp = d.nfp := rfl
@[simp] theorem Dev.updCoh_str (d : Dev) (f : Coh → Coh) : (d.updCoh f).str = d.str := rfl
@[simp] theorem Dev.updCoh_nrw (d : Dev) (f : Coh → Coh) : (d.updCoh f).nrw = d.nrw := rfl
@[simp] theorem Dev.updCoh_twn (d : Dev) (f : Coh → Coh) : (d.updCoh f).twn = d.twn := rfl
@[simp] theorem Dev.updCoh_tdm (d : Dev) (f : Coh → Coh) : (d.updCoh f).tdm = d.tdm := rfl
@[simp] theorem Dev.updCoh_sec (d : Dev) (f : Coh → Coh) : (d.updCoh f).sec = d.sec := rfl
@[simp] theorem Dev.updCoh_ras (d : Dev) (f : Coh → Coh) : (d.updCoh f).ras = d.ras := rfl
@[simp] theorem Dev.updCoh_pw (d : Dev) (f : Coh → Coh) : (d.updCoh f).pw = d.pw := rfl
@[simp] theorem Dev.updCoh_boot (d : Dev) (f : Coh → Coh) : (d.updCoh f).boot = d.boot := rfl
@[simp] theorem Dev.updCoh_out (d : Dev) (f : Coh → Coh) : (d.updCoh f).out = d.out := rfl
@[simp] theorem Dev.updCoh_nv (d : Dev) (f : Coh → Coh) : (d.updCoh f).nv = d.nv := rfl
@[simp] theorem Dev.updCoh_fresh (d : Dev) (f : Coh → Coh) : (d.updCoh f).fresh = d.fresh := rfl
@[simp] theorem Dev.updCoh_word (d : Dev) (f : Coh → Coh) (off : Nat) : (d.updCoh f).word off = d.word off := rfl
@[simp] theorem Dev.updCoh_rd (d : Dev) (f : Coh → Coh) (g : Fld) : (d.updCoh f).rd g = d.rd g := rfl
@[simp] theorem Dev.updCoh_coh (d : Dev) (f : Coh → Coh) : (d.updCoh f).coh = f d.coh := rfl

/-! ### updCore -/

@[simp] theorem Dev.updCore_regs (d : Dev) (c : Nat) (f : Core → Core) : (d.updCore c f).regs = d.regs := rfl
@[simp] theorem Dev.updCore_pool (d : Dev) (c : Nat) (f : Core → Core) : (d.updCore c f).pool = d.pool := rfl
@[simp] theorem Dev.updCore_seq (d : Dev) (c : Nat) (f : Core → Core) : (d.updCore c f).seq = d.seq := rfl
@[simp] theorem Dev.updCore_tiles (d : Dev) (c : Nat) (f : Core → Core) : (d.updCore c f).tiles = d.tiles := rfl
@[simp] theorem Dev.updCore_thr (d : Dev) (c : Nat) (f : Core → Core) : (d.updCore c f).thr = d.thr := rfl
@[simp] theorem Dev.updCore_fe (d : Dev) (c : Nat) (f : Core → Core) : (d.updCore c f).fe = d.fe := rfl
@[simp] theorem Dev.updCore_ctu (d : Dev) (c : Nat) (f : Core → Core) : (d.updCore c f).ctu = d.ctu := rfl
@[simp] theorem Dev.updCore_tier (d : Dev) (c : Nat) (f : Core → Core) : (d.updCore c f).tier = d.tier := rfl
@[simp] theorem Dev.updCore_coh (d : Dev) (c : Nat) (f : Core → Core) : (d.updCore c f).coh = d.coh := rfl
@[simp] theorem Dev.updCore_nfp (d : Dev) (c : Nat) (f : Core → Core) : (d.updCore c f).nfp = d.nfp := rfl
@[simp] theorem Dev.updCore_str (d : Dev) (c : Nat) (f : Core → Core) : (d.updCore c f).str = d.str := rfl
@[simp] theorem Dev.updCore_nrw (d : Dev) (c : Nat) (f : Core → Core) : (d.updCore c f).nrw = d.nrw := rfl
@[simp] theorem Dev.updCore_twn (d : Dev) (c : Nat) (f : Core → Core) : (d.updCore c f).twn = d.twn := rfl
@[simp] theorem Dev.updCore_tdm (d : Dev) (c : Nat) (f : Core → Core) : (d.updCore c f).tdm = d.tdm := rfl
@[simp] theorem Dev.updCore_sec (d : Dev) (c : Nat) (f : Core → Core) : (d.updCore c f).sec = d.sec := rfl
@[simp] theorem Dev.updCore_ras (d : Dev) (c : Nat) (f : Core → Core) : (d.updCore c f).ras = d.ras := rfl
@[simp] theorem Dev.updCore_pw (d : Dev) (c : Nat) (f : Core → Core) : (d.updCore c f).pw = d.pw := rfl
@[simp] theorem Dev.updCore_boot (d : Dev) (c : Nat) (f : Core → Core) : (d.updCore c f).boot = d.boot := rfl
@[simp] theorem Dev.updCore_out (d : Dev) (c : Nat) (f : Core → Core) : (d.updCore c f).out = d.out := rfl
@[simp] theorem Dev.updCore_nv (d : Dev) (c : Nat) (f : Core → Core) : (d.updCore c f).nv = d.nv := rfl
@[simp] theorem Dev.updCore_fresh (d : Dev) (c : Nat) (f : Core → Core) : (d.updCore c f).fresh = d.fresh := rfl
@[simp] theorem Dev.updCore_word (d : Dev) (c : Nat) (f : Core → Core) (off : Nat) : (d.updCore c f).word off = d.word off := rfl
@[simp] theorem Dev.updCore_rd (d : Dev) (c : Nat) (f : Core → Core) (g : Fld) : (d.updCore c f).rd g = d.rd g := rfl

/-! ### updCtu -/

@[simp] theorem Dev.updCtu_regs (d : Dev) (f : Ctu → Ctu) : (d.updCtu f).regs = d.regs := rfl
@[simp] theorem Dev.updCtu_pool (d : Dev) (f : Ctu → Ctu) : (d.updCtu f).pool = d.pool := rfl
@[simp] theorem Dev.updCtu_seq (d : Dev) (f : Ctu → Ctu) : (d.updCtu f).seq = d.seq := rfl
@[simp] theorem Dev.updCtu_tiles (d : Dev) (f : Ctu → Ctu) : (d.updCtu f).tiles = d.tiles := rfl
@[simp] theorem Dev.updCtu_thr (d : Dev) (f : Ctu → Ctu) : (d.updCtu f).thr = d.thr := rfl
@[simp] theorem Dev.updCtu_fe (d : Dev) (f : Ctu → Ctu) : (d.updCtu f).fe = d.fe := rfl
@[simp] theorem Dev.updCtu_tier (d : Dev) (f : Ctu → Ctu) : (d.updCtu f).tier = d.tier := rfl
@[simp] theorem Dev.updCtu_coh (d : Dev) (f : Ctu → Ctu) : (d.updCtu f).coh = d.coh := rfl
@[simp] theorem Dev.updCtu_cores (d : Dev) (f : Ctu → Ctu) : (d.updCtu f).cores = d.cores := rfl
@[simp] theorem Dev.updCtu_nfp (d : Dev) (f : Ctu → Ctu) : (d.updCtu f).nfp = d.nfp := rfl
@[simp] theorem Dev.updCtu_str (d : Dev) (f : Ctu → Ctu) : (d.updCtu f).str = d.str := rfl
@[simp] theorem Dev.updCtu_nrw (d : Dev) (f : Ctu → Ctu) : (d.updCtu f).nrw = d.nrw := rfl
@[simp] theorem Dev.updCtu_twn (d : Dev) (f : Ctu → Ctu) : (d.updCtu f).twn = d.twn := rfl
@[simp] theorem Dev.updCtu_tdm (d : Dev) (f : Ctu → Ctu) : (d.updCtu f).tdm = d.tdm := rfl
@[simp] theorem Dev.updCtu_sec (d : Dev) (f : Ctu → Ctu) : (d.updCtu f).sec = d.sec := rfl
@[simp] theorem Dev.updCtu_ras (d : Dev) (f : Ctu → Ctu) : (d.updCtu f).ras = d.ras := rfl
@[simp] theorem Dev.updCtu_pw (d : Dev) (f : Ctu → Ctu) : (d.updCtu f).pw = d.pw := rfl
@[simp] theorem Dev.updCtu_boot (d : Dev) (f : Ctu → Ctu) : (d.updCtu f).boot = d.boot := rfl
@[simp] theorem Dev.updCtu_out (d : Dev) (f : Ctu → Ctu) : (d.updCtu f).out = d.out := rfl
@[simp] theorem Dev.updCtu_nv (d : Dev) (f : Ctu → Ctu) : (d.updCtu f).nv = d.nv := rfl
@[simp] theorem Dev.updCtu_fresh (d : Dev) (f : Ctu → Ctu) : (d.updCtu f).fresh = d.fresh := rfl
@[simp] theorem Dev.updCtu_word (d : Dev) (f : Ctu → Ctu) (off : Nat) : (d.updCtu f).word off = d.word off := rfl
@[simp] theorem Dev.updCtu_rd (d : Dev) (f : Ctu → Ctu) (g : Fld) : (d.updCtu f).rd g = d.rd g := rfl
@[simp] theorem Dev.updCtu_ctu (d : Dev) (f : Ctu → Ctu) : (d.updCtu f).ctu = f d.ctu := rfl

/-! ### updDom -/

@[simp] theorem Dev.updDom_regs (d : Dev) (f : Domain → Domain) : (d.updDom f).regs = d.regs := rfl
@[simp] theorem Dev.updDom_pool (d : Dev) (f : Domain → Domain) : (d.updDom f).pool = d.pool := rfl
@[simp] theorem Dev.updDom_seq (d : Dev) (f : Domain → Domain) : (d.updDom f).seq = d.seq := rfl
@[simp] theorem Dev.updDom_tiles (d : Dev) (f : Domain → Domain) : (d.updDom f).tiles = d.tiles := rfl
@[simp] theorem Dev.updDom_thr (d : Dev) (f : Domain → Domain) : (d.updDom f).thr = d.thr := rfl
@[simp] theorem Dev.updDom_fe (d : Dev) (f : Domain → Domain) : (d.updDom f).fe = d.fe := rfl
@[simp] theorem Dev.updDom_ctu (d : Dev) (f : Domain → Domain) : (d.updDom f).ctu = d.ctu := rfl
@[simp] theorem Dev.updDom_tier (d : Dev) (f : Domain → Domain) : (d.updDom f).tier = d.tier := rfl
@[simp] theorem Dev.updDom_coh (d : Dev) (f : Domain → Domain) : (d.updDom f).coh = d.coh := rfl
@[simp] theorem Dev.updDom_cores (d : Dev) (f : Domain → Domain) : (d.updDom f).cores = d.cores := rfl
@[simp] theorem Dev.updDom_str (d : Dev) (f : Domain → Domain) : (d.updDom f).str = d.str := rfl
@[simp] theorem Dev.updDom_nrw (d : Dev) (f : Domain → Domain) : (d.updDom f).nrw = d.nrw := rfl
@[simp] theorem Dev.updDom_twn (d : Dev) (f : Domain → Domain) : (d.updDom f).twn = d.twn := rfl
@[simp] theorem Dev.updDom_tdm (d : Dev) (f : Domain → Domain) : (d.updDom f).tdm = d.tdm := rfl
@[simp] theorem Dev.updDom_sec (d : Dev) (f : Domain → Domain) : (d.updDom f).sec = d.sec := rfl
@[simp] theorem Dev.updDom_ras (d : Dev) (f : Domain → Domain) : (d.updDom f).ras = d.ras := rfl
@[simp] theorem Dev.updDom_pw (d : Dev) (f : Domain → Domain) : (d.updDom f).pw = d.pw := rfl
@[simp] theorem Dev.updDom_boot (d : Dev) (f : Domain → Domain) : (d.updDom f).boot = d.boot := rfl
@[simp] theorem Dev.updDom_out (d : Dev) (f : Domain → Domain) : (d.updDom f).out = d.out := rfl
@[simp] theorem Dev.updDom_nv (d : Dev) (f : Domain → Domain) : (d.updDom f).nv = d.nv := rfl
@[simp] theorem Dev.updDom_fresh (d : Dev) (f : Domain → Domain) : (d.updDom f).fresh = d.fresh := rfl
@[simp] theorem Dev.updDom_word (d : Dev) (f : Domain → Domain) (off : Nat) : (d.updDom f).word off = d.word off := rfl
@[simp] theorem Dev.updDom_rd (d : Dev) (f : Domain → Domain) (g : Fld) : (d.updDom f).rd g = d.rd g := rfl

/-! ### updPool -/

@[simp] theorem Dev.updPool_regs (d : Dev) (f : Pool → Pool) : (d.updPool f).regs = d.regs := rfl
@[simp] theorem Dev.updPool_seq (d : Dev) (f : Pool → Pool) : (d.updPool f).seq = d.seq := rfl
@[simp] theorem Dev.updPool_tiles (d : Dev) (f : Pool → Pool) : (d.updPool f).tiles = d.tiles := rfl
@[simp] theorem Dev.updPool_thr (d : Dev) (f : Pool → Pool) : (d.updPool f).thr = d.thr := rfl
@[simp] theorem Dev.updPool_fe (d : Dev) (f : Pool → Pool) : (d.updPool f).fe = d.fe := rfl
@[simp] theorem Dev.updPool_ctu (d : Dev) (f : Pool → Pool) : (d.updPool f).ctu = d.ctu := rfl
@[simp] theorem Dev.updPool_tier (d : Dev) (f : Pool → Pool) : (d.updPool f).tier = d.tier := rfl
@[simp] theorem Dev.updPool_coh (d : Dev) (f : Pool → Pool) : (d.updPool f).coh = d.coh := rfl
@[simp] theorem Dev.updPool_cores (d : Dev) (f : Pool → Pool) : (d.updPool f).cores = d.cores := rfl
@[simp] theorem Dev.updPool_nfp (d : Dev) (f : Pool → Pool) : (d.updPool f).nfp = d.nfp := rfl
@[simp] theorem Dev.updPool_str (d : Dev) (f : Pool → Pool) : (d.updPool f).str = d.str := rfl
@[simp] theorem Dev.updPool_nrw (d : Dev) (f : Pool → Pool) : (d.updPool f).nrw = d.nrw := rfl
@[simp] theorem Dev.updPool_twn (d : Dev) (f : Pool → Pool) : (d.updPool f).twn = d.twn := rfl
@[simp] theorem Dev.updPool_tdm (d : Dev) (f : Pool → Pool) : (d.updPool f).tdm = d.tdm := rfl
@[simp] theorem Dev.updPool_sec (d : Dev) (f : Pool → Pool) : (d.updPool f).sec = d.sec := rfl
@[simp] theorem Dev.updPool_ras (d : Dev) (f : Pool → Pool) : (d.updPool f).ras = d.ras := rfl
@[simp] theorem Dev.updPool_pw (d : Dev) (f : Pool → Pool) : (d.updPool f).pw = d.pw := rfl
@[simp] theorem Dev.updPool_boot (d : Dev) (f : Pool → Pool) : (d.updPool f).boot = d.boot := rfl
@[simp] theorem Dev.updPool_out (d : Dev) (f : Pool → Pool) : (d.updPool f).out = d.out := rfl
@[simp] theorem Dev.updPool_nv (d : Dev) (f : Pool → Pool) : (d.updPool f).nv = d.nv := rfl
@[simp] theorem Dev.updPool_fresh (d : Dev) (f : Pool → Pool) : (d.updPool f).fresh = d.fresh := rfl
@[simp] theorem Dev.updPool_word (d : Dev) (f : Pool → Pool) (off : Nat) : (d.updPool f).word off = d.word off := rfl
@[simp] theorem Dev.updPool_rd (d : Dev) (f : Pool → Pool) (g : Fld) : (d.updPool f).rd g = d.rd g := rfl
@[simp] theorem Dev.updPool_pool (d : Dev) (f : Pool → Pool) : (d.updPool f).pool = f d.pool := rfl

/-! ### updNrw -/

@[simp] theorem Dev.updNrw_regs (d : Dev) (f : Narrows → Narrows) : (d.updNrw f).regs = d.regs := rfl
@[simp] theorem Dev.updNrw_pool (d : Dev) (f : Narrows → Narrows) : (d.updNrw f).pool = d.pool := rfl
@[simp] theorem Dev.updNrw_seq (d : Dev) (f : Narrows → Narrows) : (d.updNrw f).seq = d.seq := rfl
@[simp] theorem Dev.updNrw_tiles (d : Dev) (f : Narrows → Narrows) : (d.updNrw f).tiles = d.tiles := rfl
@[simp] theorem Dev.updNrw_thr (d : Dev) (f : Narrows → Narrows) : (d.updNrw f).thr = d.thr := rfl
@[simp] theorem Dev.updNrw_fe (d : Dev) (f : Narrows → Narrows) : (d.updNrw f).fe = d.fe := rfl
@[simp] theorem Dev.updNrw_ctu (d : Dev) (f : Narrows → Narrows) : (d.updNrw f).ctu = d.ctu := rfl
@[simp] theorem Dev.updNrw_tier (d : Dev) (f : Narrows → Narrows) : (d.updNrw f).tier = d.tier := rfl
@[simp] theorem Dev.updNrw_coh (d : Dev) (f : Narrows → Narrows) : (d.updNrw f).coh = d.coh := rfl
@[simp] theorem Dev.updNrw_cores (d : Dev) (f : Narrows → Narrows) : (d.updNrw f).cores = d.cores := rfl
@[simp] theorem Dev.updNrw_nfp (d : Dev) (f : Narrows → Narrows) : (d.updNrw f).nfp = d.nfp := rfl
@[simp] theorem Dev.updNrw_str (d : Dev) (f : Narrows → Narrows) : (d.updNrw f).str = d.str := rfl
@[simp] theorem Dev.updNrw_twn (d : Dev) (f : Narrows → Narrows) : (d.updNrw f).twn = d.twn := rfl
@[simp] theorem Dev.updNrw_tdm (d : Dev) (f : Narrows → Narrows) : (d.updNrw f).tdm = d.tdm := rfl
@[simp] theorem Dev.updNrw_sec (d : Dev) (f : Narrows → Narrows) : (d.updNrw f).sec = d.sec := rfl
@[simp] theorem Dev.updNrw_ras (d : Dev) (f : Narrows → Narrows) : (d.updNrw f).ras = d.ras := rfl
@[simp] theorem Dev.updNrw_pw (d : Dev) (f : Narrows → Narrows) : (d.updNrw f).pw = d.pw := rfl
@[simp] theorem Dev.updNrw_boot (d : Dev) (f : Narrows → Narrows) : (d.updNrw f).boot = d.boot := rfl
@[simp] theorem Dev.updNrw_out (d : Dev) (f : Narrows → Narrows) : (d.updNrw f).out = d.out := rfl
@[simp] theorem Dev.updNrw_nv (d : Dev) (f : Narrows → Narrows) : (d.updNrw f).nv = d.nv := rfl
@[simp] theorem Dev.updNrw_fresh (d : Dev) (f : Narrows → Narrows) : (d.updNrw f).fresh = d.fresh := rfl
@[simp] theorem Dev.updNrw_word (d : Dev) (f : Narrows → Narrows) (off : Nat) : (d.updNrw f).word off = d.word off := rfl
@[simp] theorem Dev.updNrw_rd (d : Dev) (f : Narrows → Narrows) (g : Fld) : (d.updNrw f).rd g = d.rd g := rfl
@[simp] theorem Dev.updNrw_nrw (d : Dev) (f : Narrows → Narrows) : (d.updNrw f).nrw = f d.nrw := rfl

/-! ### updPw -/

@[simp] theorem Dev.updPw_regs (d : Dev) (f : Power → Power) : (d.updPw f).regs = d.regs := rfl
@[simp] theorem Dev.updPw_pool (d : Dev) (f : Power → Power) : (d.updPw f).pool = d.pool := rfl
@[simp] theorem Dev.updPw_seq (d : Dev) (f : Power → Power) : (d.updPw f).seq = d.seq := rfl
@[simp] theorem Dev.updPw_tiles (d : Dev) (f : Power → Power) : (d.updPw f).tiles = d.tiles := rfl
@[simp] theorem Dev.updPw_thr (d : Dev) (f : Power → Power) : (d.updPw f).thr = d.thr := rfl
@[simp] theorem Dev.updPw_fe (d : Dev) (f : Power → Power) : (d.updPw f).fe = d.fe := rfl
@[simp] theorem Dev.updPw_ctu (d : Dev) (f : Power → Power) : (d.updPw f).ctu = d.ctu := rfl
@[simp] theorem Dev.updPw_tier (d : Dev) (f : Power → Power) : (d.updPw f).tier = d.tier := rfl
@[simp] theorem Dev.updPw_coh (d : Dev) (f : Power → Power) : (d.updPw f).coh = d.coh := rfl
@[simp] theorem Dev.updPw_cores (d : Dev) (f : Power → Power) : (d.updPw f).cores = d.cores := rfl
@[simp] theorem Dev.updPw_nfp (d : Dev) (f : Power → Power) : (d.updPw f).nfp = d.nfp := rfl
@[simp] theorem Dev.updPw_str (d : Dev) (f : Power → Power) : (d.updPw f).str = d.str := rfl
@[simp] theorem Dev.updPw_nrw (d : Dev) (f : Power → Power) : (d.updPw f).nrw = d.nrw := rfl
@[simp] theorem Dev.updPw_twn (d : Dev) (f : Power → Power) : (d.updPw f).twn = d.twn := rfl
@[simp] theorem Dev.updPw_tdm (d : Dev) (f : Power → Power) : (d.updPw f).tdm = d.tdm := rfl
@[simp] theorem Dev.updPw_sec (d : Dev) (f : Power → Power) : (d.updPw f).sec = d.sec := rfl
@[simp] theorem Dev.updPw_ras (d : Dev) (f : Power → Power) : (d.updPw f).ras = d.ras := rfl
@[simp] theorem Dev.updPw_boot (d : Dev) (f : Power → Power) : (d.updPw f).boot = d.boot := rfl
@[simp] theorem Dev.updPw_out (d : Dev) (f : Power → Power) : (d.updPw f).out = d.out := rfl
@[simp] theorem Dev.updPw_nv (d : Dev) (f : Power → Power) : (d.updPw f).nv = d.nv := rfl
@[simp] theorem Dev.updPw_fresh (d : Dev) (f : Power → Power) : (d.updPw f).fresh = d.fresh := rfl
@[simp] theorem Dev.updPw_word (d : Dev) (f : Power → Power) (off : Nat) : (d.updPw f).word off = d.word off := rfl
@[simp] theorem Dev.updPw_rd (d : Dev) (f : Power → Power) (g : Fld) : (d.updPw f).rd g = d.rd g := rfl
@[simp] theorem Dev.updPw_pw (d : Dev) (f : Power → Power) : (d.updPw f).pw = f d.pw := rfl

/-! ### updSec -/

@[simp] theorem Dev.updSec_regs (d : Dev) (f : Sec → Sec) : (d.updSec f).regs = d.regs := rfl
@[simp] theorem Dev.updSec_pool (d : Dev) (f : Sec → Sec) : (d.updSec f).pool = d.pool := rfl
@[simp] theorem Dev.updSec_seq (d : Dev) (f : Sec → Sec) : (d.updSec f).seq = d.seq := rfl
@[simp] theorem Dev.updSec_tiles (d : Dev) (f : Sec → Sec) : (d.updSec f).tiles = d.tiles := rfl
@[simp] theorem Dev.updSec_thr (d : Dev) (f : Sec → Sec) : (d.updSec f).thr = d.thr := rfl
@[simp] theorem Dev.updSec_fe (d : Dev) (f : Sec → Sec) : (d.updSec f).fe = d.fe := rfl
@[simp] theorem Dev.updSec_ctu (d : Dev) (f : Sec → Sec) : (d.updSec f).ctu = d.ctu := rfl
@[simp] theorem Dev.updSec_tier (d : Dev) (f : Sec → Sec) : (d.updSec f).tier = d.tier := rfl
@[simp] theorem Dev.updSec_coh (d : Dev) (f : Sec → Sec) : (d.updSec f).coh = d.coh := rfl
@[simp] theorem Dev.updSec_cores (d : Dev) (f : Sec → Sec) : (d.updSec f).cores = d.cores := rfl
@[simp] theorem Dev.updSec_nfp (d : Dev) (f : Sec → Sec) : (d.updSec f).nfp = d.nfp := rfl
@[simp] theorem Dev.updSec_str (d : Dev) (f : Sec → Sec) : (d.updSec f).str = d.str := rfl
@[simp] theorem Dev.updSec_nrw (d : Dev) (f : Sec → Sec) : (d.updSec f).nrw = d.nrw := rfl
@[simp] theorem Dev.updSec_twn (d : Dev) (f : Sec → Sec) : (d.updSec f).twn = d.twn := rfl
@[simp] theorem Dev.updSec_tdm (d : Dev) (f : Sec → Sec) : (d.updSec f).tdm = d.tdm := rfl
@[simp] theorem Dev.updSec_ras (d : Dev) (f : Sec → Sec) : (d.updSec f).ras = d.ras := rfl
@[simp] theorem Dev.updSec_pw (d : Dev) (f : Sec → Sec) : (d.updSec f).pw = d.pw := rfl
@[simp] theorem Dev.updSec_boot (d : Dev) (f : Sec → Sec) : (d.updSec f).boot = d.boot := rfl
@[simp] theorem Dev.updSec_out (d : Dev) (f : Sec → Sec) : (d.updSec f).out = d.out := rfl
@[simp] theorem Dev.updSec_nv (d : Dev) (f : Sec → Sec) : (d.updSec f).nv = d.nv := rfl
@[simp] theorem Dev.updSec_fresh (d : Dev) (f : Sec → Sec) : (d.updSec f).fresh = d.fresh := rfl
@[simp] theorem Dev.updSec_word (d : Dev) (f : Sec → Sec) (off : Nat) : (d.updSec f).word off = d.word off := rfl
@[simp] theorem Dev.updSec_rd (d : Dev) (f : Sec → Sec) (g : Fld) : (d.updSec f).rd g = d.rd g := rfl
@[simp] theorem Dev.updSec_sec (d : Dev) (f : Sec → Sec) : (d.updSec f).sec = f d.sec := rfl

/-! ### updBoot -/

@[simp] theorem Dev.updBoot_regs (d : Dev) (f : Boot → Boot) : (d.updBoot f).regs = d.regs := rfl
@[simp] theorem Dev.updBoot_pool (d : Dev) (f : Boot → Boot) : (d.updBoot f).pool = d.pool := rfl
@[simp] theorem Dev.updBoot_seq (d : Dev) (f : Boot → Boot) : (d.updBoot f).seq = d.seq := rfl
@[simp] theorem Dev.updBoot_tiles (d : Dev) (f : Boot → Boot) : (d.updBoot f).tiles = d.tiles := rfl
@[simp] theorem Dev.updBoot_thr (d : Dev) (f : Boot → Boot) : (d.updBoot f).thr = d.thr := rfl
@[simp] theorem Dev.updBoot_fe (d : Dev) (f : Boot → Boot) : (d.updBoot f).fe = d.fe := rfl
@[simp] theorem Dev.updBoot_ctu (d : Dev) (f : Boot → Boot) : (d.updBoot f).ctu = d.ctu := rfl
@[simp] theorem Dev.updBoot_tier (d : Dev) (f : Boot → Boot) : (d.updBoot f).tier = d.tier := rfl
@[simp] theorem Dev.updBoot_coh (d : Dev) (f : Boot → Boot) : (d.updBoot f).coh = d.coh := rfl
@[simp] theorem Dev.updBoot_cores (d : Dev) (f : Boot → Boot) : (d.updBoot f).cores = d.cores := rfl
@[simp] theorem Dev.updBoot_nfp (d : Dev) (f : Boot → Boot) : (d.updBoot f).nfp = d.nfp := rfl
@[simp] theorem Dev.updBoot_str (d : Dev) (f : Boot → Boot) : (d.updBoot f).str = d.str := rfl
@[simp] theorem Dev.updBoot_nrw (d : Dev) (f : Boot → Boot) : (d.updBoot f).nrw = d.nrw := rfl
@[simp] theorem Dev.updBoot_twn (d : Dev) (f : Boot → Boot) : (d.updBoot f).twn = d.twn := rfl
@[simp] theorem Dev.updBoot_tdm (d : Dev) (f : Boot → Boot) : (d.updBoot f).tdm = d.tdm := rfl
@[simp] theorem Dev.updBoot_sec (d : Dev) (f : Boot → Boot) : (d.updBoot f).sec = d.sec := rfl
@[simp] theorem Dev.updBoot_ras (d : Dev) (f : Boot → Boot) : (d.updBoot f).ras = d.ras := rfl
@[simp] theorem Dev.updBoot_pw (d : Dev) (f : Boot → Boot) : (d.updBoot f).pw = d.pw := rfl
@[simp] theorem Dev.updBoot_out (d : Dev) (f : Boot → Boot) : (d.updBoot f).out = d.out := rfl
@[simp] theorem Dev.updBoot_nv (d : Dev) (f : Boot → Boot) : (d.updBoot f).nv = d.nv := rfl
@[simp] theorem Dev.updBoot_fresh (d : Dev) (f : Boot → Boot) : (d.updBoot f).fresh = d.fresh := rfl
@[simp] theorem Dev.updBoot_word (d : Dev) (f : Boot → Boot) (off : Nat) : (d.updBoot f).word off = d.word off := rfl
@[simp] theorem Dev.updBoot_rd (d : Dev) (f : Boot → Boot) (g : Fld) : (d.updBoot f).rd g = d.rd g := rfl
@[simp] theorem Dev.updBoot_boot (d : Dev) (f : Boot → Boot) : (d.updBoot f).boot = f d.boot := rfl

/-! ### updTdm -/

@[simp] theorem Dev.updTdm_regs (d : Dev) (f : Tidemark → Tidemark) : (d.updTdm f).regs = d.regs := rfl
@[simp] theorem Dev.updTdm_pool (d : Dev) (f : Tidemark → Tidemark) : (d.updTdm f).pool = d.pool := rfl
@[simp] theorem Dev.updTdm_seq (d : Dev) (f : Tidemark → Tidemark) : (d.updTdm f).seq = d.seq := rfl
@[simp] theorem Dev.updTdm_tiles (d : Dev) (f : Tidemark → Tidemark) : (d.updTdm f).tiles = d.tiles := rfl
@[simp] theorem Dev.updTdm_thr (d : Dev) (f : Tidemark → Tidemark) : (d.updTdm f).thr = d.thr := rfl
@[simp] theorem Dev.updTdm_fe (d : Dev) (f : Tidemark → Tidemark) : (d.updTdm f).fe = d.fe := rfl
@[simp] theorem Dev.updTdm_ctu (d : Dev) (f : Tidemark → Tidemark) : (d.updTdm f).ctu = d.ctu := rfl
@[simp] theorem Dev.updTdm_tier (d : Dev) (f : Tidemark → Tidemark) : (d.updTdm f).tier = d.tier := rfl
@[simp] theorem Dev.updTdm_coh (d : Dev) (f : Tidemark → Tidemark) : (d.updTdm f).coh = d.coh := rfl
@[simp] theorem Dev.updTdm_cores (d : Dev) (f : Tidemark → Tidemark) : (d.updTdm f).cores = d.cores := rfl
@[simp] theorem Dev.updTdm_nfp (d : Dev) (f : Tidemark → Tidemark) : (d.updTdm f).nfp = d.nfp := rfl
@[simp] theorem Dev.updTdm_str (d : Dev) (f : Tidemark → Tidemark) : (d.updTdm f).str = d.str := rfl
@[simp] theorem Dev.updTdm_nrw (d : Dev) (f : Tidemark → Tidemark) : (d.updTdm f).nrw = d.nrw := rfl
@[simp] theorem Dev.updTdm_twn (d : Dev) (f : Tidemark → Tidemark) : (d.updTdm f).twn = d.twn := rfl
@[simp] theorem Dev.updTdm_sec (d : Dev) (f : Tidemark → Tidemark) : (d.updTdm f).sec = d.sec := rfl
@[simp] theorem Dev.updTdm_ras (d : Dev) (f : Tidemark → Tidemark) : (d.updTdm f).ras = d.ras := rfl
@[simp] theorem Dev.updTdm_pw (d : Dev) (f : Tidemark → Tidemark) : (d.updTdm f).pw = d.pw := rfl
@[simp] theorem Dev.updTdm_boot (d : Dev) (f : Tidemark → Tidemark) : (d.updTdm f).boot = d.boot := rfl
@[simp] theorem Dev.updTdm_out (d : Dev) (f : Tidemark → Tidemark) : (d.updTdm f).out = d.out := rfl
@[simp] theorem Dev.updTdm_nv (d : Dev) (f : Tidemark → Tidemark) : (d.updTdm f).nv = d.nv := rfl
@[simp] theorem Dev.updTdm_fresh (d : Dev) (f : Tidemark → Tidemark) : (d.updTdm f).fresh = d.fresh := rfl
@[simp] theorem Dev.updTdm_word (d : Dev) (f : Tidemark → Tidemark) (off : Nat) : (d.updTdm f).word off = d.word off := rfl
@[simp] theorem Dev.updTdm_rd (d : Dev) (f : Tidemark → Tidemark) (g : Fld) : (d.updTdm f).rd g = d.rd g := rfl
@[simp] theorem Dev.updTdm_tdm (d : Dev) (f : Tidemark → Tidemark) : (d.updTdm f).tdm = f d.tdm := rfl

/-! ### updTier -/

@[simp] theorem Dev.updTier_regs (d : Dev) (f : Tier → Tier) : (d.updTier f).regs = d.regs := rfl
@[simp] theorem Dev.updTier_pool (d : Dev) (f : Tier → Tier) : (d.updTier f).pool = d.pool := rfl
@[simp] theorem Dev.updTier_seq (d : Dev) (f : Tier → Tier) : (d.updTier f).seq = d.seq := rfl
@[simp] theorem Dev.updTier_tiles (d : Dev) (f : Tier → Tier) : (d.updTier f).tiles = d.tiles := rfl
@[simp] theorem Dev.updTier_thr (d : Dev) (f : Tier → Tier) : (d.updTier f).thr = d.thr := rfl
@[simp] theorem Dev.updTier_fe (d : Dev) (f : Tier → Tier) : (d.updTier f).fe = d.fe := rfl
@[simp] theorem Dev.updTier_ctu (d : Dev) (f : Tier → Tier) : (d.updTier f).ctu = d.ctu := rfl
@[simp] theorem Dev.updTier_coh (d : Dev) (f : Tier → Tier) : (d.updTier f).coh = d.coh := rfl
@[simp] theorem Dev.updTier_cores (d : Dev) (f : Tier → Tier) : (d.updTier f).cores = d.cores := rfl
@[simp] theorem Dev.updTier_nfp (d : Dev) (f : Tier → Tier) : (d.updTier f).nfp = d.nfp := rfl
@[simp] theorem Dev.updTier_str (d : Dev) (f : Tier → Tier) : (d.updTier f).str = d.str := rfl
@[simp] theorem Dev.updTier_nrw (d : Dev) (f : Tier → Tier) : (d.updTier f).nrw = d.nrw := rfl
@[simp] theorem Dev.updTier_twn (d : Dev) (f : Tier → Tier) : (d.updTier f).twn = d.twn := rfl
@[simp] theorem Dev.updTier_tdm (d : Dev) (f : Tier → Tier) : (d.updTier f).tdm = d.tdm := rfl
@[simp] theorem Dev.updTier_sec (d : Dev) (f : Tier → Tier) : (d.updTier f).sec = d.sec := rfl
@[simp] theorem Dev.updTier_ras (d : Dev) (f : Tier → Tier) : (d.updTier f).ras = d.ras := rfl
@[simp] theorem Dev.updTier_pw (d : Dev) (f : Tier → Tier) : (d.updTier f).pw = d.pw := rfl
@[simp] theorem Dev.updTier_boot (d : Dev) (f : Tier → Tier) : (d.updTier f).boot = d.boot := rfl
@[simp] theorem Dev.updTier_out (d : Dev) (f : Tier → Tier) : (d.updTier f).out = d.out := rfl
@[simp] theorem Dev.updTier_nv (d : Dev) (f : Tier → Tier) : (d.updTier f).nv = d.nv := rfl
@[simp] theorem Dev.updTier_fresh (d : Dev) (f : Tier → Tier) : (d.updTier f).fresh = d.fresh := rfl
@[simp] theorem Dev.updTier_word (d : Dev) (f : Tier → Tier) (off : Nat) : (d.updTier f).word off = d.word off := rfl
@[simp] theorem Dev.updTier_rd (d : Dev) (f : Tier → Tier) (g : Fld) : (d.updTier f).rd g = d.rd g := rfl
@[simp] theorem Dev.updTier_tier (d : Dev) (f : Tier → Tier) : (d.updTier f).tier = f d.tier := rfl

/-! ### updTwn -/

@[simp] theorem Dev.updTwn_regs (d : Dev) (f : Twin → Twin) : (d.updTwn f).regs = d.regs := rfl
@[simp] theorem Dev.updTwn_pool (d : Dev) (f : Twin → Twin) : (d.updTwn f).pool = d.pool := rfl
@[simp] theorem Dev.updTwn_seq (d : Dev) (f : Twin → Twin) : (d.updTwn f).seq = d.seq := rfl
@[simp] theorem Dev.updTwn_tiles (d : Dev) (f : Twin → Twin) : (d.updTwn f).tiles = d.tiles := rfl
@[simp] theorem Dev.updTwn_thr (d : Dev) (f : Twin → Twin) : (d.updTwn f).thr = d.thr := rfl
@[simp] theorem Dev.updTwn_fe (d : Dev) (f : Twin → Twin) : (d.updTwn f).fe = d.fe := rfl
@[simp] theorem Dev.updTwn_ctu (d : Dev) (f : Twin → Twin) : (d.updTwn f).ctu = d.ctu := rfl
@[simp] theorem Dev.updTwn_tier (d : Dev) (f : Twin → Twin) : (d.updTwn f).tier = d.tier := rfl
@[simp] theorem Dev.updTwn_coh (d : Dev) (f : Twin → Twin) : (d.updTwn f).coh = d.coh := rfl
@[simp] theorem Dev.updTwn_cores (d : Dev) (f : Twin → Twin) : (d.updTwn f).cores = d.cores := rfl
@[simp] theorem Dev.updTwn_nfp (d : Dev) (f : Twin → Twin) : (d.updTwn f).nfp = d.nfp := rfl
@[simp] theorem Dev.updTwn_str (d : Dev) (f : Twin → Twin) : (d.updTwn f).str = d.str := rfl
@[simp] theorem Dev.updTwn_nrw (d : Dev) (f : Twin → Twin) : (d.updTwn f).nrw = d.nrw := rfl
@[simp] theorem Dev.updTwn_tdm (d : Dev) (f : Twin → Twin) : (d.updTwn f).tdm = d.tdm := rfl
@[simp] theorem Dev.updTwn_sec (d : Dev) (f : Twin → Twin) : (d.updTwn f).sec = d.sec := rfl
@[simp] theorem Dev.updTwn_ras (d : Dev) (f : Twin → Twin) : (d.updTwn f).ras = d.ras := rfl
@[simp] theorem Dev.updTwn_pw (d : Dev) (f : Twin → Twin) : (d.updTwn f).pw = d.pw := rfl
@[simp] theorem Dev.updTwn_boot (d : Dev) (f : Twin → Twin) : (d.updTwn f).boot = d.boot := rfl
@[simp] theorem Dev.updTwn_out (d : Dev) (f : Twin → Twin) : (d.updTwn f).out = d.out := rfl
@[simp] theorem Dev.updTwn_nv (d : Dev) (f : Twin → Twin) : (d.updTwn f).nv = d.nv := rfl
@[simp] theorem Dev.updTwn_fresh (d : Dev) (f : Twin → Twin) : (d.updTwn f).fresh = d.fresh := rfl
@[simp] theorem Dev.updTwn_word (d : Dev) (f : Twin → Twin) (off : Nat) : (d.updTwn f).word off = d.word off := rfl
@[simp] theorem Dev.updTwn_rd (d : Dev) (f : Twin → Twin) (g : Fld) : (d.updTwn f).rd g = d.rd g := rfl
@[simp] theorem Dev.updTwn_twn (d : Dev) (f : Twin → Twin) : (d.updTwn f).twn = f d.twn := rfl

/-! ### Outcomes -/

theorem act_live (f : Dev → Dev) (s : State) (h : s.dev.live = true) : act f s = .next { s with dev := f s.dev } := by simp [act, h]
theorem act_dead (f : Dev → Dev) (s : State) (h : s.dev.live = false) : act f s = .next s := by simp [act, h]
theorem run_up (f : Dev → Dev) (s : State) (h : s.dev.live = true) (h' : s.dev.down = false) : run f s = .next { s with dev := f s.dev } := by simp [run, h, h']
theorem run_dead (f : Dev → Dev) (s : State) (h : s.dev.live = false) : run f s = .next s := by simp [run, h]
theorem run_down (f : Dev → Dev) (s : State) (h : s.dev.down = true) : run f s = .next s := by simp [run, h]

end Sys2Proof.Machine
end

