-- ==== Sys2Proof/Laws/Shape.lean ====
section
/-! SUPPORT. What a command can do at all: the shape of the next state by the class of the command. -/

namespace Sys2Proof.Machine

/-- The next state differs in the module alone, and not at all without power and clocks. -/
def DevShape (o : Out) (s : State) : Prop :=
  ∃ d, o = .next { s with dev := d } ∧ (s.dev.live = false → d = s.dev)

theorem run_shape (f : Dev → Dev) (s : State) : DevShape (run f s) s := by
  unfold DevShape run
  by_cases h : (s.dev.live && !s.dev.down) = true
  · exact ⟨f s.dev, by rw [if_pos h], fun hl => by simp [hl] at h⟩
  · exact ⟨s.dev, by rw [if_neg h], fun _ => rfl⟩

theorem act_shape (f : Dev → Dev) (s : State) : DevShape (act f s) s := by
  unfold DevShape act
  by_cases h : s.dev.live = true
  · exact ⟨f s.dev, by rw [if_pos h], fun hl => by simp [hl] at h⟩
  · exact ⟨s.dev, by rw [if_neg h], fun _ => rfl⟩


theorem regCmd_shape (off : Nat) (v : Word) (f : Dev → Dev) (s : State) : DevShape (regCmd off v f s) s := run_shape _ s
theorem laneInt_shape (op : Nat) (a : LaneArgs) (s : State) : DevShape (laneInt op a s) s := run_shape _ s
theorem laneFp_shape (f : Fmt) (fn : Nat) (a : LaneArgs) (s : State) : DevShape (laneFp f fn a s) s := run_shape _ s
theorem laneLoad_shape (h : Bool) (b : Nat) (a : LaneArgs) (s : State) : DevShape (laneLoad h b a s) s := run_shape _ s
theorem laneStore_shape (b : Nat) (a : LaneArgs) (s : State) : DevShape (laneStore b a s) s := run_shape _ s
theorem laneLdc_shape (b : Nat) (a : LaneArgs) (s : State) : DevShape (laneLdc b a s) s := run_shape _ s
theorem laneLds_shape (h : Bool) (b : Nat) (g : Bool) (a : LaneArgs) (s : State) : DevShape (laneLds h b g a s) s := run_shape _ s
theorem laneSts_shape (b : Nat) (a : LaneArgs) (s : State) : DevShape (laneSts b a s) s := run_shape _ s
theorem laneAtom_shape (f : Nat) (a : LaneArgs) (s : State) : DevShape (laneAtom f a s) s := run_shape _ s
theorem laneShuffle_shape (p : Nat → Nat → Nat) (a : LaneArgs) (s : State) : DevShape (laneShuffle p a s) s := run_shape _ s
theorem resetCmd_shape (f : Dev → Dev) (s : State) : DevShape (resetCmd f s) s := run_shape _ s
theorem lanePredOp_shape (f : Bool → Bool → Bool) (l : LaneArgs) (s : State) : DevShape (lanePredOp f l s) s := run_shape _ s
theorem leeRun_shape (f : Dev → Dev) (s : State) : DevShape (leeRun f s) s := run_shape _ s
theorem windRun_shape (f : Dev → Dev) (s : State) : DevShape (windRun f s) s := run_shape _ s
theorem twnCmd_shape (op : Nat) (s : State) : DevShape (twnCmd op s) s := regCmd_shape _ _ _ s

theorem meterFrame_shape (s : State) : DevShape (execMeterFrame s) s := by
  unfold DevShape execMeterFrame
  by_cases h : (s.dev.live && s.meter.powered) = true
  · exact ⟨_, by rw [if_pos h], fun hl => by simp [hl] at h⟩
  · exact ⟨s.dev, by rw [if_neg h], fun _ => rfl⟩

theorem shelf_shape (fails : BitVec 16) (s : State) : DevShape (execShelfPackagesInitialised fails s) s := by
  unfold DevShape execShelfPackagesInitialised
  dsimp only
  split
  · exact ⟨_, rfl, fun hl => by simp_all⟩
  · exact ⟨s.dev, rfl, fun _ => rfl⟩


/-- Every command but the meter's, the power pins' and those that reach the fuses. -/
theorem exec_shape (c : Instr) (s : State) (h1 : reachesFuses c = false) (h2 : isMeterCommand c = false)
    (h3 : isPowerPin c = false) : DevShape (exec c s) s := by
  cases c with
  | registerWrite _ _ => exact Bool.noConfusion h1
  | misalignedRegisterAccess _ _ _ => rw [exec_misalignedRegisterAccess]; exact run_shape _ s
  | dropCountRead _ => rw [exec_dropCountRead]; exact run_shape _ s
  | ecallEnq _ => rw [exec_ecallEnq]; exact run_shape _ s
  | ecallFsig _ => rw [exec_ecallFsig]; exact run_shape _ s
  | ecallExit _ => rw [exec_ecallExit]; exact run_shape _ s
  | ecallOther _ => rw [exec_ecallOther]; exact run_shape _ s
  | coreTaskReturn _ => rw [exec_coreTaskReturn]; exact run_shape _ s
  | coreException _ _ _ => rw [exec_coreException]; exact run_shape _ s
  | cboClean _ _ => rw [exec_cboClean]; exact run_shape _ s
  | cboFlush _ _ => rw [exec_cboFlush]; exact run_shape _ s
  | cboInval _ _ => rw [exec_cboInval]; exact run_shape _ s
  | cboZero _ _ => rw [exec_cboZero]; exact run_shape _ s
  | splitChange _ => rw [exec_splitChange]; exact run_shape _ s
  | l1InvalidateAllComplete _ => rw [exec_l1InvalidateAllComplete]; exact run_shape _ s
  | reefSramLimitWrite _ => rw [exec_reefSramLimitWrite]; exact regCmd_shape _ _ _ s
  | tileSelfTestEnd _ _ _ => rw [exec_tileSelfTestEnd]; exact run_shape _ s
  | firmwareRotation _ => rw [exec_firmwareRotation]; exact run_shape _ s
  | spareRetestDue _ _ => rw [exec_spareRetestDue]; exact run_shape _ s
  | sliceExpiry => rw [exec_sliceExpiry]; exact run_shape _ s
  | yieldWaitExpiry => rw [exec_yieldWaitExpiry]; exact run_shape _ s
  | reefSaveComplete _ => rw [exec_reefSaveComplete]; exact run_shape _ s
  | reefRestoreComplete => rw [exec_reefRestoreComplete]; exact run_shape _ s
  | imageLoadComplete _ => rw [exec_imageLoadComplete]; exact run_shape _ s
  | resyncComplete _ => rw [exec_resyncComplete]; exact run_shape _ s
  | seqNop _ => rw [exec_seqNop]; exact run_shape _ s
  | seqAdd _ => rw [exec_seqAdd]; exact run_shape _ s
  | seqSub _ => rw [exec_seqSub]; exact run_shape _ s
  | seqAnd _ => rw [exec_seqAnd]; exact run_shape _ s
  | seqOr _ => rw [exec_seqOr]; exact run_shape _ s
  | seqXor _ => rw [exec_seqXor]; exact run_shape _ s
  | seqShl _ => rw [exec_seqShl]; exact run_shape _ s
  | seqShr _ => rw [exec_seqShr]; exact run_shape _ s
  | seqSar _ => rw [exec_seqSar]; exact run_shape _ s
  | seqMul _ => rw [exec_seqMul]; exact run_shape _ s
  | seqMin _ => rw [exec_seqMin]; exact run_shape _ s
  | seqMax _ => rw [exec_seqMax]; exact run_shape _ s
  | seqMinu _ => rw [exec_seqMinu]; exact run_shape _ s
  | seqMaxu _ => rw [exec_seqMaxu]; exact run_shape _ s
  | seqAddi _ => rw [exec_seqAddi]; exact run_shape _ s
  | seqSubi _ => rw [exec_seqSubi]; exact run_shape _ s
  | seqAndi _ => rw [exec_seqAndi]; exact run_shape _ s
  | seqOri _ => rw [exec_seqOri]; exact run_shape _ s
  | seqXori _ => rw [exec_seqXori]; exact run_shape _ s
  | seqShli _ => rw [exec_seqShli]; exact run_shape _ s
  | seqShri _ => rw [exec_seqShri]; exact run_shape _ s
  | seqSari _ => rw [exec_seqSari]; exact run_shape _ s
  | seqMuli _ => rw [exec_seqMuli]; exact run_shape _ s
  | seqMini _ => rw [exec_seqMini]; exact run_shape _ s
  | seqMaxi _ => rw [exec_seqMaxi]; exact run_shape _ s
  | seqMinui _ => rw [exec_seqMinui]; exact run_shape _ s
  | seqMaxui _ => rw [exec_seqMaxui]; exact run_shape _ s
  | seqLih _ => rw [exec_seqLih]; exact run_shape _ s
  | seqCmp _ => rw [exec_seqCmp]; exact run_shape _ s
  | seqCmpi _ => rw [exec_seqCmpi]; exact run_shape _ s
  | seqLdc _ => rw [exec_seqLdc]; exact run_shape _ s
  | seqLdd _ => rw [exec_seqLdd]; exact run_shape _ s
  | seqOrdl _ => rw [exec_seqOrdl]; exact run_shape _ s
  | seqDbase _ => rw [exec_seqDbase]; exact run_shape _ s
  | seqDscale _ => rw [exec_seqDscale]; exact run_shape _ s
  | seqMovh _ => rw [exec_seqMovh]; exact run_shape _ s
  | seqHcmp _ => rw [exec_seqHcmp]; exact run_shape _ s
  | seqHclr _ => rw [exec_seqHclr]; exact run_shape _ s
  | seqBr _ => rw [exec_seqBr]; exact run_shape _ s
  | seqLoop _ => rw [exec_seqLoop]; exact run_shape _ s
  | seqEnd _ => rw [exec_seqEnd]; exact run_shape _ s
  | aop _ _ => rw [exec_aop]; exact run_shape _ s
  | matrixPartStart _ => rw [exec_matrixPartStart]; exact run_shape _ s
  | flowPartStart _ => rw [exec_flowPartStart]; exact run_shape _ s
  | flowPartEnd _ => rw [exec_flowPartEnd]; exact run_shape _ s
  | arrayOpDone _ => rw [exec_arrayOpDone]; exact run_shape _ s
  | seqWaita _ => rw [exec_seqWaita]; exact run_shape _ s
  | seqLdt _ => rw [exec_seqLdt]; exact run_shape _ s
  | seqStt _ => rw [exec_seqStt]; exact run_shape _ s
  | seqXlt _ => rw [exec_seqXlt]; exact run_shape _ s
  | moveComplete _ _ => rw [exec_moveComplete]; exact run_shape _ s
  | seqWaitm _ => rw [exec_seqWaitm]; exact run_shape _ s
  | seqEnq _ => rw [exec_seqEnq]; exact run_shape _ s
  | seqFsig _ => rw [exec_seqFsig]; exact run_shape _ s
  | seqRotp _ => rw [exec_seqRotp]; exact run_shape _ s
  | seqYldp _ => rw [exec_seqYldp]; exact run_shape _ s
  | seqTally _ => rw [exec_seqTally]; exact run_shape _ s
  | blockPlacement _ => rw [exec_blockPlacement]; exact run_shape _ s
  | intAdd _ => rw [exec_intAdd]; exact laneInt_shape _ _ s
  | intSub _ => rw [exec_intSub]; exact laneInt_shape _ _ s
  | intMul _ => rw [exec_intMul]; exact laneInt_shape _ _ s
  | intMulhi _ => rw [exec_intMulhi]; exact laneInt_shape _ _ s
  | intMulhiu _ => rw [exec_intMulhiu]; exact laneInt_shape _ _ s
  | intAnd _ => rw [exec_intAnd]; exact laneInt_shape _ _ s
  | intOr _ => rw [exec_intOr]; exact laneInt_shape _ _ s
  | intXor _ => rw [exec_intXor]; exact laneInt_shape _ _ s
  | intShl _ => rw [exec_intShl]; exact laneInt_shape _ _ s
  | intShr _ => rw [exec_intShr]; exact laneInt_shape _ _ s
  | intSar _ => rw [exec_intSar]; exact laneInt_shape _ _ s
  | intMin _ => rw [exec_intMin]; exact laneInt_shape _ _ s
  | intMax _ => rw [exec_intMax]; exact laneInt_shape _ _ s
  | intMinu _ => rw [exec_intMinu]; exact laneInt_shape _ _ s
  | intMaxu _ => rw [exec_intMaxu]; exact laneInt_shape _ _ s
  | intPopc _ => rw [exec_intPopc]; exact laneInt_shape _ _ s
  | intClz _ => rw [exec_intClz]; exact laneInt_shape _ _ s
  | intMad _ => rw [exec_intMad]; exact laneInt_shape _ _ s
  | intMov _ => rw [exec_intMov]; exact laneInt_shape _ _ s
  | fp32Add _ => rw [exec_fp32Add]; exact laneFp_shape _ _ _ s
  | fp32Sub _ => rw [exec_fp32Sub]; exact laneFp_shape _ _ _ s
  | fp32Mul _ => rw [exec_fp32Mul]; exact laneFp_shape _ _ _ s
  | fp32Fma _ => rw [exec_fp32Fma]; exact laneFp_shape _ _ _ s
  | fp32Min _ => rw [exec_fp32Min]; exact laneFp_shape _ _ _ s
  | fp32Max _ => rw [exec_fp32Max]; exact laneFp_shape _ _ _ s
  | fp32Abs _ => rw [exec_fp32Abs]; exact laneFp_shape _ _ _ s
  | fp32Neg _ => rw [exec_fp32Neg]; exact laneFp_shape _ _ _ s
  | fp32Rint _ => rw [exec_fp32Rint]; exact laneFp_shape _ _ _ s
  | fp32Ldexp _ => rw [exec_fp32Ldexp]; exact laneFp_shape _ _ _ s
  | fp32Rcp _ => rw [exec_fp32Rcp]; exact laneFp_shape _ _ _ s
  | fp32Div _ => rw [exec_fp32Div]; exact laneFp_shape _ _ _ s
  | fp32Sqrt _ => rw [exec_fp32Sqrt]; exact laneFp_shape _ _ _ s
  | fp32Rsqrt _ => rw [exec_fp32Rsqrt]; exact laneFp_shape _ _ _ s
  | fp32Exp _ => rw [exec_fp32Exp]; exact laneFp_shape _ _ _ s
  | fp32Exp2 _ => rw [exec_fp32Exp2]; exact laneFp_shape _ _ _ s
  | fp32Log _ => rw [exec_fp32Log]; exact laneFp_shape _ _ _ s
  | fp32Log2 _ => rw [exec_fp32Log2]; exact laneFp_shape _ _ _ s
  | fp32Tanh _ => rw [exec_fp32Tanh]; exact laneFp_shape _ _ _ s
  | fp32Sigmoid _ => rw [exec_fp32Sigmoid]; exact laneFp_shape _ _ _ s
  | fp32Erf _ => rw [exec_fp32Erf]; exact laneFp_shape _ _ _ s
  | fp32Sin _ => rw [exec_fp32Sin]; exact laneFp_shape _ _ _ s
  | fp32Cos _ => rw [exec_fp32Cos]; exact laneFp_shape _ _ _ s
  | fp64Add _ => rw [exec_fp64Add]; exact laneFp_shape _ _ _ s
  | fp64Sub _ => rw [exec_fp64Sub]; exact laneFp_shape _ _ _ s
  | fp64Mul _ => rw [exec_fp64Mul]; exact laneFp_shape _ _ _ s
  | fp64Fma _ => rw [exec_fp64Fma]; exact laneFp_shape _ _ _ s
  | fp64Min _ => rw [exec_fp64Min]; exact laneFp_shape _ _ _ s
  | fp64Max _ => rw [exec_fp64Max]; exact laneFp_shape _ _ _ s
  | fp64Abs _ => rw [exec_fp64Abs]; exact laneFp_shape _ _ _ s
  | fp64Neg _ => rw [exec_fp64Neg]; exact laneFp_shape _ _ _ s
  | fp64Rint _ => rw [exec_fp64Rint]; exact laneFp_shape _ _ _ s
  | fp64Ldexp _ => rw [exec_fp64Ldexp]; exact laneFp_shape _ _ _ s
  | fp64Rcp _ => rw [exec_fp64Rcp]; exact laneFp_shape _ _ _ s
  | fp64Div _ => rw [exec_fp64Div]; exact laneFp_shape _ _ _ s
  | fp64Sqrt _ => rw [exec_fp64Sqrt]; exact laneFp_shape _ _ _ s
  | fp64Rsqrt _ => rw [exec_fp64Rsqrt]; exact laneFp_shape _ _ _ s
  | fp64Exp _ => rw [exec_fp64Exp]; exact laneFp_shape _ _ _ s
  | fp64Exp2 _ => rw [exec_fp64Exp2]; exact laneFp_shape _ _ _ s
  | fp64Log _ => rw [exec_fp64Log]; exact laneFp_shape _ _ _ s
  | fp64Log2 _ => rw [exec_fp64Log2]; exact laneFp_shape _ _ _ s
  | fp64Tanh _ => rw [exec_fp64Tanh]; exact laneFp_shape _ _ _ s
  | fp64Sigmoid _ => rw [exec_fp64Sigmoid]; exact laneFp_shape _ _ _ s
  | fp64Erf _ => rw [exec_fp64Erf]; exact laneFp_shape _ _ _ s
  | fp64Sin _ => rw [exec_fp64Sin]; exact laneFp_shape _ _ _ s
  | fp64Cos _ => rw [exec_fp64Cos]; exact laneFp_shape _ _ _ s
  | laneCvt _ => rw [exec_laneCvt]; exact run_shape _ s
  | laneCmp _ => rw [exec_laneCmp]; exact run_shape _ s
  | laneSel _ => rw [exec_laneSel]; exact run_shape _ s
  | lanePand _ => rw [exec_lanePand]; exact lanePredOp_shape _ _ s
  | lanePor _ => rw [exec_lanePor]; exact lanePredOp_shape _ _ s
  | lanePxor _ => rw [exec_lanePxor]; exact lanePredOp_shape _ _ s
  | lanePnot _ => rw [exec_lanePnot]; exact lanePredOp_shape _ _ s
  | laneBra _ => rw [exec_laneBra]; exact run_shape _ s
  | laneJoin _ => rw [exec_laneJoin]; exact run_shape _ s
  | laneBar _ => rw [exec_laneBar]; exact run_shape _ s
  | laneExit _ => rw [exec_laneExit]; exact run_shape _ s
  | laneNop _ => rw [exec_laneNop]; exact run_shape _ s
  | lds8 _ => rw [exec_lds8]; exact laneLds_shape _ _ _ _ s
  | lds16 _ => rw [exec_lds16]; exact laneLds_shape _ _ _ _ s
  | lds32 _ => rw [exec_lds32]; exact laneLds_shape _ _ _ _ s
  | lds64 _ => rw [exec_lds64]; exact laneLds_shape _ _ _ _ s
  | lds8s _ => rw [exec_lds8s]; exact laneLds_shape _ _ _ _ s
  | lds16s _ => rw [exec_lds16s]; exact laneLds_shape _ _ _ _ s
  | sts8 _ => rw [exec_sts8]; exact laneSts_shape _ _ s
  | sts16 _ => rw [exec_sts16]; exact laneSts_shape _ _ s
  | sts32 _ => rw [exec_sts32]; exact laneSts_shape _ _ s
  | sts64 _ => rw [exec_sts64]; exact laneSts_shape _ _ s
  | ldsa32 _ => rw [exec_ldsa32]; exact laneLds_shape _ _ _ _ s
  | ldsa64 _ => rw [exec_ldsa64]; exact laneLds_shape _ _ _ _ s
  | ld8 _ => rw [exec_ld8]; exact laneLoad_shape _ _ _ s
  | ld16 _ => rw [exec_ld16]; exact laneLoad_shape _ _ _ s
  | ld32 _ => rw [exec_ld32]; exact laneLoad_shape _ _ _ s
  | ld64 _ => rw [exec_ld64]; exact laneLoad_shape _ _ _ s
  | ldcg8 _ => rw [exec_ldcg8]; exact laneLoad_shape _ _ _ s
  | ldcg16 _ => rw [exec_ldcg16]; exact laneLoad_shape _ _ _ s
  | ldcg32 _ => rw [exec_ldcg32]; exact laneLoad_shape _ _ _ s
  | ldcg64 _ => rw [exec_ldcg64]; exact laneLoad_shape _ _ _ s
  | st8 _ => rw [exec_st8]; exact laneStore_shape _ _ s
  | st16 _ => rw [exec_st16]; exact laneStore_shape _ _ s
  | st32 _ => rw [exec_st32]; exact laneStore_shape _ _ s
  | st64 _ => rw [exec_st64]; exact laneStore_shape _ _ s
  | ldc32 _ => rw [exec_ldc32]; exact laneLdc_shape _ _ s
  | ldc64 _ => rw [exec_ldc64]; exact laneLdc_shape _ _ s
  | atomAdd _ => rw [exec_atomAdd]; exact laneAtom_shape _ _ s
  | atomFadd _ => rw [exec_atomFadd]; exact laneAtom_shape _ _ s
  | atomMin _ => rw [exec_atomMin]; exact laneAtom_shape _ _ s
  | atomMax _ => rw [exec_atomMax]; exact laneAtom_shape _ _ s
  | atomMinu _ => rw [exec_atomMinu]; exact laneAtom_shape _ _ s
  | atomMaxu _ => rw [exec_atomMaxu]; exact laneAtom_shape _ _ s
  | atomAnd _ => rw [exec_atomAnd]; exact laneAtom_shape _ _ s
  | atomOr _ => rw [exec_atomOr]; exact laneAtom_shape _ _ s
  | atomXor _ => rw [exec_atomXor]; exact laneAtom_shape _ _ s
  | atomExch _ => rw [exec_atomExch]; exact laneAtom_shape _ _ s
  | atomCas _ => rw [exec_atomCas]; exact laneAtom_shape _ _ s
  | redo _ => rw [exec_redo]; exact run_shape _ s
  | laneLread _ => rw [exec_laneLread]; exact laneShuffle_shape _ _ s
  | laneLpair _ => rw [exec_laneLpair]; exact laneShuffle_shape _ _ s
  | laneLrot _ => rw [exec_laneLrot]; exact laneShuffle_shape _ _ s
  | laneVmask _ => rw [exec_laneVmask]; exact run_shape _ s
  | laneVfirst _ => rw [exec_laneVfirst]; exact run_shape _ s
  | lanePmask _ => rw [exec_lanePmask]; exact run_shape _ s
  | laneS2r _ => rw [exec_laneS2r]; exact run_shape _ s
  | laneFence _ => rw [exec_laneFence]; exact run_shape _ s
  | laneMemoryResponse _ _ _ => rw [exec_laneMemoryResponse]; exact run_shape _ s
  | barrierExpiry _ _ => rw [exec_barrierExpiry]; exact run_shape _ s
  | nfpDomCtrlWrite _ => rw [exec_nfpDomCtrlWrite]; exact regCmd_shape _ _ _ s
  | ptpMessage _ _ _ => rw [exec_ptpMessage]; exact run_shape _ s
  | fineSyncExchange _ => rw [exec_fineSyncExchange]; exact run_shape _ s
  | domainStart => rw [exec_domainStart]; exact run_shape _ s
  | tickBoundary => rw [exec_tickBoundary]; exact run_shape _ s
  | domainWord _ _ => rw [exec_domainWord]; exact run_shape _ s
  | announcement _ _ _ => rw [exec_announcement]; exact run_shape _ s
  | schedLoad => rw [exec_schedLoad]; exact regCmd_shape _ _ _ s
  | scheduledSlot _ _ _ => rw [exec_scheduledSlot]; exact run_shape _ s
  | openSlot _ => rw [exec_openSlot]; exact run_shape _ s
  | domainLaunchStart => rw [exec_domainLaunchStart]; exact run_shape _ s
  | hbmRead _ _ => rw [exec_hbmRead]; exact run_shape _ s
  | hbmWrite _ _ _ => rw [exec_hbmWrite]; exact run_shape _ s
  | perBankRefresh _ _ _ => rw [exec_perBankRefresh]; exact run_shape _ s
  | refreshManagementRequest _ _ => rw [exec_refreshManagementRequest]; exact run_shape _ s
  | channelRetrain _ _ => rw [exec_channelRetrain]; exact run_shape _ s
  | stackTemperatureRead _ _ => rw [exec_stackTemperatureRead]; exact act_shape _ s
  | saturationWindowEnd _ _ => rw [exec_saturationWindowEnd]; exact run_shape _ s
  | scrub _ _ => rw [exec_scrub]; exact run_shape _ s
  | parityError _ _ => rw [exec_parityError]; exact run_shape _ s
  | takeOut _ => rw [exec_takeOut]; exact regCmd_shape _ _ _ s
  | memReturn _ => rw [exec_memReturn]; exact regCmd_shape _ _ _ s
  | margin _ _ => rw [exec_margin]; exact regCmd_shape _ _ _ s
  | retire _ => rw [exec_retire]; exact regCmd_shape _ _ _ s
  | sweep _ _ => rw [exec_sweep]; exact regCmd_shape _ _ _ s
  | takeOutCopyComplete _ => rw [exec_takeOutCopyComplete]; exact run_shape _ s
  | returnCopyComplete _ => rw [exec_returnCopyComplete]; exact run_shape _ s
  | marginRunComplete _ _ => rw [exec_marginRunComplete]; exact run_shape _ s
  | publishOpen _ => rw [exec_publishOpen]; exact run_shape _ s
  | publishWrite _ => rw [exec_publishWrite]; exact run_shape _ s
  | publishProgramComplete _ => rw [exec_publishProgramComplete]; exact run_shape _ s
  | publishSeal _ => rw [exec_publishSeal]; exact run_shape _ s
  | shelfDelete _ => rw [exec_shelfDelete]; exact run_shape _ s
  | promote _ => rw [exec_promote]; exact run_shape _ s
  | evict _ => rw [exec_evict]; exact run_shape _ s
  | bindRecv _ => rw [exec_bindRecv]; exact run_shape _ s
  | unbind _ => rw [exec_unbind]; exact run_shape _ s
  | shelfStripeRead _ _ _ => rw [exec_shelfStripeRead]; exact run_shape _ s
  | promotionDeadline _ => rw [exec_promotionDeadline]; exact run_shape _ s
  | refetchDeadline _ => rw [exec_refetchDeadline]; exact run_shape _ s
  | rdShared _ _ => rw [exec_rdShared]; exact run_shape _ s
  | rdOwn _ _ => rw [exec_rdOwn]; exact run_shape _ s
  | upgrade _ _ => rw [exec_upgrade]; exact run_shape _ s
  | rdOnce _ _ => rw [exec_rdOnce]; exact run_shape _ s
  | wr _ _ _ _ _ _ => rw [exec_wr]; exact run_shape _ s
  | atom _ _ _ => rw [exec_atom]; exact run_shape _ s
  | clean _ _ => rw [exec_clean]; exact run_shape _ s
  | flush _ _ => rw [exec_flush]; exact run_shape _ s
  | cohMove _ _ => rw [exec_cohMove]; exact run_shape _ s
  | evictLine _ _ => rw [exec_evictLine]; exact run_shape _ s
  | snpShare _ _ => rw [exec_snpShare]; exact run_shape _ s
  | snpClean _ _ => rw [exec_snpClean]; exact run_shape _ s
  | snpInv _ _ => rw [exec_snpInv]; exact run_shape _ s
  | snpAns _ _ => rw [exec_snpAns]; exact run_shape _ s
  | snoopTimeout _ _ => rw [exec_snoopTimeout]; exact run_shape _ s
  | offline _ => rw [exec_offline]; exact regCmd_shape _ _ _ s
  | online _ => rw [exec_online]; exact regCmd_shape _ _ _ s
  | dead _ => rw [exec_dead]; exact regCmd_shape _ _ _ s
  | clusterCleaningComplete _ => rw [exec_clusterCleaningComplete]; exact run_shape _ s
  | wayTargetWrite _ _ => rw [exec_wayTargetWrite]; exact regCmd_shape _ _ _ s
  | wayCleaningComplete _ => rw [exec_wayCleaningComplete]; exact run_shape _ s
  | cacheDataError _ _ _ => rw [exec_cacheDataError]; exact run_shape _ s
  | cacheTagParityError _ _ _ _ => rw [exec_cacheTagParityError]; exact run_shape _ s
  | dumpHandlerFailure => rw [exec_dumpHandlerFailure]; exact act_shape _ s
  | translationQuery _ _ _ _ _ => rw [exec_translationQuery]; exact run_shape _ s
  | walkReadComplete _ => rw [exec_walkReadComplete]; exact run_shape _ s
  | faultRetry _ => rw [exec_faultRetry]; exact run_shape _ s
  | ctuRetry _ => rw [exec_ctuRetry]; exact regCmd_shape _ _ _ s
  | ctuFail _ => rw [exec_ctuFail]; exact regCmd_shape _ _ _ s
  | faultTimeout _ => rw [exec_faultTimeout]; exact run_shape _ s
  | invRange _ _ _ _ => rw [exec_invRange]; exact regCmd_shape _ _ _ s
  | invTag _ => rw [exec_invTag]; exact regCmd_shape _ _ _ s
  | invalidationComplete _ => rw [exec_invalidationComplete]; exact run_shape _ s
  | counterHalving => rw [exec_counterHalving]; exact run_shape _ s
  | faultRingEnable _ => rw [exec_faultRingEnable]; exact regCmd_shape _ _ _ s
  | ctuSwitchover _ => rw [exec_ctuSwitchover]; exact run_shape _ s
  | standbyCtuFailure => rw [exec_standbyCtuFailure]; exact run_shape _ s
  | sqTail _ _ => rw [exec_sqTail]; exact run_shape _ s
  | cqHead _ _ => rw [exec_cqHead]; exact run_shape _ s
  | entryRead _ _ => rw [exec_entryRead]; exact run_shape _ s
  | entryReRead _ _ => rw [exec_entryReRead]; exact run_shape _ s
  | entryDispatch _ _ => rw [exec_entryDispatch]; exact run_shape _ s
  | nopEntry _ => rw [exec_nopEntry]; exact run_shape _ s
  | launchArray _ => rw [exec_launchArray]; exact run_shape _ s
  | launchThreads _ => rw [exec_launchThreads]; exact run_shape _ s
  | copy _ => rw [exec_copy]; exact run_shape _ s
  | collective _ => rw [exec_collective]; exact run_shape _ s
  | coreTask _ _ => rw [exec_coreTask]; exact run_shape _ s
  | feWait _ => rw [exec_feWait]; exact run_shape _ s
  | feSignal _ => rw [exec_feSignal]; exact run_shape _ s
  | feAlloc _ _ _ => rw [exec_feAlloc]; exact run_shape _ s
  | feFree _ => rw [exec_feFree]; exact run_shape _ s
  | feInvalidate _ => rw [exec_feInvalidate]; exact run_shape _ s
  | graphLaunch _ => rw [exec_graphLaunch]; exact run_shape _ s
  | createContext _ _ => rw [exec_createContext]; exact run_shape _ s
  | destroyContext _ => rw [exec_destroyContext]; exact run_shape _ s
  | createQueue _ _ => rw [exec_createQueue]; exact run_shape _ s
  | resetQueue _ => rw [exec_resetQueue]; exact run_shape _ s
  | resumeQueue _ => rw [exec_resumeQueue]; exact run_shape _ s
  | destroyQueue _ => rw [exec_destroyQueue]; exact run_shape _ s
  | createFence _ => rw [exec_createFence]; exact run_shape _ s
  | destroyFence _ => rw [exec_destroyFence]; exact run_shape _ s
  | graphCreate _ _ _ => rw [exec_graphCreate]; exact run_shape _ s
  | graphPatch _ _ => rw [exec_graphPatch]; exact run_shape _ s
  | graphDestroy _ => rw [exec_graphDestroy]; exact run_shape _ s
  | allocPhys _ _ => rw [exec_allocPhys]; exact run_shape _ s
  | freePhys _ => rw [exec_freePhys]; exact run_shape _ s
  | operationComplete _ => rw [exec_operationComplete]; exact run_shape _ s
  | fenceTimeout _ => rw [exec_fenceTimeout]; exact run_shape _ s
  | coreTaskTimeout _ => rw [exec_coreTaskTimeout]; exact run_shape _ s
  | functionDisable _ => rw [exec_functionDisable]; exact regCmd_shape _ _ _ s
  | functionEnable _ => rw [exec_functionEnable]; exact regCmd_shape _ _ _ s
  | functionDrainTimeout _ => rw [exec_functionDrainTimeout]; exact run_shape _ s
  | feFenceSignal _ => rw [exec_feFenceSignal]; exact regCmd_shape _ _ _ s
  | clrError _ => rw [exec_clrError]; exact regCmd_shape _ _ _ s
  | adminRingEnable _ _ => rw [exec_adminRingEnable]; exact run_shape _ s
  | interruptHoldoffExpiry _ => rw [exec_interruptHoldoffExpiry]; exact run_shape _ s
  | portEnable _ => rw [exec_portEnable]; exact regCmd_shape _ _ _ s
  | linkStepTimeout _ => rw [exec_linkStepTimeout]; exact act_shape _ s
  | linkRestart _ => rw [exec_linkRestart]; exact act_shape _ s
  | laneFailure _ _ => rw [exec_laneFailure]; exact act_shape _ s
  | laneRepair _ => rw [exec_laneRepair]; exact act_shape _ s
  | dataFlit _ _ _ => rw [exec_dataFlit]; exact act_shape _ s
  | linkNak _ _ => rw [exec_linkNak]; exact act_shape _ s
  | nfpWr _ _ => rw [exec_nfpWr]; exact run_shape _ s
  | nfpRd _ _ => rw [exec_nfpRd]; exact run_shape _ s
  | nfpAtom _ _ => rw [exec_nfpAtom]; exact run_shape _ s
  | fetch _ _ => rw [exec_fetch]; exact run_shape _ s
  | coll _ _ => rw [exec_coll]; exact run_shape _ s
  | mgmt _ _ => rw [exec_mgmt]; exact run_shape _ s
  | nfpAck _ => rw [exec_nfpAck]; exact run_shape _ s
  | rdata _ => rw [exec_rdata]; exact run_shape _ s
  | atomr _ => rw [exec_atomr]; exact run_shape _ s
  | nack _ => rw [exec_nack]; exact run_shape _ s
  | requestTimeout _ => rw [exec_requestTimeout]; exact run_shape _ s
  | jobEnd _ => rw [exec_jobEnd]; exact regCmd_shape _ _ _ s
  | exportWindowOpen _ _ => rw [exec_exportWindowOpen]; exact regCmd_shape _ _ _ s
  | exportWindowClose _ => rw [exec_exportWindowClose]; exact regCmd_shape _ _ _ s
  | collectiveTimeout _ => rw [exec_collectiveTimeout]; exact run_shape _ s
  | ethernetFrame _ _ _ _ _ => rw [exec_ethernetFrame]; exact run_shape _ s
  | straitWr _ _ _ => exact Bool.noConfusion h1
  | straitRd _ _ _ => rw [exec_straitRd]; exact act_shape _ s
  | straitAtom _ _ _ _ _ => rw [exec_straitAtom]; exact run_shape _ s
  | cpl _ _ _ _ => rw [exec_cpl]; exact run_shape _ s
  | straitRequestTimeout _ => rw [exec_straitRequestTimeout]; exact run_shape _ s
  | straitLinkDown => rw [exec_straitLinkDown]; exact act_shape _ s
  | dmaTailWrite _ _ => rw [exec_dmaTailWrite]; exact regCmd_shape _ _ _ s
  | dmaDescriptorComplete _ _ _ => rw [exec_dmaDescriptorComplete]; exact run_shape _ s
  | dmaChannelEnable _ _ => rw [exec_dmaChannelEnable]; exact regCmd_shape _ _ _ s
  | moduleTakeOut _ _ => rw [exec_moduleTakeOut]; exact act_shape _ s
  | narrowsFlit _ _ _ _ => rw [exec_narrowsFlit]; exact act_shape _ s
  | narrowsNak _ _ _ => rw [exec_narrowsNak]; exact act_shape _ s
  | moduleIdle _ _ => rw [exec_moduleIdle]; exact act_shape _ s
  | dieResetRelease => exact Bool.noConfusion h1
  | discoveryStepTimeout _ => rw [exec_discoveryStepTimeout]; exact act_shape _ s
  | identity _ _ => rw [exec_identity]; exact act_shape _ s
  | configuration => rw [exec_configuration]; exact act_shape _ s
  | confirm _ => rw [exec_confirm]; exact act_shape _ s
  | clockMasterFailure => rw [exec_clockMasterFailure]; exact act_shape _ s
  | standbyRootFailure => rw [exec_standbyRootFailure]; exact act_shape _ s
  | referenceLoss => rw [exec_referenceLoss]; exact act_shape _ s
  | referenceReturn => rw [exec_referenceReturn]; exact act_shape _ s
  | dieReset _ => rw [exec_dieReset]; exact regCmd_shape _ _ _ s
  | dieDrainComplete => rw [exec_dieDrainComplete]; exact run_shape _ s
  | dieResetHoldEnd => rw [exec_dieResetHoldEnd]; exact run_shape _ s
  | dieRejoinComplete _ => rw [exec_dieRejoinComplete]; exact run_shape _ s
  | twinLinkEnable _ => rw [exec_twinLinkEnable]; exact regCmd_shape _ _ _ s
  | partnerSilence => rw [exec_partnerSilence]; exact run_shape _ s
  | twinLinkDown => rw [exec_twinLinkDown]; exact run_shape _ s
  | twnDispatch _ _ _ => rw [exec_twnDispatch]; exact leeRun_shape _ s
  | twnRefusal _ _ _ _ => rw [exec_twnRefusal]; exact leeRun_shape _ s
  | worldWrite _ _ _ _ => rw [exec_worldWrite]; exact run_shape _ s
  | twnAnswer _ _ _ _ => rw [exec_twnAnswer]; exact leeRun_shape _ s
  | twnDecision _ => rw [exec_twnDecision]; exact leeRun_shape _ s
  | twnComplete _ _ _ _ => rw [exec_twnComplete]; exact leeRun_shape _ s
  | twnStream _ _ _ _ _ _ => rw [exec_twnStream]; exact leeRun_shape _ s
  | twnAck _ => rw [exec_twnAck]; exact windRun_shape _ s
  | twnCommit _ => rw [exec_twnCommit]; exact windRun_shape _ s
  | twnDigest _ _ => rw [exec_twnDigest]; exact leeRun_shape _ s
  | twnAgree _ => rw [exec_twnAgree]; exact windRun_shape _ s
  | twnDisagree _ _ => rw [exec_twnDisagree]; exact windRun_shape _ s
  | twnPosted _ => rw [exec_twnPosted]; exact leeRun_shape _ s
  | twnFailing => rw [exec_twnFailing]; exact run_shape _ s
  | twnPair => rw [exec_twnPair]; exact twnCmd_shape _ s
  | verdictWindward => rw [exec_verdictWindward]; exact twnCmd_shape _ s
  | verdictLeeward => rw [exec_verdictLeeward]; exact twnCmd_shape _ s
  | twnSolo => rw [exec_twnSolo]; exact twnCmd_shape _ s
  | twnTakeover => rw [exec_twnTakeover]; exact twnCmd_shape _ s
  | twnFence => rw [exec_twnFence]; exact twnCmd_shape _ s
  | verdictTimeout => rw [exec_verdictTimeout]; exact run_shape _ s
  | seedingCopyComplete => rw [exec_seedingCopyComplete]; exact run_shape _ s
  | coreSelfTestEnd _ _ _ _ => rw [exec_coreSelfTestEnd]; exact run_shape _ s
  | firmwareCoreFailure _ _ => rw [exec_firmwareCoreFailure]; exact run_shape _ s
  | shelfBlockFailure _ _ _ => rw [exec_shelfBlockFailure]; exact run_shape _ s
  | maintenanceEntry => rw [exec_maintenanceEntry]; exact regCmd_shape _ _ _ s
  | maintenanceReached => rw [exec_maintenanceReached]; exact run_shape _ s
  | maintenanceExit => rw [exec_maintenanceExit]; exact regCmd_shape _ _ _ s
  | testTile _ => rw [exec_testTile]; exact regCmd_shape _ _ _ s
  | testTileAll => rw [exec_testTileAll]; exact regCmd_shape _ _ _ s
  | testCore _ => rw [exec_testCore]; exact regCmd_shape _ _ _ s
  | shelfScan => rw [exec_shelfScan]; exact regCmd_shape _ _ _ s
  | testCommandComplete _ _ => rw [exec_testCommandComplete]; exact run_shape _ s
  | tidemarkReport _ => rw [exec_tidemarkReport]; exact act_shape _ s
  | spillDrain => rw [exec_spillDrain]; exact act_shape _ s
  | tdmAck _ _ => rw [exec_tdmAck]; exact regCmd_shape _ _ _ s
  | tdmOpen _ _ => rw [exec_tdmOpen]; exact run_shape _ s
  | dumpRelease => rw [exec_dumpRelease]; exact regCmd_shape _ _ _ s
  | lcTransition _ _ => exact Bool.noConfusion h1
  | quote _ => rw [exec_quote]; exact regCmd_shape _ _ _ s
  | mrExtend _ => rw [exec_mrExtend]; exact regCmd_shape _ _ _ s
  | patchStage => rw [exec_patchStage]; exact regCmd_shape _ _ _ s
  | patchClear => rw [exec_patchClear]; exact regCmd_shape _ _ _ s
  | rollbackAdvance _ => rw [exec_rollbackAdvance]; exact regCmd_shape _ _ _ s
  | cryptoErase _ => rw [exec_cryptoErase]; exact regCmd_shape _ _ _ s
  | installCert => rw [exec_installCert]; exact regCmd_shape _ _ _ s
  | lcAdvance => exact Bool.noConfusion h1
  | tapBypass => rw [exec_tapBypass]; exact act_shape _ s
  | tapIdcode => rw [exec_tapIdcode]; exact act_shape _ s
  | tapSamplePreload => rw [exec_tapSamplePreload]; exact act_shape _ s
  | tapExtest => rw [exec_tapExtest]; exact act_shape _ s
  | tapClamp => rw [exec_tapClamp]; exact act_shape _ s
  | tapHighz => rw [exec_tapHighz]; exact act_shape _ s
  | tapEscape _ => rw [exec_tapEscape]; exact act_shape _ s
  | entropyHealthFailure _ => rw [exec_entropyHealthFailure]; exact act_shape _ s
  | leak => rw [exec_leak]; exact act_shape _ s
  | converterStart _ => exact Bool.noConfusion h3
  | pwrGood => exact Bool.noConfusion h3
  | modEnFall => exact Bool.noConfusion h3
  | inputLoss => exact Bool.noConfusion h3
  | vddAccFault _ => rw [exec_vddAccFault]; exact act_shape _ s
  | limitSample _ _ => rw [exec_limitSample]; exact act_shape _ s
  | divisorChange => rw [exec_divisorChange]; exact act_shape _ s
  | meterFrame => rw [exec_meterFrame]; exact meterFrame_shape s
  | meterStale => rw [exec_meterStale]; exact act_shape _ s
  | meterPulse => exact Bool.noConfusion h2
  | meterSupplyChange _ => exact Bool.noConfusion h2
  | coverOpening => exact Bool.noConfusion h2
  | readEnergy _ => exact Bool.noConfusion h2
  | readIdent _ => exact Bool.noConfusion h2
  | readLog _ => exact Bool.noConfusion h2
  | readStatus _ => exact Bool.noConfusion h2
  | coldRstN => exact Bool.noConfusion h3
  | warmRstN => rw [exec_warmRstN]; exact act_shape _ s
  | resetCold => rw [exec_resetCold]; exact resetCmd_shape _ s
  | resetWarm => rw [exec_resetWarm]; exact resetCmd_shape _ s
  | hbmTrainingComplete _ _ => rw [exec_hbmTrainingComplete]; exact act_shape _ s
  | hardRepairComplete _ _ => rw [exec_hardRepairComplete]; exact act_shape _ s
  | poolFillComplete => rw [exec_poolFillComplete]; exact act_shape _ s
  | shelfDirectoryLoaded => rw [exec_shelfDirectoryLoaded]; exact act_shape _ s
  | servicesStart => exact Bool.noConfusion h1
  | startUpReady => rw [exec_startUpReady]; exact act_shape _ s
  | coreInstruction _ _ => rw [exec_coreInstruction]; exact run_shape _ s
  | coreMemoryResponse _ _ _ => rw [exec_coreMemoryResponse]; exact run_shape _ s
  | unknownOpcode _ => rw [exec_unknownOpcode]; exact run_shape _ s
  | laneIllegalInstruction _ => rw [exec_laneIllegalInstruction]; exact run_shape _ s
  | trainingStepComplete _ _ => rw [exec_trainingStepComplete]; exact act_shape _ s
  | atomrHoldExpiry _ _ _ => rw [exec_atomrHoldExpiry]; exact run_shape _ s
  | dumpComplete => rw [exec_dumpComplete]; exact act_shape _ s
  | secCommandComplete => exact Bool.noConfusion h1
  | railFault _ => exact Bool.noConfusion h3
  | meterUnknownCmd _ => exact Bool.noConfusion h2
  | shelfPackagesInitialised _ => rw [exec_shelfPackagesInitialised]; exact shelf_shape _ s
  | standbyCtuCopyComplete => rw [exec_standbyCtuCopyComplete]; exact run_shape _ s

end Sys2Proof.Machine
end

