-- ==== Sys2Proof/WellFormed.lean ====
section
/-! DEFINITION. Well-formed commands: operands in the ranges that the manual gives them. No meaning relies on it. -/

namespace Sys2Proof

/-- A lane instruction names a logical tile and a group slot (Tables 3.1, 6.5). -/
def LaneArgs.wf (l : LaneArgs) : Bool := decide (l.tile < 640) && decide (l.slot < 32)

/-- A lane of an atomic lies in its line, naturally aligned, with a FUNC that Table 6.4 lists (R185, R187). -/
def AtomLane.wf (a : AtomLane) : Bool :=
  let n := if a.wide then 8 else 4
  decide (a.off + n ≤ 64) && a.off % n == 0 && decide (a.func.toNat ≤ 10)

/-- A packet's payload fits (Table 13.3). -/
def Packet.wf (p : Packet) : Bool := decide (p.payload.length ≤ 4096)

/-- The operands of a command lie in their ranges. -/
def Instr.wf : Instr → Bool
  | .registerWrite _ _ => true
  | .misalignedRegisterAccess _ _ _ => true
  | .dropCountRead _ => true
  | .ecallEnq core => decide (core < 66)
  | .ecallFsig core => decide (core < 66)
  | .ecallExit core => decide (core < 66)
  | .ecallOther core => decide (core < 66)
  | .coreTaskReturn core => decide (core < 66)
  | .coreException core _ _ => decide (core < 66)
  | .cboClean core _ => decide (core < 66)
  | .cboFlush core _ => decide (core < 66)
  | .cboInval core _ => decide (core < 66)
  | .cboZero core _ => decide (core < 66)
  | .splitChange _ => true
  | .l1InvalidateAllComplete tile => decide (tile < 640)
  | .reefSramLimitWrite _ => true
  | .tileSelfTestEnd die q _ => decide (die < 4) && decide (q < 168)
  | .firmwareRotation _ => true
  | .spareRetestDue die q => decide (die < 4) && decide (q < 168)
  | .sliceExpiry => true
  | .yieldWaitExpiry => true
  | .reefSaveComplete _ => true
  | .reefRestoreComplete => true
  | .imageLoadComplete _ => true
  | .resyncComplete _ => true
  | .seqNop _ => true
  | .seqAdd _ => true
  | .seqSub _ => true
  | .seqAnd _ => true
  | .seqOr _ => true
  | .seqXor _ => true
  | .seqShl _ => true
  | .seqShr _ => true
  | .seqSar _ => true
  | .seqMul _ => true
  | .seqMin _ => true
  | .seqMax _ => true
  | .seqMinu _ => true
  | .seqMaxu _ => true
  | .seqAddi _ => true
  | .seqSubi _ => true
  | .seqAndi _ => true
  | .seqOri _ => true
  | .seqXori _ => true
  | .seqShli _ => true
  | .seqShri _ => true
  | .seqSari _ => true
  | .seqMuli _ => true
  | .seqMini _ => true
  | .seqMaxi _ => true
  | .seqMinui _ => true
  | .seqMaxui _ => true
  | .seqLih _ => true
  | .seqCmp _ => true
  | .seqCmpi _ => true
  | .seqLdc _ => true
  | .seqLdd _ => true
  | .seqOrdl _ => true
  | .seqDbase _ => true
  | .seqDscale _ => true
  | .seqMovh _ => true
  | .seqHcmp _ => true
  | .seqHclr _ => true
  | .seqBr _ => true
  | .seqLoop _ => true
  | .seqEnd _ => true
  | .aop _ _ => true
  | .matrixPartStart _ => true
  | .flowPartStart _ => true
  | .flowPartEnd _ => true
  | .arrayOpDone _ => true
  | .seqWaita _ => true
  | .seqLdt _ => true
  | .seqStt _ => true
  | .seqXlt _ => true
  | .moveComplete _ _ => true
  | .seqWaitm _ => true
  | .seqEnq _ => true
  | .seqFsig _ => true
  | .seqRotp _ => true
  | .seqYldp _ => true
  | .seqTally _ => true
  | .blockPlacement die => decide (die < 4)
  | .intAdd l => l.wf
  | .intSub l => l.wf
  | .intMul l => l.wf
  | .intMulhi l => l.wf
  | .intMulhiu l => l.wf
  | .intAnd l => l.wf
  | .intOr l => l.wf
  | .intXor l => l.wf
  | .intShl l => l.wf
  | .intShr l => l.wf
  | .intSar l => l.wf
  | .intMin l => l.wf
  | .intMax l => l.wf
  | .intMinu l => l.wf
  | .intMaxu l => l.wf
  | .intPopc l => l.wf
  | .intClz l => l.wf
  | .intMad l => l.wf
  | .intMov l => l.wf
  | .fp32Add l => l.wf
  | .fp32Sub l => l.wf
  | .fp32Mul l => l.wf
  | .fp32Fma l => l.wf
  | .fp32Min l => l.wf
  | .fp32Max l => l.wf
  | .fp32Abs l => l.wf
  | .fp32Neg l => l.wf
  | .fp32Rint l => l.wf
  | .fp32Ldexp l => l.wf
  | .fp32Rcp l => l.wf
  | .fp32Div l => l.wf
  | .fp32Sqrt l => l.wf
  | .fp32Rsqrt l => l.wf
  | .fp32Exp l => l.wf
  | .fp32Exp2 l => l.wf
  | .fp32Log l => l.wf
  | .fp32Log2 l => l.wf
  | .fp32Tanh l => l.wf
  | .fp32Sigmoid l => l.wf
  | .fp32Erf l => l.wf
  | .fp32Sin l => l.wf
  | .fp32Cos l => l.wf
  | .fp64Add l => l.wf
  | .fp64Sub l => l.wf
  | .fp64Mul l => l.wf
  | .fp64Fma l => l.wf
  | .fp64Min l => l.wf
  | .fp64Max l => l.wf
  | .fp64Abs l => l.wf
  | .fp64Neg l => l.wf
  | .fp64Rint l => l.wf
  | .fp64Ldexp l => l.wf
  | .fp64Rcp l => l.wf
  | .fp64Div l => l.wf
  | .fp64Sqrt l => l.wf
  | .fp64Rsqrt l => l.wf
  | .fp64Exp l => l.wf
  | .fp64Exp2 l => l.wf
  | .fp64Log l => l.wf
  | .fp64Log2 l => l.wf
  | .fp64Tanh l => l.wf
  | .fp64Sigmoid l => l.wf
  | .fp64Erf l => l.wf
  | .fp64Sin l => l.wf
  | .fp64Cos l => l.wf
  | .laneCvt l => l.wf
  | .laneCmp l => l.wf
  | .laneSel l => l.wf
  | .lanePand l => l.wf
  | .lanePor l => l.wf
  | .lanePxor l => l.wf
  | .lanePnot l => l.wf
  | .laneBra l => l.wf
  | .laneJoin l => l.wf
  | .laneBar l => l.wf
  | .laneExit l => l.wf
  | .laneNop l => l.wf
  | .lds8 l => l.wf
  | .lds16 l => l.wf
  | .lds32 l => l.wf
  | .lds64 l => l.wf
  | .lds8s l => l.wf
  | .lds16s l => l.wf
  | .sts8 l => l.wf
  | .sts16 l => l.wf
  | .sts32 l => l.wf
  | .sts64 l => l.wf
  | .ldsa32 l => l.wf
  | .ldsa64 l => l.wf
  | .ld8 l => l.wf
  | .ld16 l => l.wf
  | .ld32 l => l.wf
  | .ld64 l => l.wf
  | .ldcg8 l => l.wf
  | .ldcg16 l => l.wf
  | .ldcg32 l => l.wf
  | .ldcg64 l => l.wf
  | .st8 l => l.wf
  | .st16 l => l.wf
  | .st32 l => l.wf
  | .st64 l => l.wf
  | .ldc32 l => l.wf
  | .ldc64 l => l.wf
  | .atomAdd l => l.wf
  | .atomFadd l => l.wf
  | .atomMin l => l.wf
  | .atomMax l => l.wf
  | .atomMinu l => l.wf
  | .atomMaxu l => l.wf
  | .atomAnd l => l.wf
  | .atomOr l => l.wf
  | .atomXor l => l.wf
  | .atomExch l => l.wf
  | .atomCas l => l.wf
  | .redo l => l.wf
  | .laneLread l => l.wf
  | .laneLpair l => l.wf
  | .laneLrot l => l.wf
  | .laneVmask l => l.wf
  | .laneVfirst l => l.wf
  | .lanePmask l => l.wf
  | .laneS2r l => l.wf
  | .laneFence l => l.wf
  | .laneMemoryResponse _ _ _ => true
  | .barrierExpiry tile _ => decide (tile < 640)
  | .nfpDomCtrlWrite _ => true
  | .ptpMessage port _ _ => decide (port < 8)
  | .fineSyncExchange _ => true
  | .domainStart => true
  | .tickBoundary => true
  | .domainWord _ _ => true
  | .announcement _ _ _ => true
  | .schedLoad => true
  | .scheduledSlot port _ _ => decide (port < 8)
  | .openSlot port => decide (port < 8)
  | .domainLaunchStart => true
  | .hbmRead _ _ => true
  | .hbmWrite _ _ _ => true
  | .perBankRefresh pc _ _ => decide (pc < 512)
  | .refreshManagementRequest pc bank => decide (pc < 512) && decide (bank < 48)
  | .channelRetrain _ _ => true
  | .stackTemperatureRead stack _ => decide (stack < 16)
  | .saturationWindowEnd pc _ => decide (pc < 512)
  | .scrub _ _ => true
  | .parityError _ _ => true
  | .takeOut pc => decide (pc < 512)
  | .memReturn pc => decide (pc < 512)
  | .margin pc _ => decide (pc < 512)
  | .retire pc => decide (pc < 512)
  | .sweep stack _ => decide (stack < 16)
  | .takeOutCopyComplete pc => decide (pc < 512)
  | .returnCopyComplete pc => decide (pc < 512)
  | .marginRunComplete _ _ => true
  | .publishOpen _ => true
  | .publishWrite _ => true
  | .publishProgramComplete _ => true
  | .publishSeal _ => true
  | .shelfDelete _ => true
  | .promote _ => true
  | .evict _ => true
  | .bindRecv _ => true
  | .unbind _ => true
  | .shelfStripeRead _ _ _ => true
  | .promotionDeadline _ => true
  | .refetchDeadline _ => true
  | .rdShared cache line => decide (line < 2 ^ 33) && decide (cache < 68)
  | .rdOwn cache line => decide (line < 2 ^ 33) && decide (cache < 68)
  | .upgrade cache line => decide (line < 2 ^ 33) && decide (cache < 68)
  | .rdOnce agent line => decide (line < 2 ^ 33) && decide (agent < 256)
  | .wr agent line _ _ _ _ => decide (line < 2 ^ 33) && decide (agent < 256)
  | .atom agent line lanes => decide (line < 2 ^ 33) && lanes.all AtomLane.wf && decide (agent < 256)
  | .clean cache line => decide (line < 2 ^ 33) && decide (cache < 68)
  | .flush cache line => decide (line < 2 ^ 33) && decide (cache < 68)
  | .cohMove cache line => decide (line < 2 ^ 33) && decide (cache < 68)
  | .evictLine cache line => decide (line < 2 ^ 33) && decide (cache < 68)
  | .snpShare cache line => decide (line < 2 ^ 33) && decide (cache < 68)
  | .snpClean cache line => decide (line < 2 ^ 33) && decide (cache < 68)
  | .snpInv cache line => decide (line < 2 ^ 33) && decide (cache < 68)
  | .snpAns cache line => decide (line < 2 ^ 33) && decide (cache < 68)
  | .snoopTimeout cache line => decide (line < 2 ^ 33) && decide (cache < 68)
  | .offline agent => decide (agent < 256)
  | .online agent => decide (agent < 256)
  | .dead agent => decide (agent < 256)
  | .clusterCleaningComplete agent => decide (agent < 256)
  | .wayTargetWrite _ _ => true
  | .wayCleaningComplete _ => true
  | .cacheDataError cache line _ => decide (line < 2 ^ 33) && decide (cache < 712)
  | .cacheTagParityError _ cache line _ => decide (line < 2 ^ 33) && decide (cache < 712)
  | .dumpHandlerFailure => true
  | .translationQuery _ _ _ _ _ => true
  | .walkReadComplete _ => true
  | .faultRetry _ => true
  | .ctuRetry _ => true
  | .ctuFail _ => true
  | .faultTimeout _ => true
  | .invRange _ _ _ _ => true
  | .invTag _ => true
  | .invalidationComplete _ => true
  | .counterHalving => true
  | .faultRingEnable _ => true
  | .ctuSwitchover die => decide (die < 6)
  | .standbyCtuFailure => true
  | .sqTail qid _ => decide (qid < 8192)
  | .cqHead qid _ => decide (qid < 8192)
  | .entryRead qid _ => decide (qid < 8192)
  | .entryReRead qid _ => decide (qid < 8192)
  | .entryDispatch qid _ => decide (qid < 8192)
  | .nopEntry _ => true
  | .launchArray _ => true
  | .launchThreads _ => true
  | .copy _ => true
  | .collective _ => true
  | .coreTask _ _ => true
  | .feWait _ => true
  | .feSignal _ => true
  | .feAlloc _ _ _ => true
  | .feFree _ => true
  | .feInvalidate _ => true
  | .graphLaunch _ => true
  | .createContext _ _ => true
  | .destroyContext _ => true
  | .createQueue _ _ => true
  | .resetQueue _ => true
  | .resumeQueue _ => true
  | .destroyQueue _ => true
  | .createFence _ => true
  | .destroyFence _ => true
  | .graphCreate _ _ _ => true
  | .graphPatch _ _ => true
  | .graphDestroy _ => true
  | .allocPhys _ _ => true
  | .freePhys _ => true
  | .operationComplete _ => true
  | .fenceTimeout qid => decide (qid < 8192)
  | .coreTaskTimeout core => decide (core < 66)
  | .functionDisable f => decide (f < 6)
  | .functionEnable f => decide (f < 6)
  | .functionDrainTimeout f => decide (f < 6)
  | .feFenceSignal _ => true
  | .clrError _ => true
  | .adminRingEnable _ _ => true
  | .interruptHoldoffExpiry vec => decide (vec < 2048)
  | .portEnable port => decide (port < 8)
  | .linkStepTimeout link => decide (link < 19)
  | .linkRestart link => decide (link < 19)
  | .laneFailure link _ => decide (link < 19)
  | .laneRepair link => decide (link < 19)
  | .dataFlit link _ _ => decide (link < 19)
  | .linkNak link _ => decide (link < 19)
  | .nfpWr port p => decide (port < 8) && p.wf
  | .nfpRd port p => decide (port < 8) && p.wf
  | .nfpAtom port p => decide (port < 8) && p.wf
  | .fetch port p => decide (port < 8) && p.wf
  | .coll port p => decide (port < 8) && p.wf
  | .mgmt port p => decide (port < 8) && p.wf
  | .nfpAck p => p.wf
  | .rdata p => p.wf
  | .atomr p => p.wf
  | .nack p => p.wf
  | .requestTimeout _ => true
  | .jobEnd j => decide (j < 16)
  | .exportWindowOpen _ _ => true
  | .exportWindowClose _ => true
  | .collectiveTimeout _ => true
  | .ethernetFrame port _ _ _ p => decide (port < 8) && p.wf
  | .straitWr _ data _ => decide (data.length ≤ 4096)
  | .straitRd _ _ _ => true
  | .straitAtom _ _ _ _ _ => true
  | .cpl _ _ _ _ => true
  | .straitRequestTimeout _ => true
  | .straitLinkDown => true
  | .dmaTailWrite ch _ => decide (ch < 8)
  | .dmaDescriptorComplete ch _ _ => decide (ch < 8)
  | .dmaChannelEnable ch _ => decide (ch < 8)
  | .moduleTakeOut link _ => decide (link < 19)
  | .narrowsFlit link _ _ _ => decide (link < 19)
  | .narrowsNak link _ _ => decide (link < 19)
  | .moduleIdle link _ => decide (link < 19)
  | .dieResetRelease => true
  | .discoveryStepTimeout die => decide (die < 6)
  | .identity die _ => decide (die < 6)
  | .configuration => true
  | .confirm die => decide (die < 6)
  | .clockMasterFailure => true
  | .standbyRootFailure => true
  | .referenceLoss => true
  | .referenceReturn => true
  | .dieReset die => decide (die < 6)
  | .dieDrainComplete => true
  | .dieResetHoldEnd => true
  | .dieRejoinComplete _ => true
  | .twinLinkEnable _ => true
  | .partnerSilence => true
  | .twinLinkDown => true
  | .twnDispatch _ qid _ => decide (qid < 8192)
  | .twnRefusal qid _ _ _ => decide (qid < 8192)
  | .worldWrite _ _ _ _ => true
  | .twnAnswer _ _ _ _ => true
  | .twnDecision _ => true
  | .twnComplete _ _ _ _ => true
  | .twnStream _ _ _ _ _ _ => true
  | .twnAck _ => true
  | .twnCommit _ => true
  | .twnDigest _ _ => true
  | .twnAgree _ => true
  | .twnDisagree _ _ => true
  | .twnPosted _ => true
  | .twnFailing => true
  | .twnPair => true
  | .verdictWindward => true
  | .verdictLeeward => true
  | .twnSolo => true
  | .twnTakeover => true
  | .twnFence => true
  | .verdictTimeout => true
  | .seedingCopyComplete => true
  | .coreSelfTestEnd die cluster _ _ => decide (die < 2) && decide (cluster < 9)
  | .firmwareCoreFailure die f => decide (die < 2) && decide (f < 5)
  | .shelfBlockFailure _ _ _ => true
  | .maintenanceEntry => true
  | .maintenanceReached => true
  | .maintenanceExit => true
  | .testTile _ => true
  | .testTileAll => true
  | .testCore _ => true
  | .shelfScan => true
  | .testCommandComplete _ _ => true
  | .tidemarkReport _ => true
  | .spillDrain => true
  | .tdmAck _ _ => true
  | .tdmOpen _ _ => true
  | .dumpRelease => true
  | .lcTransition _ _ => true
  | .quote _ => true
  | .mrExtend _ => true
  | .patchStage => true
  | .patchClear => true
  | .rollbackAdvance _ => true
  | .cryptoErase _ => true
  | .installCert => true
  | .lcAdvance => true
  | .tapBypass => true
  | .tapIdcode => true
  | .tapSamplePreload => true
  | .tapExtest => true
  | .tapClamp => true
  | .tapHighz => true
  | .tapEscape _ => true
  | .entropyHealthFailure die => decide (die < 2)
  | .leak => true
  | .converterStart railFail => railFail.all (· < 13)
  | .pwrGood => true
  | .modEnFall => true
  | .inputLoss => true
  | .vddAccFault die => decide (die < 4)
  | .limitSample _ _ => true
  | .divisorChange => true
  | .meterFrame => true
  | .meterStale => true
  | .meterPulse => true
  | .meterSupplyChange _ => true
  | .coverOpening => true
  | .readEnergy _ => true
  | .readIdent _ => true
  | .readLog _ => true
  | .readStatus _ => true
  | .coldRstN => true
  | .warmRstN => true
  | .resetCold => true
  | .resetWarm => true
  | .hbmTrainingComplete _ _ => true
  | .hardRepairComplete pc _ => decide (pc < 512)
  | .poolFillComplete => true
  | .shelfDirectoryLoaded => true
  | .servicesStart => true
  | .startUpReady => true
  | .coreInstruction core _ => decide (core < 66)
  | .coreMemoryResponse core _ _ => decide (core < 66)
  | .unknownOpcode _ => true
  | .laneIllegalInstruction l => l.wf
  | .trainingStepComplete link _ => decide (link < 19)
  | .atomrHoldExpiry _ _ _ => true
  | .dumpComplete => true
  | .secCommandComplete => true
  | .railFault rail => decide (rail < 13)
  | .meterUnknownCmd _ => true
  | .shelfPackagesInitialised _ => true
  | .standbyCtuCopyComplete => true

end Sys2Proof
end

