-- ==== Sys2Proof/Tests/Slice0.lean ====
section
/-! SUPPORT. Tests: commands that are not well formed, and for each statement a state and operands that meet its hypotheses. -/

open Sys2Proof Sys2Proof.Machine

namespace Sys2Proof.Tests

set_option Elab.async false

/-- A state with a field of a register set. -/
def withFld (s : State) (f : Fld) (v : Nat) : State := { s with dev := s.dev.wr f v }

/-- The state that an outcome answers. -/
def after (o : Host.Outcome State Fault Refusal) : Option State :=
  match o with
  | .next t => some t
  | _ => none

/-- A module in service: powered, clocked, READY, in FIELD, its meter supplied. -/
def upState : State :=
  let d : Dev := { pw := { on := true, pwrGood := true, modEn := true } }
  let d := ((d.wr GLB_STATUS_READY 1).wr SEC_LC_STATE_STATE 3).wr STR_LINK_STATUS_STATE 2
  { dev := d, meter := { powered := true } }

/-- The module in service with its device changed. -/
def up (f : Dev → Dev) : State := { upState with dev := f upState.dev }

/-! ### Commands that are not well formed: the check refuses each -/

/-- A packet with a payload of n bytes. -/
def packetOf (n : Nat) : Packet := ⟨false, false, 0, 0, 0xFFFF, 0, 0, n, 0, 0, 0, List.replicate n 0⟩

/-- A lane instruction at a tile and a slot. -/
def laneOn (tile slot : Nat) : LaneArgs := ⟨tile, slot, 0, false, 0, 0, 0, 0⟩

theorem test_wf_core : (Instr.wf (.ecallEnq 66), Instr.wf (.ecallEnq 65)) = (false, true) := by decide
theorem test_wf_tile : (Instr.wf (.l1InvalidateAllComplete 640), Instr.wf (.l1InvalidateAllComplete 639)) = (false, true) := by decide
theorem test_wf_physical_tile : (Instr.wf (.tileSelfTestEnd 0 168 0), Instr.wf (.tileSelfTestEnd 3 167 0)) = (false, true) := by decide
theorem test_wf_reef_die : (Instr.wf (.blockPlacement 4), Instr.wf (.blockPlacement 3)) = (false, true) := by decide
theorem test_wf_lane_tile : (Instr.wf (.intAdd (laneOn 640 0)), Instr.wf (.intAdd (laneOn 639 31))) = (false, true) := by decide
theorem test_wf_lane_slot : Instr.wf (.intAdd (laneOn 0 32)) = false := by decide
theorem test_wf_port : (Instr.wf (.ptpMessage 8 true 0), Instr.wf (.ptpMessage 7 true 0)) = (false, true) := by decide
theorem test_wf_pseudo_channel : (Instr.wf (.perBankRefresh 512 false false), Instr.wf (.perBankRefresh 511 false false)) = (false, true) := by decide
theorem test_wf_bank : (Instr.wf (.refreshManagementRequest 0 48), Instr.wf (.refreshManagementRequest 0 47)) = (false, true) := by decide
theorem test_wf_stack : (Instr.wf (.stackTemperatureRead 16 0), Instr.wf (.stackTemperatureRead 15 0)) = (false, true) := by decide
theorem test_wf_line : (Instr.wf (.rdShared 0 (2 ^ 33)), Instr.wf (.rdShared 67 (2 ^ 33 - 1))) = (false, true) := by decide
theorem test_wf_cache : Instr.wf (.rdShared 68 0) = false := by decide
theorem test_wf_agent : (Instr.wf (.offline 256), Instr.wf (.offline 255)) = (false, true) := by decide
theorem test_wf_error_cache : (Instr.wf (.cacheDataError 712 0 false), Instr.wf (.cacheDataError 711 0 false)) = (false, true) := by decide
theorem test_wf_atom_lane : (Instr.wf (.atom 0 0 [⟨0, true, 60, 0, 0⟩]), Instr.wf (.atom 0 0 [⟨0, true, 56, 0, 0⟩])) = (false, true) := by decide
theorem test_wf_die : (Instr.wf (.ctuSwitchover 6), Instr.wf (.ctuSwitchover 5)) = (false, true) := by decide
theorem test_wf_qid : (Instr.wf (.sqTail 8192 0), Instr.wf (.sqTail 8191 0)) = (false, true) := by decide
theorem test_wf_function : (Instr.wf (.functionDisable 6), Instr.wf (.functionDisable 5)) = (false, true) := by decide
theorem test_wf_vector : (Instr.wf (.interruptHoldoffExpiry 2048), Instr.wf (.interruptHoldoffExpiry 2047)) = (false, true) := by decide
theorem test_wf_link : (Instr.wf (.linkStepTimeout 19), Instr.wf (.linkStepTimeout 18)) = (false, true) := by decide
theorem test_wf_job : (Instr.wf (.jobEnd 16), Instr.wf (.jobEnd 15)) = (false, true) := by decide
theorem test_wf_channel : (Instr.wf (.dmaTailWrite 8 0), Instr.wf (.dmaTailWrite 7 0)) = (false, true) := by decide
theorem test_wf_cluster : (Instr.wf (.coreSelfTestEnd 0 9 0 0), Instr.wf (.coreSelfTestEnd 1 8 0 0)) = (false, true) := by decide
theorem test_wf_firmware_core : (Instr.wf (.firmwareCoreFailure 0 5), Instr.wf (.firmwareCoreFailure 1 4)) = (false, true) := by decide
theorem test_wf_control_die : (Instr.wf (.entropyHealthFailure 2), Instr.wf (.entropyHealthFailure 1)) = (false, true) := by decide
theorem test_wf_rail_failure : (Instr.wf (.converterStart (some 13)), Instr.wf (.converterStart (some 12))) = (false, true) := by decide
theorem test_wf_rail : (Instr.wf (.railFault 13), Instr.wf (.railFault 12)) = (false, true) := by decide
theorem test_wf_payload : Instr.wf (.nfpAck (packetOf 4097)) = false := by decide +kernel
theorem test_wf_data : Instr.wf (.straitWr 0 (List.replicate 4097 0) 0) = false := by decide +kernel

/-! ### Worked examples of the manual -/

/-- The placement of address 0x0012_3456_7890 (The Stacked Memory Pool, worked example). -/
theorem test_place : (placePc 0x1234567890, homeOf 0x1234567890, placeBank 0x1234567890, placeRow 0x1234567890, placeBurst 0x1234567890) = (220, 1, 42, 3106, 28) := by decide

/-- The next granule lies on the other pseudo-channel of the channel. -/
theorem test_place_next : placePc 0x1234567900 = 221 := by decide

/-- ARG0 of the row of that example (Tidemark, worked example). -/
theorem test_row_key : rowKey 220 42 3106 = 0x000000DC000A8C22 := by decide

/-- The check value that the CRC-32 of IEEE 802.3 has for the text 123456789. -/
theorem test_crc32 : crc32 [0x31, 0x32, 0x33, 0x34, 0x35, 0x36, 0x37, 0x38, 0x39] = 0xCBF43926 := by decide +kernel

/-- The OB4 element 1.5 under the scale code with exponent field 32 and mantissa field 1 is 3.75 (Number Formats, after R61). -/
theorem test_ob4_scale : Machine.Num.cmp (Machine.Num.mul (scaleValue 8 129) (elemValue 8 3)) (.fin false 15 (-2)) = .eq := by decide

/-- The digits 0, 1 and 2 of −1 + 2⁻²⁰ under E = 2, and 0 and 4 of 2.75 − 2⁻³⁶ (Number Formats, worked example). -/
theorem test_slice :
    (Machine.Num.slice (.fin true (2 ^ 20 - 1) (-20)) (.ofInt 2) 0, Machine.Num.slice (.fin true (2 ^ 20 - 1) (-20)) (.ofInt 2) 1, Machine.Num.slice (.fin true (2 ^ 20 - 1) (-20)) (.ofInt 2) 2,
     Machine.Num.slice (.fin false (11 * 2 ^ 34 - 1) (-36)) (.ofInt 2) 0, Machine.Num.slice (.fin false (11 * 2 ^ 34 - 1) (-36)) (.ofInt 2) 4) = (-16, 0, 1, 44, -1) := by decide +kernel

/-! ### Witnesses -/


/-- A launch in the sequencers at slot 0 of a program of 4 slots, with a constant buffer of 256 bytes. -/
def seqUp (f : Seq → Seq) : State := up fun d => { d with
  fe := { d.fe with contexts := [⟨1, 0, 0, 0, 0, none⟩] }
  seq := f { imem := [0, 0, 0, 0], cmem := List.replicate 256 0,
             launch := some ⟨1, 1, 0, none, true, true, none⟩ } }

/-- A slot that always executes: X1 from X2 and X3. -/
def slot : SeqArgs := ⟨false, 0, 1, 2, 3, 0, 0⟩

/-- A matrix part on INT8: D1 is 1 × 64 and D2 64 × 1, both at byte 0 of a local store of two segments. -/
def aopState : State :=
  let s := seqUp fun q => { q with imem := List.replicate 8 0, d := [(1, BitVec.ofNat 256 (2 ^ 214 + 2 ^ 96 * 64 + 2 ^ 80 + 2 ^ 64 * 64)), (2, BitVec.ofNat 256 (2 ^ 214 + 2 ^ 96 + 2 ^ 80 * 64 + 2 ^ 64))] }
  { s with dev := { s.dev with tiles := { s.dev.tiles with split := 2 } } }
def aopWord : AopArgs := ⟨BitVec.ofNat 64 (2 ^ 50 + 2 ^ 42 + 2 ^ 36 + 2 * 2 ^ 30), BitVec.ofNat 64 (64 * 2 ^ 16), 0, 0⟩

/-- A launch of context 1 from queue 7, with the device-owned queue 9, fence 4 and X2 as given. -/
def enqState (x2 : Word) : State :=
  let s := seqUp fun q => { q with x := [(2, x2), (3, 9)] }
  let d := { s.dev with fe := { s.dev.fe with
    ops := [⟨1, 7, 1, 1, .running, 0, none, [], none, [], 0, 0xFFFF, none, false, true, 0, true⟩]
    fences := [⟨4, 1, some 7, false⟩]
    queues := [⟨9, 0, 0, 0, 0, 0, 0, 0, 0, none, [], none, false⟩] } }
  { s with dev := (d.wr (FE_Q_STATE_DEVICE_OWNED 9) 1).wr (FE_Q_STATE_TAG 9) 1 }

/-- The launch in a mirroring windward whose tally set 0 is empty. -/
def tallyState : State := withFld (seqUp id) TWN_STATUS_STATE 3

/-- A dispatched array launch of context 1, whose address space maps a page onto an image of one slot. -/
def launchState (l : Option SeqLaunch) : State := withFld (up fun d => { d with
  seq := { launch := l }
  pool := { d.pool with hbm := [(2 ^ 21, 0x4C), (2 ^ 21 + 1, 0x5A), (2 ^ 21 + 4, 1)] }
  ctu := { d.ctu with tlb := [⟨1, 0, 4096, 2 ^ 21 + 3, 0, false⟩] }
  fe := { d.fe with
    contexts := [⟨1, 0, 0, 0, 0, none⟩]
    ops := [⟨1, 7, 1, 1, .dispatched, 0, none, [], none, [], 0, 0xFFFF, none, false, true, 0, true⟩] } }) REEF_STATUS_OWNER_TAG 1

/-- Context 1 owns the Reef with an array operation of queue 7 in flight, and has a saved state; context 2 waits. -/
def handState (h : Handover) (l : Option SeqLaunch) : State :=
  let s := up fun d => { d with
    seq := { launch := l }
    tiles := { d.tiles with handover := h, waiting := [2], saved := [⟨1, {}, 4, 1, 0, 64, 3, [(5, 7)], [], [], [], [], {}⟩] }
    fe := { d.fe with contexts := [⟨1, 0, 0, 0, 0, none⟩, ⟨2, 1, 0, 0, 0, none⟩],
                      ops := [⟨1, 7, 1, 1, .dispatched, 0, none, [], none, [], 0, 0xFFFF, none, false, true, 0, true⟩] } }
  { s with dev := ((s.dev.wr REEF_HANDOVER_SLICE 5).wr REEF_STATUS_OWNER_VALID 1).wr REEF_STATUS_OWNER_TAG 1 }

/-- Die 1 with tile 0 ACTIVE, mapped to logical tile 160, and tile 1 in a state and in test; rotation is on. -/
def tileState (a b : Nat) : State :=
  let s := up fun d => { d with tiles := { d.tiles with testing := [(193, 0)] } }
  { s with dev := ((s.dev.wr (REEF_PTS_STATE 1 0) (a + 4 * b)).wr (tmapFld 160) (tileCoord 1 0)).wr REEF_ROT_CTRL_ENABLE 1 }

/-- A launch of one block of one group on tile 2, slot 0, at an instruction of 8; V4 and V6 of lane 1 hold 7 and 5. -/
def laneStateAt (pc : Nat) : State := up fun d => { d with
  tiles := { d.tiles with split := 4, pool := 2 }
  fe := { d.fe with contexts := [⟨1, 0, 0, 0, 0, none⟩],
                    ops := [⟨1, 7, 2, 1, .running, 0, none, [], none, [], 0, 0xFFFF, none, false, true, 0, true⟩] }
  thr := { launches := [⟨1, 1, 0, 16, 1, false, 3, [], 8, 0, 1024, 1, 1, [2], 100, List.replicate 64 9, none, false⟩]
           blocks := [⟨1, 0, 2, 262144, none⟩]
           groups := [⟨1, 0, 2, 0, 0, [⟨pc, 3, .ready⟩], 0⟩]
           v := [((2 * 32 * 32 + 1) * 256 + 4, 7), ((2 * 32 * 32 + 1) * 256 + 6, 5)] } }
def laneState : State := laneStateAt 1
/-- V2 from V4, V6 and V8, on every lane. -/
def laneArgs (func : BitVec 8) : LaneArgs := ⟨2, 0, func, false, 0, 2, 4, 0x06080000⟩
def laneAt : Issue :=
  ⟨⟨1, 0, 2, 0, 0, [⟨1, 3, .ready⟩], 0⟩,
   ⟨1, 1, 0, 16, 1, false, 3, [], 8, 0, 1024, 1, 1, [2], 100, List.replicate 64 9, none, false⟩, ⟨1, 3, .ready⟩⟩

/-- The launch of `laneState` with P1 of lane 1 true. -/
def predState : State :=
  { laneState with dev := { laneState.dev with thr := { laneState.dev.thr with p := [((2 * 32 * 32 + 1) * 8 + 1, true)] } } }
/-- The launch of `laneState` with other paths of its group and other lanes gone. -/
def pathState (ps : List Path) (gone : BitVec 32) : State :=
  { laneState with dev := { laneState.dev with thr := { laneState.dev.thr with groups := [⟨1, 0, 2, 0, 0, ps, gone⟩] } } }

/-- A dispatched thread launch whose image header is 8 registers, 1 group and 8 instructions, with its magic as given. -/
def kernelState (magic : Nat) : State := up fun d => { d with
  tiles := { d.tiles with split := 4, pool := 2 }
  pool := { d.pool with hbm := hbmWrite [] (2 ^ 21) (leBytes 9 (magic + 2 ^ 16 + 2 ^ 24 + 2 ^ 32 + 8 * 2 ^ 64)) }
  ctu := { d.ctu with tlb := [⟨1, 0, 4096, 2 ^ 21 + 3, 0, false⟩] }
  fe := { d.fe with contexts := [⟨1, 0, 0, 0, 0, none⟩],
                    ops := [⟨1, 7, 2, 1, .dispatched, 0, none, [], none, [], 0, 0xFFFF, none, false, true, 0, true⟩] } }
/-- A resident launch of two blocks of one group with no block placed, and its bytes of local store. -/
def placeState (bls : Nat) : State :=
  { laneState with dev := { laneState.dev with thr :=
    { launches := [⟨1, 1, 0, 16, 1, false, 3, [], 8, 0, bls, 2, 0, [], 100, [], none, false⟩] } } }

/-- The launch with one INT32 SUM target, ORDERED_ONLY or not. -/
def redoState (ordered : Bool) : State :=
  { laneState with dev := { laneState.dev with thr := { laneState.dev.thr with
    launches := [⟨1, 1, 0, 16, 1, ordered, 3, [⟨0, 0, 2, 0, 0⟩], 8, 0, 1024, 1, 1, [2], 100, [], none, false⟩] } } }
/-- The launch with an access of lane 1 at virtual address 2^20 + 8, whose page lies at 2^21, and bytes there. -/
def respState (kind func bytes : Nat) (leaf : Word) (rd : Nat := 2) : State :=
  { laneState with dev := { laneState.dev with
    pool := { laneState.dev.pool with hbm := [(2 ^ 21 + 8, 5), (2 ^ 21 + 9, 1)] }
    ctu := { laneState.dev.ctu with tlb := [⟨1, 2 ^ 20, 4096, leaf, 0, false⟩] }
    thr := { laneState.dev.thr with
      accs := [⟨0, 2, 0, 1, 0, 1, kind, BitVec.ofNat 7 func, bytes, 2, if kind = 3 then [] else [(1, 2 ^ 20 + 8)], rd, 6⟩] } } }

/-- A member of a domain in a state, with a domain rank; port 0 is UP and carries PTP; RUNNING it stands at tick 1. -/
def domState (st rank : Nat) : State :=
  let d := ((upState.dev.wr NFP_DOM_STATUS_STATE st).wr NFP_DOM_CTRL_DRANK rank).wr NFP_DOM_CTRL_MEMBERS 2
  { upState with dev := (((d.wr (NFP_PORT_STATUS_STATE 0) 2).wr NFP_PTP_CTRL_ENABLE 1).wr NFP_PTP_CTRL_PORTS 1).wr NFP_DOM_TICK_TICK 1 }

/-- A RUNNING member with one entry in port 0's active bank and a packet for rank 0 in send queue 4. -/
def slotPacket : Packet := ⟨false, false, 0, 0, 0xFFFF, 0, 0, 0, 0, 0, 0, []⟩
def slotState (e : Word) : State :=
  let s := domState 4 1
  let d := { s.dev with nfp := { s.dev.nfp with
    slots := [(0, e)], sqs := [(4, 1, slotPacket)], links := [(0, { credits := [9, 9, 9, 9] })] } }
  { s with dev := d.wr (lnLanes 0) 4 }

/-- An operation of context 1 and queue 1, dispatched, with the entry that bytes at offsets make. -/
def opOf (fields : List (Nat × Nat)) : FeOp :=
  ⟨5, 1, BitVec.ofNat 1024 ((fields.map fun f => f.2 * 2 ^ (8 * f.1)).sum), 1, .dispatched, 0, none, [], none, [], 0, 0xFFFF, none, false, false, 0, true⟩
/-- The module in service with such an operation in flight and its device changed. -/
def opState (fields : List (Nat × Nat)) (f : Dev → Dev) : State :=
  up fun d => f { d with fe := { d.fe with ops := [opOf fields] } }
/-- Whether a read gave what is named; whether it ended with a status. -/
def gave {α : Type} [DecidableEq α] (x : Except Xlate α) (v : α) : Bool := match x with | .ok a => decide (a = v) | .error _ => false
def refused {α : Type} (x : Except Xlate α) (st : Status) : Bool := match x with | .ok _ => false | .error e => decide (e = .ended st)
/-- A context whose first page lies at 2^21 and may be written, held by the CTU. -/
def ctxDev (d : Dev) : Dev :=
  { d with fe := { d.fe with contexts := [⟨1, 0, 0x800000, 0, 0, none⟩] }
           ctu := { d.ctu with tlb := [⟨1, 0, 4096, BitVec.ofNat 64 (2 ^ 21 + 15), 0, false⟩] } }

/-- A streamed object of context 1 with one segment of one frame, of the Shelf entry 0, and a copy in a state on the pool's frame 2^21. -/
def tierDev (st : Nat) (refs : List Nat) (d : Dev) : Dev :=
  { d with fe := { d.fe with objects := [⟨0, 1, 2 ^ 56, 2 ^ 21, 1, [], [2 ^ 21], 0, [], 0, none⟩, ⟨1, 1, 2 ^ 56 + 2 ^ 21, 2 ^ 21, 0x200, [2 ^ 22], [], 0, [], 0, none⟩],
                             handles := [⟨1, 1, 0, true, 0, 0⟩, ⟨1, 2, 0, true, 0, 1⟩] }
           tier := { d.tier with poolFrames := [2 ^ 21, 2 ^ 22], copies := if st = 0 then [] else [⟨0, 0, 0, 0, st, [2 ^ 21], refs, [], [], none, none⟩], nextCopy := 1 } }

/-- Cache 1 holds line 32768 in a state and answers a snoop of a kind that cache 2's request needs. -/
def snoopState (st : Mesi) (kind : Nat) : State :=
  up fun d => { d with coh := { d.coh with lines := [⟨1, 32768, st, 7, false⟩], dups := [⟨1, 32768, true⟩], txns := [⟨32768, .rdOnce 3, kind, [1]⟩] } }

/-- Queue 1 of context 1, READY, with its rings at 2^23 and 2^24, something at its head, and its context. -/
def qState (head : Option Head) (f : Dev → Dev) : State :=
  up fun d => f { ((d.wr (FE_Q_STATE_STATE 1) 1).wr (FE_Q_STATE_TAG 1) 1).wr FE_STATUS_READY 1 with
    fe := { d.fe with contexts := [⟨1, 0, 0x800000, 0, 0, none⟩], queues := [⟨1, 2 ^ 23, 2 ^ 24, 4, 4, 0, 7, 0, 0, head, [], none, false⟩] } }

/-- A link in a state with all its lanes and a layer as given. -/
def linkState (k st : Nat) (l : Link) : State :=
  up fun d => ((d.wr (lnState k) st).wr (lnLanes k) (lnWidth k)).setLink k l

/-- Port 0 is UP; job entry 0 has EPOCH 5, RANK 3; export window 2 of that EPOCH, TOKEN 77, opens frame 2 with the rights given. -/
def winState (rights : Nat) : State :=
  up fun d => ((((d.wr (lnState 0) 2).setLink 0 { credits := [9, 9, 9, 9] }).setWord (NFP_JOB_W0_VALID 0).reg (((((d.wr (NFP_JOB_W0_VALID 0) 1).wr (NFP_JOB_W0_EPOCH 0) 5).wr (NFP_JOB_W0_RANK 0) 3)).word (NFP_JOB_W0_VALID 0).reg)).setWord
    (NFP_WIN_W0_OPEN 2).reg (BitVec.ofNat 64 (5 * 2 ^ 32 + rights + 1))).wr (NFP_WIN_W1_TOKEN 2) 77 |>.wr (NFP_WIN_RANGE_FIRST 2) 2 |>.wr (NFP_WIN_RANGE_LAST 2) 2
/-- A packet of that EPOCH from rank 9 to rank 3 for 64 bytes of the frame. -/
def winPacket (token : Nat) : Packet := ⟨false, false, 3, 9, 0xFFFF, 5, 4, 64, 2 ^ 22, BitVec.ofNat 64 token, 0, List.replicate 64 7⟩
/-- An outstanding WR of job 0 to rank 9 under TAG 4, for an operation of COPY or none. -/
def reqState (op : Option Nat) (resends : Nat) : State :=
  let s := winState 0
  { s with dev := { s.dev with
      nfp := { s.dev.nfp with reqs := [⟨4, 1, { winPacket 77 with dst := 9 }, 0, op, 0, resends⟩] }
      fe := { s.dev.fe with ops := [{ opOf [(0, 3)] with phase := .running }] } } }

/-- The control block of a REDUCE_SCATTER of 2 elements of INT32, SUM, over 2 ranks listed at virtual 16, 2 shards, COLL_ID 6. -/
def collBlock : List Byte :=
  leBytes 64 (1 + 2 * 2 ^ 16 + 2 * 2 ^ 48 + 2 * 2 ^ 64 + 1 * 2 ^ 128 + 6 * 2 ^ 160 + 2 * 2 ^ 192 + 2 ^ 256 * 64 + 2 ^ 320 * 128 + 2 ^ 384 * 16 + 2 ^ 448 * 5)
/-- The module of job 0 with that operation dispatched; the second rank of its list is 9, or 3 again. -/
def collState (n : Nat) : State :=
  let s := winState 0
  let d := { ctxDev s.dev with pool := { s.dev.pool with hbm := [(2 ^ 21 + 16, 3), (2 ^ 21 + 18, if n = 2 then 9 else 3)] } }
  { s with dev := { d with fe := { d.fe with ops := [{ opOf [(0, 5)] with cb := collBlock }] } } }
/-- The module with a collective in flight. -/
def collFlight (k : Collective) : State :=
  let s := winState 0
  { s with dev := { s.dev with nfp := { s.dev.nfp with colls := [k] }, fe := { s.dev.fe with ops := [{ opOf [(0, 5)] with phase := .running }] } } }

/-- A request of the module to the host outstanding, an operation of COPY running, and core 2 running it. -/
def strReq (r : StrReq) : State :=
  up fun d => { d with str := { d.str with reqs := [r] }, fe := { d.fe with ops := [{ opOf [(0, 3)] with phase := .running }] }
                       cores := { d.cores with cores := [{ id := 2, task := some ⟨5, 1⟩ }] } }
/-- DMA channel 3 runs at count 17 of a ring of 16 at 2^21; its descriptor copies `n` bytes from 2^22 to 100 above, under a tag, with IRQ. -/
def dmaState (n tag : Nat) : State :=
  up fun d => ((((({ d with pool := { d.pool with hbm := hbmWrite [] (2 ^ 21 + 32) (leBytes 24 (2 ^ 22 + (2 ^ 22 + 100) * 2 ^ 64 + n * 2 ^ 128 + tag * 2 ^ 160 + 2 ^ 184)) } }.wr (STR_DMA_RING_ADDR 3) 512).wr (STR_DMA_PTR_HEAD 3) 17).wr
    (STR_DMA_PTR_TAIL 3) 18).wr (STR_DMA_PTR_LOG2 3) 4).wr (STR_DMA_PTR_STATE 3) 1).wr (STR_DMA_PTR_EN 3) 1

/-- A Narrows link that is UP with modules and a layer as given. -/
def nrwState (l ms : Nat) (ln : Link) : State :=
  up fun d => ((d.wr (NRW_LINK_STATE l) 2).wr (NRW_LINK_MODULES l) ms).setLink (10 + l) ln
/-- Discovery in a state; the identity that a die has to give. -/
def discState (st : Nat) (n : Narrows) : State := up fun d => ({ d with nrw := n } : Dev).wr NRW_DISC_STATUS_STATE st
def dieId (die : Nat) : DieIdentity := ⟨if die < 4 then 0 else 1, 1, 3, 2, 0, true, true⟩

/-- A module of a role in a state of the twin pair. -/
def twinState (role st : Nat) (t : Twin) : State :=
  up fun d => (({ d with twn := t } : Dev).wr TWN_STATUS_ROLE role).wr TWN_STATUS_STATE st
/-- A leeward that mirrors, with queue 1 of context 1. -/
def twinQueue : State :=
  let s := qState none id
  { s with dev := (s.dev.wr TWN_STATUS_ROLE 1).wr TWN_STATUS_STATE 3 }

/-- An RMA token for challenge 0 and serial 0; a patch blob without hooks for ROM 5; the certificate of the identity key 0 for serial 0. -/
def rmaToken : List Byte := List.replicate 24 0 ++ [4] ++ List.replicate 1287 0
def patchBlob : List Byte := leBytes 24 (0x4E504231 + 2 ^ 32 + 0x1E * 2 ^ 56 + 5 * 2 ^ 96) ++ List.replicate 1320 0
def idCert : List Byte := (leBytes 8 (0x43455254 + 2 ^ 32) ++ List.replicate 32 0) ++ ((List.range 1793).map (Config.keyByte 0) ++ List.replicate 1287 0)
def certState : State := up fun d => { d with nv := { d.nv with idKey := some 0 } }

/-- Core 2 in a task of the running operation 5 of context 1, an instruction held or not, with registers; its L2 owns line 32768, the context's first. -/
def coreState (h : Option (BitVec 32)) (x : List (Nat × Word)) : State :=
  up fun d => { ctxDev d with
    fe := { (ctxDev d).fe with ops := [{ opOf [(0, 6)] with phase := .running }] }
    cores := { d.cores with cores := [{ id := 2, pc := 0x4000, x := x, held := h, task := some ⟨5, 1⟩ }] }
    coh := { d.coh with lines := [⟨2, 32768, .e, 7, false⟩], dups := [⟨2, 32768, true⟩] } }

theorem witness_EmptyQueueTicksClocks :
    (upState.pending = [] ∧ upState.dev.live = true ∧ upState.dev.pw.pwrGood = true) ∧
    (State.reset.pending = [] ∧ State.reset.dev.live = false) := by decide +kernel

theorem witness_DarkModuleOnlyPinsAct :
    State.reset.dev.live = false ∧ isPowerPin .sliceExpiry = false ∧ isMeterCommand .sliceExpiry = false := by decide +kernel

theorem witness_MeterIsOutOfReach :
    after (exec .meterPulse State.reset) = some State.reset ∧ isMeterCommand .meterPulse = true ∧
    after (exec .sliceExpiry State.reset) = some State.reset ∧ isMeterCommand .sliceExpiry = false := by decide +kernel

theorem witness_FusesNeverGoBack :
    after (step State.reset) = some State.reset ∧ after (exec .sliceExpiry State.reset) = some State.reset ∧ reachesFuses .sliceExpiry = false := by decide +kernel

theorem witness_MeterLogKeepsForm :
    State.reset.meter.log = [] ∧ after (step State.reset) = some State.reset ∧
    after (step { upState with pending := [.meterPulse] }) = some { upState with meter := { upState.meter with energy := 100, pulses := 1 } } := by decide +kernel

theorem witness_ClosedRegistersTakeNoCommand :
    regWriteOf .maintenanceEntry = some (RAS_MAINT_CTRL_REQ.reg, 1) ∧
    (let s := withFld upState SEC_LC_STATE_STATE 5; s.runs ∧ s.dev.lcState = 5) ∧
    (let s := withFld upState NRW_DISC_STATUS_STATE 4
     s.runs ∧ s.dev.lcState ≠ 5 ∧ s.dev.discStopped = true ∧ RAS_MAINT_CTRL_REQ.reg / 2 ^ 24 ∉ [0, 9, 11, 12]) ∧
    (let s := withFld upState GLB_STATUS_READY 0
     s.runs ∧ s.dev.lcState ≠ 5 ∧ s.dev.discStopped = false ∧ s.dev.rd GLB_STATUS_READY = 0) := by decide +kernel

theorem witness_SequencerAluWritesDestination :
    (seqUp id).seqTakes slot ∧ (seqUp id).seqTakes { slot with rd := 0 } := by decide +kernel

theorem witness_SequencerFalseGuardDoesNothing :
    (seqUp id).seqFree ∧ (seqUp id).dev.seq.pc + 1 < (seqUp id).dev.seq.imem.length ∧
    (seqUp id).dev.guarded 0 true = false ∧ (seqUp id).dev.seq.ops = [] ∧ (seqUp id).dev.seq.moves = [] := by decide +kernel

theorem witness_SequencerComparisonsSetGuard :
    (seqUp id).seqTakes slot ∧
    (∀ k, k < 6 → seqCond k 1 2 ≠ none) ∧
    (let s := seqUp fun q => { q with moves := [⟨0, 0, 0, 0, 0, 0⟩] }
     let a := { slot with rd := 0x30 }
     s.seqTakes a ∧ 6 ≤ a.rd.toNat / 8 ∧ s.dev.seq.moves ≠ []) := by decide +kernel

theorem witness_SequencerConstantMemory :
    (seqUp id).seqTakes slot ∧
    (let s := seqUp id; let p := (s.dev.seq.xr 2 + (0 : Word)).toNat
     p % 32 = 0 ∧ p + 32 ≤ s.dev.seq.cmem.length ∧ (s.dev.seq.xr 1).toNat + (s.dev.seq.xr 3).toNat ≤ 8192 ∧
     descOk (BitVec.ofNat 256 (leNat ((s.dev.seq.cmem.drop p).take 32))) s.dev.lsBytes = false) ∧
    (let s := seqUp fun q => { q with cmem := leBytes 32 (2 ^ 58 + 2 ^ 64 * 65537 + 2 ^ 214) }
     s.seqTakes slot ∧ descOk (BitVec.ofNat 256 (leNat ((s.dev.seq.cmem.drop 0).take 32))) s.dev.lsBytes = true) := by decide +kernel

theorem witness_SequencerSummaryInstructions :
    (let s := seqUp fun q => { q with hValid := 4 }
     s.seqTakes slot ∧ s.dev.seq.hPending 2 = false ∧ s.dev.seq.hValid.getLsbD 2 = true ∧
     hcmp 0 0 (s.dev.seq.hr 2) (s.dev.seq.xr 3) = some true) ∧
    (let s := seqUp fun q => { q with ops := [⟨0, 0, 2, false, 0, 0, 0, 0, 0, 0, 0, 0, 0, [], [], true, 2, true, true, false⟩] }
     s.seqFree ∧ s.dev.seq.hPending 2 = true ∧ s.dev.seq.ops ≠ []) ∧
    (let s := seqUp fun q => { q with moves := [⟨0, 0, 0, 0, 0, 0⟩] }
     s.seqTakes slot ∧ s.dev.seq.hPending 2 = false ∧ s.dev.seq.hValid.getLsbD 2 = false ∧ s.dev.seq.moves ≠ []) := by decide +kernel

theorem witness_SequencerBranchesAndEnd :
    (let s := seqUp id; let a := { slot with imm := 3 }
     s.seqFree ∧ s.dev.guarded a.gi a.gn = true ∧ (s.dev.target a).toOption = some 3 ∧ s.dev.seq.xr 1 ≠ 1 ∧ s.dev.seq.pc + 1 < s.dev.seq.imem.length ∧
     s.dev.seq.ops = [] ∧ s.dev.seq.moves = [] ∧ s.dev.handDue = false ∧ s.dev.seq.launch.isSome) ∧
    (let s := seqUp fun q => { q with x := [(1, 1)], moves := [⟨2, 0, 0, 0, 0, 0⟩] }; let a := { slot with imm := 4 }
     s.seqFree ∧ s.dev.guarded a.gi a.gn = true ∧ (s.dev.target a).toOption = none ∧ s.dev.seq.xr 1 = 1 ∧ a.imm.getLsbD 2 = true ∧
     s.dev.seq.moves ≠ []) ∧
    (let s := seqUp fun q => { q with ops := [⟨0, 0, 2, false, 0, 0, 0, 0, 0, 0, 0, 0, 0, [], [], true, 2, true, true, false⟩] }
     s.seqFree ∧ s.dev.seq.ops ≠ []) := by decide +kernel

theorem witness_SequencerMovesData :
    (let s := seqUp fun q => { q with d := [(2, BitVec.ofNat 256 (2 ^ 64 * 65537 + 2 ^ 214 * 2)), (3, BitVec.ofNat 256 (2 ^ 64 * 65537 + 2 ^ 214 * 2))] }
     let s := { s with dev := { s.dev with tiles := { s.dev.tiles with split := 2 } } }
     s.seqTakes slot ∧ s.dev.seq.moves = [] ∧ slot.imm.extractLsb' 20 11 = 0 ∧
     moveCheck 2 s.dev.lsBytes 0 (s.dev.seq.dr 2) (s.dev.seq.dr 3) = none ∧
     moveCheck 0 s.dev.lsBytes 0 (s.dev.seq.dr 2) (s.dev.seq.dr 3) = some 4) ∧
    (let s := seqUp fun q => { q with moves := [⟨1, 2, 0, 0, 0, 0⟩, ⟨2, 2, 0, 0, 0, 0⟩] }
     let a := { slot with imm := BitVec.ofNat 32 (2 ^ 20) }
     s.seqFree ∧ a.imm.extractLsb' 20 11 ≠ 0 ∧ (∃ m ∈ s.dev.seq.moves, m.tok = a.rd.toNat % 16) ∧
     s.dev.seq.moves.find? (·.tok == 1) = some ⟨1, 2, 0, 0, 0, 0⟩ ∧ (∃ n ∈ s.dev.seq.moves, n.tok ≠ 1)) ∧
    (let s := seqUp fun q => { q with moves := [⟨1, 1, 0, 0, 0, 0⟩] }
     (s.dev.moveAll ⟨1, 1, 0, 0, 0, 0⟩ 1).dev.seq = s.dev.seq ∧ (s.dev.moveAll ⟨1, 1, 0, 0, 0, 0⟩ 1).err = none ∧
     (s.dev.moveAll ⟨1, 1, 0, 0, 0, 0⟩ 1).waits = false ∧ (s.dev.moveAll ⟨1, 1, 0, 0, 0, 0⟩ 1).dev.handDue = false ∧
     (s.dev.moveAll ⟨1, 1, 0, 0, 0, 0⟩ 1).dev.handing = false) := by decide +kernel

theorem witness_ArrayOperationIssues :
    (let s := seqUp fun q => { q with imem := List.replicate 8 0, cmem := leBytes 80 (2 * 2 ^ 59 + 3 * 2 ^ 53 + 2 ^ 33 + 2 ^ 25) }
     let a : AopArgs := ⟨BitVec.ofNat 64 (2 ^ 51), 0, 0, 0⟩
     s.seqFree ∧ s.dev.seq.pc + 4 < s.dev.seq.imem.length ∧ aopReserved a = false ∧ s.dev.seq.inIssue = none ∧
     s.dev.guarded (a.s0.extractLsb' 52 3) (a.s0.getLsbD 55) = true ∧ s.dev.seq.aopCause ⟨0, 0, 0, 0⟩ s.dev.lsBytes = some 2) ∧
    (let s := seqUp fun q => { q with imem := List.replicate 8 0, inIssue := some 3, ops := [⟨3, 0, 2, false, 0, 0, 0, 0, 0, 0, 0, 0, 0, [], [], false, 2, true, false, false⟩] }
     s.seqFree ∧ s.dev.seq.inIssue.isSome = true ∧ aopReserved ⟨1, 0, 0, 0⟩ = true ∧
     s.dev.guarded 0 true = false) ∧
    (let s := aopState; s.seqFree ∧ s.dev.seq.pc + 4 < s.dev.seq.imem.length ∧ aopReserved aopWord = false ∧
     s.dev.guarded (aopWord.s0.extractLsb' 52 3) (aopWord.s0.getLsbD 55) = true ∧
     s.dev.seq.aopCause aopWord s.dev.lsBytes = none ∧ s.dev.seq.inIssue = none) := by decide +kernel

theorem witness_LockstepFaultsAreFound :
    (aopState.seqFree ∧ aopState.dev.seq.faultAt.getD 0 none = none ∧ aopState.dev.seq.faultAt.getD 3 none = none ∧
      (1 : Word) ≠ 2 ∧ (3 : Word) ≠ 1 ∧ (3 : Word) ≠ 2) ∧
    (let s := withFld { aopState with dev := { aopState.dev with seq := { aopState.dev.seq with stall := some (.resync aopWord 3) } } } REEF_SEQ_STATUS_WAIT 7
     s.runs ∧ s.dev.seq.stall = some (.resync aopWord 3) ∧ s.dev.rd REEF_SEQ_STATUS_WAIT = 7 ∧ s.dev.seq.inIssue = none ∧
     s.dev.guarded (aopWord.s0.extractLsb' 52 3) (aopWord.s0.getLsbD 55) = true ∧ aopReserved aopWord = false ∧
     s.dev.seq.aopCause aopWord s.dev.lsBytes = none ∧ s.dev.seq.pc + 4 < s.dev.seq.imem.length) := by decide +kernel

theorem witness_ArrayOperationPartsRun :
    (let s := { aopState with dev := { aopState.dev with seq := { aopState.dev.seq with ops := [aopState.dev.seq.captureAop aopWord] } } }
     s.runs ∧ (s.dev.seq.ops.find? (·.id == 0)).isSome ∧ s.dev.seq.launch.any (·.err.isNone) ∧ s.dev.handDue = false ∧
     s.dev.seq.matrixMay (aopState.dev.seq.captureAop aopWord) = true ∧
     matrixBad s.dev.tiles 639 (aopState.dev.seq.captureAop aopWord) = false ∧
     s.dev.seq.flowMay (aopState.dev.seq.captureAop aopWord) = false) ∧
    (let o : ArrayOp := ⟨3, 0, 2, false, 0, 0, 0, 0, 0, 0, 0, 0, 0, [], [], false, 2, true, false, false⟩
     let s := seqUp fun q => { q with ops := [o] }
     s.dev.seq.flowMay o = true ∧ s.dev.seq.matrixMay o = false ∧ flowBad s.dev.tiles 639 o = false) ∧
    (let o : ArrayOp := ⟨3, 0, 2, false, 0, 0, 0, 0, 0, 0, 0, 0, 0, [], [], false, 2, true, true, true⟩
     let s := seqUp fun q => { q with ops := [o] }
     s.dev.seq.ops.find? (·.id == 3) = some o ∧ o.mStarted = true ∧ o.fEnded = true) := by decide +kernel

theorem witness_SequencerEnqueuesAndSignals :
    (let s := enqState 4
     s.seqTakes slot ∧ s.dev.seq.launch.isSome ∧ s.dev.queue? 9 ≠ none ∧ s.dev.rd (FE_Q_STATE_DEVICE_OWNED 9) = 1 ∧
     s.dev.rd (FE_Q_STATE_TAG 9) = 1 ∧ s.dev.qState 9 ≠ 6 ∧ (s.dev.seq.xr 3).toNat = 9 ∧ (s.dev.queue? 9).map (·.devRing.length) = some 0 ∧
     (s.dev.seq.xr 2).toNat + 128 ≤ s.dev.seq.cmem.length ∧ s.dev.op? 1 ≠ none ∧
     s.dev.fence? 4 = some ⟨4, 1, some 7, false⟩ ∧ (s.dev.op? 1).map (·.qid) = some 7 ∧ (s.dev.seq.xr 2).toNat = 4) ∧
    (let s := enqState 200
     s.seqTakes slot ∧ s.dev.seq.cmem.length < (s.dev.seq.xr 2).toNat + 128 ∧ s.dev.queue? 8 = none ∧
     s.dev.fence? 200 = none) := by decide +kernel

theorem witness_SequencerMarkedPoints :
    (let s := seqUp fun q => { q with ops := [⟨0, 0, 2, false, 0, 0, 0, 0, 0, 0, 0, 0, 0, [], [], true, 2, true, true, false⟩] }
     s.seqFree ∧ s.dev.seq.launch.isSome ∧ s.dev.seq.pc + 1 < s.dev.seq.imem.length ∧ s.dev.seq.ops ≠ []) ∧
    (let s := seqUp id
     s.seqFree ∧ s.dev.guarded slot.gi slot.gn = true ∧ s.dev.seq.ops = [] ∧ s.dev.seq.moves = [] ∧ s.dev.handDue = false ∧
     (slot.imm.extractLsb' 8 8).toNat = 0 ∧ s.dev.twState ≠ 3 ∧ knownOpcode 0x0E = false ∧ knownOpcode 0x93 = false) ∧
    (let s := withFld (enqState 4) REEF_ROT_CTRL_ENABLE 0
     (∀ die, die < 4 → s.dev.swapDue die = false) ∧ (s.dev.op? 1).any (!·.ended) = true) ∧
    (let s := seqUp id; let s := { s with dev := { s.dev with tiles := { s.dev.tiles with handover := .due, waiting := [2] } } }
     s.seqFree ∧ s.dev.handDue = true ∧ s.dev.tiles.waiting = [2] ∧ s.dev.seq.launch = some ⟨1, 1, 0, none, true, true, none⟩) ∧
    (let s := tallyState; let a := { slot with imm := 0x100 }
     s.seqFree ∧ s.dev.guarded a.gi a.gn = true ∧ a.imm.extractLsb' 16 16 = 0 ∧ (a.imm.extractLsb' 8 8).toNat = 1 ∧
     (a.imm.extractLsb' 0 8).toNat = 0 ∧ s.dev.twState = 3 ∧
     (match s.dev.tallySets 1 1 0 with | .ok (d', _) => decide (d'.seq = s.dev.seq) && d'.isWindward | .error _ => false) = true) := by decide +kernel

theorem witness_ArrayLaunchesStart :
    (let s := launchState none
     s.runs ∧ s.dev.handing = false ∧ (s.dev.ready? 1 1).isSome ∧ s.dev.seq.launch = none ∧ s.dev.tiles.splitNext = none ∧
     (s.dev.fe.ops.find? fun p => p.opcode == 1 && p.phase == .dispatched && p.tag == s.dev.rd REEF_STATUS_OWNER_TAG).map (·.id) = some 1) ∧
    (let l : SeqLaunch := ⟨1, 1, 0, none, false, false, none⟩
     let s := launchState (some l)
     s.dev.seq.launch = some l ∧ (s.dev.op? 1).any (fun o => o.phase == .dispatched && !o.ended) = true ∧ s.dev.seq.ops = [] ∧
     (match s.dev.vgather 1 0 64 .image with
      | .ok (d, hb) => !hb.any (·.2) && imageOk (leNat (hb.map (·.1))) && decide (d.seq = s.dev.seq) &&
          (match d.vgather 1 64 (8 * hdrF (leNat (hb.map (·.1))) 4 4) .image with
           | .ok (d', ib) => !ib.any (·.2) && (d'.op? 1).isSome
           | .error _ => false)
      | .error _ => false) = true) ∧
    (let l : SeqLaunch := ⟨1, 1, 0, some 5, true, false, none⟩
     let s := withFld (launchState (some l)) NFP_DOM_STATUS_STATE 4
     s.runs ∧ s.dev.domRunning = true ∧ s.dev.rd NFP_DOM_TICK_TICK < 5 ∧ (withFld s NFP_DOM_TICK_TICK 5).dev.rd NFP_DOM_TICK_TICK = 5 ∧
     (withFld s NFP_DOM_TICK_TICK 5).dev.nfp.dom.clock = (withFld s NFP_DOM_TICK_TICK 5).dev.nfp.dom.tickAt ∧
     5 < (withFld s NFP_DOM_TICK_TICK 6).dev.rd NFP_DOM_TICK_TICK) ∧
    (let s := up fun d => { d with tiles := { d.tiles with splitNext := some (1, 4, 2), splitWalk := true, l1Busy := [3] } }
     s.runs ∧ s.dev.handing = false ∧ s.dev.thr.launches = [] ∧ s.dev.l1Lines 3 = []) := by decide +kernel

theorem witness_ReefChangesHands :
    (let s := handState .idle none
     s.runs ∧ s.dev.tiles.waiting = [2] ∧ s.dev.rd REEF_HANDOVER_SLICE ≠ 0 ∧ s.dev.rd REEF_STATUS_OWNER_VALID = 1 ∧ s.dev.seq.launch = none) ∧
    (let l : SeqLaunch := ⟨1, 1, 0, none, true, true, none⟩
     let s := handState .due (some l)
     s.dev.tiles.handover = .due ∧ s.dev.seq.launch = some l ∧ s.dev.seq.ops = [] ∧ s.dev.seq.moves = [] ∧ s.dev.tiles.waiting = [2]) ∧
    (let s := handState (.saving 2) none
     s.dev.thr.accs = [] ∧ s.dev.tiles.l1 = [] ∧ s.dev.resident = true) ∧
    (let s := handState (.restoring 2) none
     (s.dev.context? 2).isSome = true ∧ s.dev.tiles.saved.find? (·.tag == 2) = none) ∧
    (let s := handState (.restoring 1) none
     (s.dev.context? 1).isSome = true ∧ (s.dev.tiles.saved.find? (·.tag == 1)).any (fun v => v.seq.launch.isNone &&
       swf (fun _ => (0 : Byte)) v.ls && v.ls.all fun p => inRange v.lo v.len 1 p.1) = true) := by decide +kernel

theorem witness_TilesAreTestedInRotation :
    (upState.ready ∧ upState.dev.isWindward = false ∧ 2 ≤ fieldOf 0xE2 3 0 ∧ fieldOf 0xE2 3 0 ≤ fieldOf 0xE2 7 4 ∧ fieldOf 0xE2 7 4 ≤ 14) ∧
    (let s := tileState 1 2
     s.dev.swapDue 1 = true ∧ s.dev.nextOut 1 = some 0 ∧ (s.dev.tilesIn 1 2).head? = some 1 ∧ (s.dev.logicalOf 1 0).isSome = true ∧
     (∀ i, i < 4 → (2 : BitVec 4).getLsbD i = decide (i = 1)) ∧ s.dev.pts 1 1 = 2 ∧ s.dev.seq.launch = none ∧ s.dev.handing = false ∧
     s.dev.rd GLB_STATUS_READY = 1 ∧ s.runs ∧ (withFld s REEF_ROT_CTRL_ENABLE 0).dev.swapDue 1 = false) ∧
    (let s := tileState 1 3
     s.dev.pts 1 1 = 3 ∧ s.dev.tiles.testing.any (·.1 == 1 * 192 + 1) = true ∧ s.dev.nv.record.length < 65536 ∧ s.dev.tilesLeft 1 ≠ 161) ∧
    (seqUp id).dev.seq.launch.isSome = true := by decide +kernel

theorem witness_LaneIntegerInstructions :
    (let s := laneState; let a := laneArgs 0x00
     s.runs ∧ s.dev.issue? a = some laneAt ∧ laneAt.p.pc < laneAt.l.ninstr ∧ a.rsvd = 0 ∧
     namedOk laneAt ([a.rd.toNat, a.ra.toNat, a.rb, a.rc].map (·, false)) = true ∧ s.dev.runLanes laneAt a ≠ []) ∧
    (let a := laneArgs 0x40; laneState.dev.issue? a = some laneAt ∧
     namedOk laneAt ([a.rd.toNat, a.ra.toNat, a.rb, a.rc].map (·, a.func.getLsbD 6)) = true) ∧
    (let a := laneArgs 0xC0; laneState.dev.issue? a = some laneAt ∧ a.func.getLsbD 7 = true) ∧
    (let a := { laneArgs 0x00 with low := 1 }; laneState.dev.issue? a = some laneAt ∧ a.rsvd ≠ 0) ∧
    (let a := { laneArgs 0x00 with rd := 255 }; laneState.dev.issue? a = some laneAt ∧ a.rsvd = 0 ∧
     namedOk laneAt ([a.rd.toNat, a.ra.toNat, a.rb].map (·, false)) = false) ∧
    (let s := laneStateAt 8; (s.dev.issue? (laneArgs 0)).any (fun i => decide (i.l.ninstr ≤ i.p.pc)) = true) := by decide +kernel

theorem witness_LaneFloatingPointInstructions :
    (let s := laneState; let a := laneArgs 0x00
     s.runs ∧ s.dev.issue? a = some laneAt ∧ a.rsvd = 0 ∧
     namedOk laneAt ([a.rd.toNat, a.ra.toNat, a.rb, a.rc].map (·, true)) = true) ∧
    (let a := { laneArgs 0x00 with rd := 3 }; laneState.dev.issue? a = some laneAt ∧
     namedOk laneAt ([a.rd.toNat, a.ra.toNat, a.rb].map (·, true)) = false) := by decide +kernel

theorem witness_LaneConversionsAndPredicates :
    (let s := laneState; let a := laneArgs 0x01
     s.runs ∧ s.dev.issue? a = some laneAt ∧ a.rsvd = 0 ∧ s.dev.runLanes laneAt a ≠ [] ∧
     cvtType 0 = true ∧ cvtType 1 = true ∧ a.func.getLsbD 3 = false ∧
     namedOk laneAt ([a.rd.toNat, a.ra.toNat, a.rb].map (·, false)) = true) ∧
    (let a := { laneArgs 0 with low := 7 }; laneState.dev.issue? a = some laneAt ∧ a.low.toNat % 16 = 7 ∧
     namedOk laneAt [(a.rd.toNat, false)] = true) ∧
    (let a := { laneArgs 0x08 with low := 9 }; laneState.dev.issue? a = some laneAt ∧ a.func.getLsbD 3 = true ∧ 9 ≤ a.low.toNat % 16) := by decide +kernel

theorem witness_ThreadPathsAndBarriers :
    (let s := laneState; let a := laneArgs 0
     s.laneIssues a laneAt ∧ s.dev.runLanes laneAt a = [0, 1] ∧ laneAt.g.paths = [laneAt.p] ∧ lanesMask [0, 1] = laneAt.p.mask ∧
     laneAt.l.joinSpin ≠ 0 ∧ laneAt.l.targets = [] ∧ (laneAt.l.ninstr : Int) ≤ (laneAt.p.pc : Int) + a.imm ∧
     s.dev.thr.groups.filter (fun g => g.launch == laneAt.l.op && g.blk == laneAt.g.blk) = [laneAt.g]) ∧
    (let a := { laneArgs 0 with low := 3 }; laneState.laneIssues a laneAt ∧ (0 : Int) ≤ laneAt.p.pc + a.imm ∧
     (laneAt.p.pc : Int) + a.imm < laneAt.l.ninstr ∧ (laneAt.p.pc : Int) + 1 < laneAt.p.pc + a.imm ∧
     laneState.dev.thr.groups.filter (fun g => g.tile == laneAt.g.tile && g.slot == laneAt.g.slot) = [laneAt.g]) ∧
    (let a := { laneArgs 0 with low := 0 }; laneState.laneIssues a laneAt ∧ (laneAt.p.pc : Int) + a.imm = laneAt.p.pc) ∧
    (let s := predState; let a := { laneArgs 0 with pi := 1, low := 3 }
     s.laneIssues a laneAt ∧ s.dev.runLanes laneAt a = [1] ∧ lanesMask [1] ≠ laneAt.p.mask) ∧
    (let a := { laneArgs 0 with pn := true }; laneState.laneIssues a laneAt ∧ laneState.dev.runLanes laneAt a = []) ∧
    (let s := pathState [⟨5, 3, .ready⟩, ⟨2, 12, .ready⟩] 0
     (s.dev.issue? (laneArgs 0)).any (fun i => i.g.paths == [i.p, ⟨2, 12, .ready⟩] && decide (2 < i.p.pc)) = true) ∧
    (let s := pathState [⟨5, 3, .ready⟩] 0xFFFFFFFC
     (s.dev.issue? (laneArgs 0)).any (fun i => lanesMask (s.dev.runLanes i (laneArgs 0)) ||| i.g.exited == BitVec.allOnes 32) = true) ∧
    (let s := up fun d => { d with thr := { laneState.dev.thr with blocks := [⟨1, 0, 2, 0, some 5⟩] } }
     (s.dev.thr.blocks.find? (fun b => b.tile == 2 && b.blk == 0 && b.barAt.isSome)).isSome = true ∧
     (s.dev.thrL? 1).any (·.err.isNone) = true) := by decide +kernel

theorem witness_ThreadLaunchesAndPlacement :
    (let s := kernelState 0x5A54
     s.runs ∧ (s.dev.ready? 1 2).isSome = true ∧ s.dev.op? 1 = s.dev.ready? 1 2 ∧ s.dev.thr.launches.length < 16 ∧ s.dev.tiles.splitNext = none ∧
     (match s.dev.vread 1 .image 0 64 with
      | .ok hb => !hb.any (·.2) && kernelOk (leNat (hb.map (·.1))) s.dev.tiles.pool &&
          (redTargets (hdrF (leNat (hb.map (·.1))) 7 1) []).isSome && decide (hdrF (leNat (hb.map (·.1))) 7 1 = 0)
      | .error _ => false) = true) ∧
    (let s := kernelState 0
     (match s.dev.vread 1 .image 0 64 with
      | .ok hb => !hb.any (·.2) && !kernelOk (leNat (hb.map (·.1))) s.dev.tiles.pool
      | .error _ => false) = true) ∧
    (let s := placeState 1024
     s.runs ∧ s.dev.handing = false ∧ (s.dev.thr.launches.find? (fun l => decide (l.nextBlk < l.nblocks))).any
       (fun l => s.dev.blockRoom l 0 && s.dev.poolFit 0 l.bls == some 262144) = true) ∧
    (let s := placeState (2 ^ 30)
     (s.dev.thr.launches.find? (fun l => decide (l.nextBlk < l.nblocks))).any
       (fun l => (List.range 160).all fun tl => !s.dev.blockRoom l tl) = true) := by decide +kernel

theorem witness_LaneLocalStoreAndConstantAccess :
    (let s := laneState; let a := { laneArgs 0 with low := 0x06000008 }
     s.laneIssues a laneAt ∧ namedOk laneAt [(a.rd.toNat, true), (a.ra.toNat, false)] = true ∧ a.off = 8 ∧ s.dev.runLanes laneAt a = [0, 1] ∧
     262144 + laneAt.l.bls ≤ 2 ^ 21 ∧ namedOk laneAt [(a.rb, true), (a.ra.toNat, false)] = true ∧
     s.dev.tiles.lsBad 2 262152 8 = false ∧ s.dev.thr.reg (laneKey 2 0 0) 4 = 0 ∧ s.dev.thr.reg (laneKey 2 0 1) 4 = 7) ∧
    (let s := laneState; let a := { laneArgs 0 with ra := 8, low := 0x06000000 }
     s.laneIssues a laneAt ∧ (∀ k, k ∈ s.dev.runLanes laneAt a → (s.dev.thr.reg (laneKey 2 0 k) 8 : Int) + a.off = 0)) ∧
    (let a := { laneArgs 0 with low := 0x06000001 }; a.off % 2 ≠ 0) ∧
    (let a := { laneArgs 0 with low := 0x06000400 }; a.off = 1024 ∧ (64 : Int) < a.off) := by decide +kernel

theorem witness_LaneMemoryAccessesIssue :
    (let s := laneState; let a := { laneArgs 0 with ra := 8, low := 0x06000008 }
     s.laneIssues a laneAt ∧ namedOk laneAt [(a.rd.toNat, true), (a.ra.toNat, true)] = true ∧ s.dev.runLanes laneAt a = [0, 1] ∧
     (∀ k, k ∈ s.dev.runLanes laneAt a → codeOf 64 ((s.dev.thr.pair (laneKey 2 0 k) 8 : Int) + a.off) = 8) ∧
     s.dev.l1? 2 1 0 = none ∧ laneAt.l.orderedOnly = false ∧
     namedOk laneAt [(8, true), (2, false), (a.rb, false), (a.rb + 1, false)] = true ∧
     s.dev.xlate 1 8 .read = .waits ∧ s.dev.xlate 1 8 .atomic = .waits ∧ s.dev.thr.accs = [] ∧ a.low.toNat % 4 = 0) ∧
    (let s := laneState; let a := { laneArgs 0 with ra := 8, low := 0x06000003 }
     s.laneIssues a laneAt ∧ a.low.toNat % 4 = 3 ∧ codeOf 64 ((s.dev.thr.pair (laneKey 2 0 0) 8 : Int) + a.off) % 2 ≠ 0) ∧
    (let s := predState; let a := { laneArgs 0 with pi := 1, ra := 8, low := 0x06000008 }
     s.laneIssues a laneAt ∧ s.dev.runLanes laneAt a = [1] ∧ namedOk laneAt [(a.rb, true), (a.ra.toNat, true)] = true ∧
     (s.dev.tiles.l1.filter fun x => x.tile == 2 && x.vline % 2048 == 0).length < 16 - s.dev.tiles.split ∧
     laneAt.l.targets[a.offBits % 16]? = none) ∧
    (let s := redoState true
     (s.dev.issue? (laneArgs 0)).any (fun i => decide (i.p.pc < i.l.ninstr) && i.l.orderedOnly &&
       (i.l.targets[0]?).any (fun t0 => namedOk i [((laneArgs 0).rb, redWide t0.ty)]) && !(s.dev.runLanes i (laneArgs 0)).isEmpty) = true) := by decide +kernel

theorem witness_LaneMemoryAccessesAreAnswered :
    (∀ kind, kind < 4 → (respState kind 0 4 0).runs ∧ ((respState kind 0 4 0).dev.thr.accs.find? (·.id == 0)).isSome ∧
      ((respState kind 0 4 0).dev.thrL? 1).any (·.err.isNone) = true) ∧
    (let s := respState 0 0 4 (2 ^ 21 + 3)
     s.dev.l1? 2 1 (2 ^ 14) = none ∧ s.dev.xlate 1 (2 ^ 20 + 8) .read = .pa (2 ^ 21 + 8) ∧ inPool (2 ^ 21 + 8) = true ∧
     s.dev.poisonAt (2 ^ 21 + 8) = false ∧ s.dev.natAt (2 ^ 21 + 8) 4 = 261 ∧ s.dev.l1Lines 2 = []) ∧
    (let s := respState 2 0 4 (2 ^ 21 + 9)
     s.dev.xlate 1 (2 ^ 20 + 8) .atomic = .pa (2 ^ 21 + 8) ∧ (atomResult 0 false 261 5 0).isSome = true) ∧
    (let s := respState 2 0 8 (2 ^ 21 + 9) 0
     s.dev.xlate 1 (2 ^ 20 + 8) .atomic = .pa (2 ^ 21 + 8) ∧ s.dev.thr.accs.any (fun x => x.rd == 0 && x.bytes == 8) = true) ∧
    (let s := respState 2 0 4 (2 ^ 21 + 3); s.dev.xlate 1 (2 ^ 20 + 8) .atomic = .ended .rights) ∧
    (let s := respState 1 0 4 (2 ^ 21 + 1); s.dev.xlate 1 (2 ^ 20 + 8) .read = .ended .rights) ∧
    (let s := laneState; s.dev.xlate 1 (2 ^ 20 + 8) .read = .waits) := by decide +kernel

theorem witness_DomainClockAndTicks :
    (upState.ready ∧ upState.dev.isWindward = false ∧ upState.dev.rd NFP_DOM_STATUS_STATE = 0 ∧
      (let v : Word := 0x0618000000400001
       v.getLsbD 0 = true ∧ fieldOf v 31 22 = 1 ∧ fieldOf v 21 13 = 0 ∧ fieldOf v 12 4 = 0 ∧ fieldOf v 63 48 = 0x618)) ∧
    (let s := domState 1 1
     s.runs ∧ s.dev.portUp 0 = true ∧ s.dev.rd NFP_PTP_CTRL_ENABLE = 1 ∧ s.dev.rd NFP_PTP_CTRL_PORTS % 2 = 1 ∧ s.dev.rd NFP_DOM_STATUS_STATE = 1) ∧
    (let s := domState 2 1
     2 ≤ s.dev.rd NFP_DOM_STATUS_STATE ∧ s.dev.nfp.dom.ref ≠ s.dev.rd NFP_DOM_CTRL_DRANK ∧ sgn 32 (s.dev.rd NFP_DOM_SYNC_TRIM) = 0 ∧
     s.dev.nfp.dom.missed + 1 < 8 ∧ s.dev.rd NFP_DOM_START_START ≤ s.dev.nfp.dom.clock ∧ s.dev.nfp.dom.lateEntry = false) ∧
    (let s := domState 4 1
     s.dev.rd NFP_DOM_STATUS_STATE = 4 ∧ s.dev.rd PWR_THROTTLE_EMERGENCY = 0 ∧ s.dev.mute = false ∧
     s.dev.rd NFP_DOM_TICK_TICK + 1 = 2 ∧ s.dev.nfp.dom.announced.find? (·.1 == 2) = none) ∧
    (let s := domState 4 0
     s.dev.nfp.dom.ref = s.dev.rd NFP_DOM_CTRL_DRANK ∧ 0 < s.dev.rd NFP_DOM_CTRL_MEMBERS) ∧
    (let s := up fun d => { d with nfp := { d.nfp with dom := { d.nfp.dom with missed := 7, announced := [(1, 10, 99)] } } }
     s.dev.nfp.dom.announced.find? (·.1 == 1) = some (1, 10, 99) ∧ 8 ≤ s.dev.nfp.dom.missed + 1) := by decide +kernel

theorem witness_SlotTablesRule :
    (let s := upState
     s.ready ∧ s.dev.rd NFP_SCHED_ADDR_ADDR * 2 ^ 14 + 16384 ≤ 0x6000000000 ∧ s.dev.poisonIn 0 16384 = false ∧
     (∀ p, p < 8 → firstErr (s.dev.rd NFP_DOM_CTRL_TICK_UNITS) 0 0 0 [] = none) ∧
     firstErr 1560 0 0 0 [0x8000000000000001] = some (0, 2)) ∧
    (let s := withFld upState NFP_SCHED_ADDR_ADDR (2 ^ 25); 0x6000000000 < s.dev.rd NFP_SCHED_ADDR_ADDR * 2 ^ 14 + 16384) ∧
    (let s := slotState 0x8000040000640001
     s.runs ∧ s.dev.domRunning = true ∧ s.dev.mute = false ∧ s.dev.portUp 0 = true ∧ (s.dev.activeSlots 0)[0]? = some 0x8000040000640001 ∧
     s.dev.nfp.sqs = [(4, 1, slotPacket)] ∧ nfpFlits slotPacket * 256 ≤ 1 * 8000 * s.dev.rd (lnLanes 0) / 4 ∧ s.dev.portTakes 0 1 slotPacket = true) ∧
    (let s := slotState 0xA000040000640001
     (s.dev.activeSlots 0).any (fun e => slotClass e == 1) = true ∧ s.dev.nfp.mgmt = [] ∧ (s.dev.portsFor 1 0).contains 0 = true ∧
     s.dev.sqScheduled 4 = false ∧ (slotState 0x8000040000640001).dev.sqScheduled 4 = true) := by decide +kernel

theorem witness_MemoryLinesAndRefresh :
    (let s := upState
     s.runs ∧ inPool (2 ^ 22) = true ∧ reserveFrame (2 ^ 22 / 2 ^ 21) = false ∧ s.dev.memPoison (2 ^ 22) = false ∧
     s.dev.pool.ceLines = [] ∧ s.dev.pool.ceTimes = [] ∧ 1 < s.dev.rd MEM_RAS_CTRL_CE_LIMIT ∧ 1 < s.dev.rd MEM_RAS_CTRL_UE_LIMIT ∧
     sget (fun _ => 0) s.dev.pool.spareRows 0 < 4 ∧ s.dev.nv.record.length < 65536 ∧ sget (fun _ => 0) s.dev.pool.postponed 0 = 0 ∧
     sget (fun _ => 0) s.dev.pool.ahead 0 = 0 ∧ s.dev.pcState 0 = 0 ∧ s.dev.pcState 1 = 0 ∧ getKey s.dev.pool.parityAt 0 = none ∧
     s.dev.rd MEM_SAT_CTRL_SAT_PCT * s.dev.rd MEM_SAT_CTRL_WINDOW ≤ 100000000 * 16 ∧ s.dev.pcsOut.length ≤ 8) ∧
    (let s := up fun d => { d with pool := { d.pool with ceLines := [((d.placeNow (2 ^ 22)).1 * 2 ^ 32 + 8 * 2 ^ 14 + (d.placeNow (2 ^ 22)).2 / 1024 / 48, 7, 0)], postponed := [(1, 8)], ahead := [(2, 8)], parityAt := [(3, 0)] } }
     s.dev.now < 0 + 8640000000000 ∧ (s.dev.placeNow (2 ^ 22)).2 / 1024 % 48 = 8 ∧ 7 ≠ 2 ^ 22 / 64 ∧ sget (fun _ => 0) s.dev.pool.postponed 1 = 8 ∧
     sget (fun _ => 0) s.dev.pool.ahead 2 = 8 ∧ getKey s.dev.pool.parityAt 3 = some 0 ∧ s.dev.now < 0 + 100000) ∧
    (withFld upState MEM_RAS_CTRL_AUTO_RETIRE 0).dev.rd MEM_RAS_CTRL_AUTO_RETIRE = 0 ∧ (withFld upState MEM_RAS_CTRL_AUTO_RETIRE 1).dev.rd MEM_RAS_CTRL_AUTO_RETIRE = 1 ∧
    (let s := up fun d => { d.wr GLB_TIME_TIME 100000 with pool := { d.pool with parityAt := [(3, 0)] } }
     getKey s.dev.pool.parityAt 3 = some 0 ∧ 0 + 100000 ≤ s.dev.now) := by decide +kernel

theorem witness_PseudoChannelCommands :
    (let s := upState
     s.ready ∧ s.dev.svcState ≠ 3 ∧ s.dev.pool.cmd = none ∧ s.dev.marginOpen = true ∧ s.dev.pcState 9 = 0 ∧ s.dev.pcsOut = [] ∧ s.dev.pcsIn [1, 2, 3] = [] ∧
     s.dev.pcsIn [4, 5] = [] ∧ s.dev.pool.retireWait = [] ∧ s.dev.nv.record.length < 65536 ∧ s.dev.pool.redirect = []) ∧
    (withFld upState SEC_LC_STATE_STATE 0).dev.marginOpen = false ∧
    (let s := withFld upState (MEM_PC_STATE_STATE 9) 2; s.dev.pcState 9 = 2 ∧ s.dev.pool.cmd = none) ∧
    (let s := { upState with dev := [0, 1, 2, 3, 4, 5, 6, 7, 8, 10].foldl (fun d p => d.wr (MEM_PC_STATE_STATE p) 5) upState.dev }
     s.dev.pcState 9 = 0 ∧ 10 ≤ (s.dev.pcsIn [4, 5]).length) ∧
    (let s := withFld upState RAS_SUMMARY_SVC_STATE 2; s.dev.svcState = 2 ∧ s.dev.pcsOut.length ≤ 8 ∧ s.dev.pcState 32 = 0 ∧ s.dev.pcState 33 = 0) ∧
    (let s := up fun d => { d.wr (MEM_PC_STATE_STATE 9) 1 with pool := { d.pool with cmd := some (1, 9, 0) } }
     s.runs ∧ s.dev.pcState 9 = 1 ∧ s.dev.pool.cmd = some (1, 9, 0)) ∧
    (let s := up fun d => { d.wr (MEM_PC_STATE_STATE 9) 3 with pool := { d.pool with cmd := some (2, 9, 0) } }
     s.dev.pcState 9 = 3 ∧ s.dev.pool.cmd = some (2, 9, 0)) ∧
    (let s := up fun d => { (d.wr (MEM_PC_STATE_STATE 9) 2).wr MEM_RAS_CTRL_AUTO_RETIRE 1 with pool := { d.pool with cmd := some (3, 9, 0) } }
     s.dev.pcState 9 = 2 ∧ s.dev.pool.cmd = some (3, 9, 0) ∧ s.dev.rd MEM_RAS_CTRL_MARGIN_MIN ≤ 255 + 255 ∧ 0 < s.dev.rd MEM_RAS_CTRL_MARGIN_MIN) := by decide +kernel

theorem witness_TierPublishing :
    (let f := [(0, 4), (32, 1), (40, 77), (48, 8), (64, 1)]
     let s := opState f fun d => { (ctxDev d).wr TIER_SHELF_STATUS_FREE_STRIPES 9 with pool := { d.pool with hbm := [(2 ^ 21 + 10, 32)] } }
     s.tierReady (opOf f) 1 ∧ s.dev.isWindward = false ∧ gave (s.dev.vnums 1 8 8 1) (s.dev, [2 ^ 21]) = true ∧ s.dev.nv.dir = [] ∧
     2 ≤ s.dev.rd TIER_SHELF_STATUS_FREE_STRIPES ∧ (∀ p, p < 16 → 246 ≤ s.dev.spareBlocks p) ∧ s.dev.dirent? 0 = none) ∧
    (let s := opState [] fun d => { ctxDev d with pool := { d.pool with hbm := [(2 ^ 21 + 10, 16)] } }
     gave (s.dev.vnums 1 8 8 1) (s.dev, [2 ^ 20]) = true ∧ refused (s.dev.vnums 2 8 8 1) .rights = true) ∧
    (let f := [(0, 4), (32, 2), (56, 2 ^ 20)]
     let s := opState f fun d => { d with nv := { d.nv with dir := [⟨0, 77, 1, [2 ^ 21], [], [], []⟩] } }
     s.tierReady (opOf f) 2 ∧ (s.dev.direntIn 0 1).any (fun x => decide (2 ^ 20 ≤ x.segs.sum)) = true ∧ s.dev.direntIn 1 1 = none ∧
     gave (s.dev.vgather 1 0 0) (s.dev, []) = true) := by decide +kernel

theorem witness_TierPublishing_2 :
    (let f := [(0, 4), (32, 2)]
     let s := opState f fun d => { d with nv := { d.nv with dir := [⟨0, 77, 1, [2 ^ 21], [], [], []⟩] }, tier := { d.tier with publishes := [⟨5, 0, 0, 1⟩] }, fe := { d.fe with ops := [{ opOf f with phase := .running }] } }
     s.runs ∧ (s.dev.op? 5).any (fun o => o.phase == .running && o.opcode == 4) = true ∧ s.dev.tier.publishes.find? (·.op == 5) = some ⟨5, 0, 0, 1⟩) ∧
    (let f := [(0, 4), (32, 3), (48, 64)]
     let s := opState f fun d => { ctxDev d with nv := { d.nv with dir := [⟨0, 77, 1, [2 ^ 21], [0, 1], [], []⟩] } }
     s.tierReady (opOf f) 3 ∧ s.dev.direntIn 0 1 = some ⟨0, 77, 1, [2 ^ 21], [0, 1], [], []⟩ ∧ (∀ k, k < 2 → [0, 1].contains k = true) ∧
     s.dev.xlate 1 64 .write = .pa (2 ^ 21 + 64) ∧ inPool (2 ^ 21 + 64) = true ∧ reserveFrame 1 = false) ∧
    (let f := [(0, 4), (32, 4)]
     let s := opState f fun d => { d with nv := { d.nv with dir := [⟨0, 77, 2, [2 ^ 21], [0, 1], [], []⟩] }, fe := { d.fe with ops := [opOf f], objects := [⟨0, 1, 0, 2 ^ 21, 1, [], [2 ^ 21], 0, [], 0, none⟩] } }
     s.tierReady (opOf f) 4 ∧ s.tierCalm ∧ s.dev.tier.copies = [] ∧ s.dev.tier.waiters = [] ∧ (s.dev.dirent? 0).any (·.state == 2) = true ∧ s.dev.dirent? 1 = none ∧
     s.dev.fe.objects.any (fun ob => ob.tier == 1 && ob.ident == 0) = true) := by decide +kernel

theorem witness_TierPromotionAndEviction :
    (let f := [(0, 4), (32, 5), (36, 1)]
     let s := opState f (tierDev 2 [1])
     s.tierCalm ∧ s.tierReady (opOf f) 5 ∧ (s.dev.handleObject 1 1).any (fun x => x.flags.toNat % 4 == 1 && x.segs.length == 1) = true ∧
     (s.dev.copyOf 0 0).any (fun c => c.refs == [1] && c.state == 2) = true ∧ ((opState f (tierDev 1 [1])).dev.copyOf 0 0).any (·.state == 1) = true) ∧
    (let f := [(0, 4), (32, 5), (36, 1)]
     let s := opState f (tierDev 0 [])
     s.tierCalm ∧ s.tierReady (opOf f) 5 ∧ s.dev.copyOf 0 0 = none ∧ s.dev.dirent? 0 = none ∧ 2 ^ 21 / 2 ^ 21 ≤ s.dev.tier.poolFrames.length ∧ s.dev.handleObject 1 2 ≠ none) ∧
    (let f := [(0, 4), (32, 5), (36, 1), (64, 1)]
     let s := opState f fun d => { tierDev 0 [] d with tier := { d.tier with poolFrames := [] } }
     s.tierCalm ∧ s.tierReady (opOf f) 5 ∧ s.dev.tier.poolFrames.length < 2 ^ 21 / 2 ^ 21 ∧ s.dev.handleObject 1 7 = none ∧ 1 ≤ entF (opOf f).entry 64 4) := by decide +kernel

theorem witness_TierPromotionAndEviction_2 :
    (let f := [(0, 4), (32, 6), (36, 1)]
     let s := opState f (tierDev 2 [1])
     s.tierReady (opOf f) 6 ∧ s.dev.copy? 0 = s.dev.copyOf 0 0 ∧ s.dev.tier.waiters = [] ∧ s.dev.ctu.invals.length < 16 ∧ s.dev.dirent? 0 = none ∧
     ((opState f (tierDev 2 [3])).dev.copyOf 0 0).any (fun c => !c.refs.contains 1) = true) ∧
    (let f := [(0, 4), (32, 5), (36, 1)]
     let s := opState f fun d => { d with tier := { d.tier with waiters := [⟨0, some 5, 1, 0, 0, 9, false⟩] }, fe := { d.fe with ops := [{ opOf f with phase := .running }] } }
     s.tierCalm ∧ s.runs ∧ s.dev.tier.waiters.find? (·.id == 0) = some ⟨0, some 5, 1, 0, 0, 9, false⟩ ∧ (s.dev.op? 5).any (fun o => o.phase == .running && o.opcode == 4) = true) := by decide +kernel

theorem witness_TierFillsAndBindings :
    (let s := up (tierDev 1 [])
     s.tierCalm ∧ s.runs ∧ s.dev.tier.bindings = [] ∧ (s.dev.copy? 0).any (fun c => c.state == 1 && c.refs.isEmpty && c.stripes.find? (fun k => !c.got.contains k && !c.bad.contains k) == some 0 &&
       c.stripes == [0, 1] && c.paOf 0 == 2 ^ 21) = true ∧ (s.dev.nextFill.map (·.id)) = some 0) ∧ (withFld (up (tierDev 1 [])) TIER_CTRL_REFETCH 0).dev.rd TIER_CTRL_REFETCH = 0 ∧
    (let s := up fun d => { tierDev 1 [] d with tier := { (tierDev 1 [] d).tier with copies := [⟨0, 0, 0, 0, 1, [2 ^ 21], [], [0], [], none, none⟩] } }
     (s.dev.copy? 0).any (fun c => c.stripes.find? (fun k => !c.got.contains k && !c.bad.contains k) == some 1) = true ∧ (s.dev.nextFill.map (·.id)) = some 0) ∧
    (let s := up fun d => { tierDev 1 [] d with tier := { (tierDev 1 [] d).tier with copies := [⟨0, 0, 0, 0, 3, [2 ^ 21], [], [0], [1], none, some 9⟩] } }
     (s.dev.copy? 0).any (fun c => c.state == 3 && c.refetch == some 9) = true) := by decide +kernel

theorem witness_TierFillsAndBindings_2 :
    (let f := [(0, 4), (32, 7), (36, 2), (56, 4096), (72, 256)]
     let s := opState f (tierDev 0 [])
     s.tierCalm ∧ s.tierReady (opOf f) 7 ∧ (s.dev.handleObject 1 2).any (fun x => x.flags.toNat % 4 == 0 && x.flags.getLsbD 9 && decide (4096 ≤ x.size)) = true ∧
     s.dev.rd (NFP_WIN_W0_BOUND 256) = 0 ∧ s.dev.handleObject 1 9 = none ∧ (s.dev.handleObject 1 1).any (·.flags.toNat % 4 == 1) = true) ∧
    (let f := [(0, 4), (32, 8), (72, 256)]
     let s := opState f fun d => { d with fe := { d.fe with ops := [opOf f, { opOf f with id := 3, phase := .running }] }, tier := { d.tier with bindings := [⟨256, some 3, none, 1, 1, 0, 4096, [], false, 0, false, 0, none, 0⟩] } }
     s.tierCalm ∧ s.tierReady (opOf f) 8 ∧ (s.dev.binding? 256).any (fun b => b.fill.isNone && b.tag == 1 && b.op == some 3) = true ∧ s.dev.binding? 257 = none ∧
     (s.dev.op? 3).any (fun q => q.phase == .running && q.opcode == 4) = true) := by decide +kernel

theorem witness_HomeServesRequests :
    (let s := upState
     s.runs ∧ homeLineOk 32768 = true ∧ s.dev.coh.txns = [] ∧ s.dev.coh.waiting = [] ∧ s.dev.cacheLives 1 = true ∧ s.dev.cline? 1 32768 = none ∧
     s.dev.setFull 1 32768 = false ∧ s.dev.coh.dups = [] ∧ s.dev.dup? 1 32768 = none ∧ s.dev.agentState 2 ≠ 3 ∧ s.dev.hintFor 32768 0 = 0 ∧
     (atomResult 0 false 0 5 0).isSome = true) ∧
    (let s := up fun d => { d with coh := { d.coh with lines := [⟨1, 32768, .s, 7, false⟩, ⟨66, 32768, .s, 7, false⟩], dups := [⟨1, 32768, false⟩, ⟨66, 32768, false⟩] } }
     (s.dev.cline? 1 32768).any (·.st == .s) = true ∧ s.dev.dup? 66 32768 = some ⟨66, 32768, false⟩ ∧ s.dev.cline? 2 32768 = none ∧ s.dev.setFull 2 32768 = false ∧ s.dev.dup? 2 32768 = none) ∧
    (let s := up fun d => { d with coh := { d.coh with lines := [⟨1, 32768, .m, 7, false⟩], dups := [⟨1, 32768, true⟩] } }
     (s.dev.cline? 1 32768).any (·.st == .m) = true ∧ s.dev.coh.dups.filter (fun x => x.line == 32768) = [⟨1, 32768, true⟩] ∧ s.dev.dup? 2 32768 = none ∧ s.dev.cores.cores = []) ∧
    (let s := up fun d => { d with coh := { d.coh with lines := [⟨1, 32768, .s, 7, false⟩], dups := [⟨1, 32768, false⟩] } }
     (s.dev.cline? 1 32768).any (·.st == .s) = true ∧ s.dev.coh.dups.all (fun x => x.cache == 1) = true) := by decide +kernel

theorem witness_SnoopsWaysAndCacheErrors :
    (let s := snoopState .m 0
     s.runs ∧ s.dev.coh.txns.any (fun t => t.line == 32768 && t.snoop == 0 && t.wait.contains 1) = true ∧ s.dev.cacheLives 1 = true ∧ s.dev.coh.snpAns = [] ∧ (s.dev.cline? 1 32768).isSome = true) ∧
    (let s := up fun _ => { (snoopState .m 1).dev with coh := { (snoopState .m 1).dev.coh with snpAns := [⟨1, 32768, 0, some (7, false)⟩] } }
     s.dev.coh.snpAns.find? (fun y => y.cache == 1 && y.line == 32768) = some ⟨1, 32768, 0, some (7, false)⟩ ∧
     (s.dev.coh.txns.find? (·.line == 32768)).any (fun x => x.wait == [1] && x.snoop == 1) = true ∧ s.dev.cores.cores = [] ∧ s.dev.coh.waiting = []) ∧
    (let s := upState
     s.ready ∧ s.dev.rd (COH_WAYS_CLEANING 0) = 0 ∧ fieldOf (8 * 512) 13 9 = 8 ∧ 8 < s.dev.rd (COH_WAYS_IN_FORCE 0) ∧ s.dev.tdm.dump = none ∧ s.dev.rd TDM_DUMP_VALID = 0 ∧ s.dev.coh.lines = []) ∧
    ((withFld upState (COH_WAYS_CLEANING 0) 1).dev.rd (COH_WAYS_CLEANING 0) = 1) ∧
    (let s := up fun d => { d with coh := { d.coh with lines := [⟨1, 32768, .e, 7, false⟩, ⟨2, 32769, .m, 7, false⟩] } }
     (s.dev.cline? 1 32768).any (·.st != .m) = true ∧ (s.dev.cline? 2 32769).any (·.st == .m) = true ∧ s.dev.coh.txns = []) := by decide +kernel

theorem witness_CtuTranslatesAndInvalidates :
    (let s := up ctxDev
     s.runs ∧ s.ready ∧ s.dev.isWindward = false ∧ s.dev.isLeeward = false ∧ s.dev.context? 1 = some ⟨1, 0, 0x800000, 0, 0, none⟩ ∧ s.dev.context? 2 = none ∧
     s.dev.ctu.tlb.find? (fun t => t.tag == 1 && decide (t.vpage ≤ 8) && decide (8 < t.vpage + t.span)) = some ⟨1, 0, 4096, 2 ^ 21 + 15, 0, false⟩ ∧ levelSpan 0 = 4096 ∧
     leafUsable (2 ^ 21 + 15) = true ∧ leafAllows (2 ^ 21 + 15) .read = true ∧ leafAllows (2 ^ 21 + 3) .write = false ∧
     s.dev.ctu.tlb.find? (fun t => t.tag == 1 && decide (t.vpage ≤ 8192) && decide (8192 < t.vpage + t.span)) = none ∧ s.dev.ctu.walkCache = [] ∧ s.dev.ctu.walks = []) ∧
    (let s := up fun d => { ctxDev d with pool := { d.pool with hbm := [(0x800000, 1), (0x800001, 16), (0x800002, 128), (0x800008, 17), (0x800009, 0), (0x80000A, 32)] } }
     walkEntry 4 (BitVec.ofNat 64 (s.dev.natAt 0x800000 8)) = .next 0x801000 ∧ walkEntry 0 (BitVec.ofNat 64 (s.dev.natAt 0x800008 8)) = .leaf ∧
     leafAllows (BitVec.ofNat 64 (s.dev.natAt 0x800008 8)) .read = false ∧ walkEntry 4 (BitVec.ofNat 64 (s.dev.natAt 0x800010 8)) = .notPresent ∧
     walkEntry 0 (2 ^ 21 + 19) = .leaf ∧ leafAllows (2 ^ 21 + 19) .read = true ∧ s.dev.rd CTU_FQ_BASE_EN = 0 ∧ s.dev.poisonAt 0x800000 = false) := by decide +kernel

theorem witness_CtuTranslatesAndInvalidates_2 :
    (let s := up fun d => { d with ctu := { d.ctu with faults := [⟨3, 1, 0, 1, 1, 1, 4, 0, 0, []⟩] } }
     s.dev.ctu.faults.find? (·.id == 3) = some ⟨3, 1, 0, 1, 1, 1, 4, 0, 0, []⟩ ∧ s.dev.isWindward = false) ∧
    ((withFld upState CTU_FAULT_CTRL_TIMEOUT 5).dev.rd CTU_FAULT_CTRL_TIMEOUT ≠ 0) ∧ ((withFld upState CTU_FAULT_CTRL_TIMEOUT 0).dev.rd CTU_FAULT_CTRL_TIMEOUT = 0) ∧
    (let s := upState
     s.dev.rd CTU_INV_CMD_GO = 0 ∧ s.dev.ctu.invals = [] ∧ 0 + 1 * 2 ^ 12 ≤ 2 ^ 57 ∧ s.dev.rd CTU_FQ_BASE_EN = 0 ∧ fieldOf (0x4000B1 : Word) 8 4 = 11 ∧
     inMemory (fieldOf (0x4000B1 : Word) 47 12 * 4096) (64 * 2 ^ 11) = true) ∧
    ((withFld upState CTU_INV_CMD_GO 1).dev.rd CTU_INV_CMD_GO = 1) ∧
    (let s := up fun d => { d with ctu := { d.ctu with invals := [⟨4, none, 1, none⟩] } }; s.dev.ctu.invals.find? (·.id == 4) = some ⟨4, none, 1, none⟩ ∧ s.dev.fe.objects = [] ∧ s.dev.fe.contexts = []) ∧
    ((withFld upState CTU_CNT_CTRL_PERIOD_MS 0).dev.rd CTU_CNT_CTRL_PERIOD_MS = 0 ∧ (withFld upState CTU_CNT_CTRL_PERIOD_MS 1).dev.rd CTU_CNT_CTRL_PERIOD_MS ≠ 0) ∧
    (let s := withFld upState CTU_STATUS_STANDBY_OK 1; s.dev.rd CTU_STATUS_ACTIVE = 0 ∧ s.dev.rd CTU_STATUS_STANDBY_OK = 1) ∧
    (let s := up fun d => { (d.wr CTU_STATUS_STANDBY_OK 0).wr (NRW_DIE_STATE 5) 2 with ctu := { d.ctu with hasStandby := true } }
     s.dev.rd (NRW_DIE_STATE 5) = 2 ∧ s.dev.rd CTU_STATUS_STANDBY_OK = 0 ∧ s.dev.ctu.hasStandby = true) ∧
    (let s := up fun d => { ctxDev (d.wr CTU_FQ_BASE_EN 1) with ctu := { d.ctu with stalled := [⟨6, 1, 1, 8192, .read, 1⟩], walks := [⟨7, 1, 8192, 4, 0x800000, [⟨6, 1, 1, 8192, .read, 1⟩], false⟩] } }
     s.dev.ctu.stalled.find? (·.id == 6) = some ⟨6, 1, 1, 8192, .read, 1⟩ ∧ (s.dev.ctu.walks.find? (·.id == 7)).any (·.level == 4) = true ∧ s.dev.rd CTU_FQ_BASE_EN = 1 ∧
     s.dev.twn.resolves = [] ∧ s.dev.faultsFull = false ∧ s.dev.ctu.faults = []) := by decide +kernel

theorem witness_EntriesAreReadAndCompleted :
    (let s := qState none fun d => { d.wr (FE_Q_COUNT_TAIL 1) 1 with pool := { d.pool with hbm := [(2 ^ 23 + 4, 1)] } }
     s.runs ∧ s.dev.isLeeward = false ∧ s.dev.isWindward = false ∧ (s.dev.queue? 1).any (fun q => s.dev.mayRead q && !q.full) = true ∧ s.dev.rd GLB_STATUS_READY = 1 ∧
     s.dev.rd (FE_Q_STATE_DEVICE_OWNED 1) = 0 ∧ s.dev.rd (FE_Q_COUNT_HEAD 1) ≠ s.dev.rd (FE_Q_COUNT_TAIL 1) ∧ inPool (2 ^ 23) = true ∧
     entF (BitVec.ofNat 1024 (s.dev.natAt (2 ^ 23) 128)) 4 4 = 1 ∧ s.dev.poisonIn (2 ^ 23) 128 = false ∧ (2 ^ 24) % 64 ≤ 32 ∧ 2 ^ 24 + 32 ≤ 0x5F00000000 ∧ (2 + 2 ^ 32 - 0) % 2 ^ 32 ≤ 2 ^ 4) ∧
    (let s := qState (some ⟨0, none, 63, false, none⟩) id; (s.dev.queue? 1).any (fun q => q.head.any fun h => !h.arrived && h.rereads == 63) = true) ∧
    (let h : Head := ⟨2 ^ 32, none, 0, true, none⟩
     let s := qState (some h) id
     s.dev.mayDispatch = true ∧ s.dev.twn.seedStop = false ∧ s.dev.qState 1 = 1 ∧ s.dev.sec.locked = false ∧ s.dev.ras.lostDies = [] ∧ formOk 1 h.entry = true ∧ entF h.entry 12 4 = 0 ∧
     s.dev.fe.ops = [] ∧ formOk 1 0x55 = false ∧ s.dev.rd (FE_Q_STATE_ERR_STOP 1) = 0) := by decide +kernel

theorem witness_EntriesAreReadAndCompleted_2 :
    (let e : BitVec 1024 := 2 ^ 128 * 5 + 2 ^ 64 * (2 ^ 30 + 1)
     let s := qState (some ⟨e, none, 0, true, none⟩) fun d => { d with fe := { d.fe with handles := [⟨1, 1, 0, true, 1, 3⟩], fences := [⟨3, 1, none, false⟩] } }
     formOk 1 e = true ∧ s.dev.waitState 1 e = .offDevice) ∧
    (let s := opState [(0, 7)] id; s.opReady (opOf [(0, 7)]) 7) ∧ (let s := opState [(0, 8)] id; s.opReady (opOf [(0, 8)]) 8) ∧ (let s := opState [] id; s.opReady (opOf []) 0) ∧
    (let f := [(0, 3), (32, 8), (40, 64), (48, 4)]
     let s := opState f fun d => { ctxDev d with fe := { (ctxDev d).fe with ops := [{ opOf f with unit := 2 }] } }
     s.opReady { opOf f with unit := 2 } 3 ∧ s.dev.inService 0x22 = true ∧ s.dev.engineAway 2 = false ∧ s.dev.nfp.reqs = [] ∧
     gave (s.dev.vgather 1 8 4) (s.dev, [(0, false), (0, false), (0, false), (0, false)]) = true ∧ s.dev.xlate 1 64 .write = .pa (2 ^ 21 + 64) ∧ s.dev.hintFor (2 ^ 15 + 1) 0 = 0) := by decide +kernel

theorem witness_EntriesAreReadAndCompleted_3 :
    (let o := { opOf [(24, 9)] with phase := .done .ok 0 7, sigFence := some 3 }
     let s := qState none fun d => { d with fe := { d.fe with ops := [o], fences := [⟨3, 1, none, false⟩] } }
     s.dev.op? 5 = some o ∧ s.dev.twState = 0 ∧ s.dev.twn.sendStopped = false ∧ s.dev.twn.heldTally = none ∧ s.dev.twn.failTally = none ∧ s.dev.thr.launches = [] ∧
     s.dev.rd REEF_STATUS_OWNER_VALID = 0 ∧ (∀ f, f < 6 → s.dev.funcState f ≠ 1) ∧ s.dev.fence? 3 = some ⟨3, 1, none, false⟩ ∧ entF o.entry 1 1 / 8 % 2 = 0 ∧ s.dev.fe.objects = [] ∧
     (s.dev.queue? 1).any (fun q => q.head.isNone && q.draining.isNone) = true ∧ s.dev.fe.contexts.all (·.dying.isNone) = true) := by decide +kernel

theorem witness_AllocationAndGraphCommands :
    (let f := [(0, 9), (32, 0x1C), (40, 4096), (72, 64)]
     let s := opState f ctxDev
     s.opReady (opOf f) 9 ∧ s.dev.isWindward = false ∧ s.dev.isLeeward = false ∧ (s.dev.context? 1).isSome = true ∧ allocOk (opOf f).entry = true ∧ allocOk (opOf [(0, 9)]).entry = false ∧
     s.dev.vaFree 1 (2 ^ 56) 4096 4096 = true ∧ s.dev.pagesFree 4096 [2 ^ 24] = true ∧
     (([2 ^ 24].foldl (fun d f => d.hold f 4096) s.dev).mapPages 0x800000 0 (2 ^ 56) (fun _ => leafWord (2 ^ 24) 7) 1 [0x801000, 0x802000, 0x803000, 0x804000]).any (fun d' =>
       d'.freeIndex 1 == some 1 && d'.xlate 1 64 .write == .pa (2 ^ 21 + 64) && d'.hintFor (2 ^ 15 + 1) 0 == 0) = true) ∧
    (let f := [(0, 10), (32, 1)]
     let s := opState f fun d => { ctxDev d with fe := { (ctxDev d).fe with ops := [opOf f], objects := [⟨0, 1, 2 ^ 56, 4096, 0, [2 ^ 24], [], 0, [], 0, none⟩], handles := [⟨1, 1, 0, true, 0, 0⟩] } }
     s.opReady (opOf f) 10 ∧ (s.dev.handleObject 1 1).any (fun ob => ob.tier == 0 && ob.tag == 1) = true ∧ s.dev.handleObject 1 2 = none ∧ s.dev.context? 1 ≠ none ∧ s.dev.ctu.invals = []) ∧
    (let f := [(0, 11), (32, 1), (34, 1)]
     let s := opState f id
     s.opReady (opOf f) 11 ∧ s.dev.ctu.invals.length < 16 ∧ entF (opOf f).entry 32 1 = 1 ∧ entF (opOf f).entry 34 2 = 1 ∧ entF (opOf [(0, 11), (32, 2)]).entry 32 1 = 2) := by decide +kernel

theorem witness_AllocationAndGraphCommands_2 :
    (let f := [(0, 12)]
     let s := opState f fun d => { d with fe := { d.fe with ops := [opOf f], nextOp := 9, graphs := [⟨0, 1, 1, false, [⟨1, [0], []⟩]⟩], runs := [⟨5, 0, 1, [0], [], none⟩] } }
     s.opReady (opOf f) 12 ∧ s.dev.fe.runs.find? (·.op == 5) = some ⟨5, 0, 1, [0], [], none⟩ ∧ formOk 1 0 = true) ∧
    (let f := [(0, 0x47), (32, 1), (34, 2), (36, 1), (40, 2 ^ 22), (48, 2 ^ 22 + 4096)]
     let s := opState f fun d => { ctxDev d with pool := { d.pool with hbm := [(2 ^ 22 + 4096, 1)] } }
     s.opReady (opOf f) 0x47 ∧ (s.dev.liveCtx 1).isSome = true ∧ inAlloc (2 ^ 22) 256 = true ∧ inAlloc (2 ^ 22 + 4096) 4 = true ∧ s.dev.poisonIn (2 ^ 22) 256 = false ∧
     graphOk [0, 0] [(0, 1)] = true ∧ graphOk [0, 0] [(1, 1)] = false ∧ s.dev.freeIndex 1 = some 1 ∧ s.dev.storeUsed + 2 ≤ 262144 ∧ s.dev.liveCtx 2 = none) ∧
    (let f := [(0, 0x48), (32, 1), (36, 3 * 2 ^ 30 + 1), (40, 2 ^ 22)]
     let s := opState f fun d => { d with fe := { d.fe with ops := [opOf f], graphs := [⟨0, 1, 1, false, [⟨1, [0, 1], [(0, 1)]⟩]⟩], handles := [⟨1, 1, 0, true, 3, 0⟩] } }
     s.opReady (opOf f) 0x48 ∧ s.dev.reloc 1 3 (entF (opOf f).entry 36 4) 0 = some 0 ∧ inAlloc (2 ^ 22) 128 = true ∧ nodeOk (BitVec.ofNat 1024 (s.dev.natAt (2 ^ 22) 128)) = true ∧ nodeOk 9 = false ∧
     s.dev.storeUsed < 262144 ∧ s.dev.reloc 1 3 0 0 = none) := by decide +kernel

theorem witness_AllocationAndGraphCommands_3 :
    (let f := [(0, 0x49), (32, 1), (36, 3 * 2 ^ 30 + 1)]
     let s := opState f fun d => { d with fe := { d.fe with ops := [opOf f], graphs := [⟨0, 1, 1, false, []⟩], handles := [⟨1, 1, 0, true, 3, 0⟩] } }
     s.opReady (opOf f) 0x49 ∧ s.dev.reloc 1 3 (entF (opOf f).entry 36 4) 0 = some 0 ∧ s.dev.fe.runs = [] ∧ (s.dev.fe.handles.filter fun x => x.tag == 1 && x.index == 1).length ≤ 1) ∧
    (let f := [(0, 0x4A), (40, 2 ^ 21), (56, 2 ^ 22)]
     let s := opState f id
     s.opReady (opOf f) 0x4A ∧ inAlloc (2 ^ 22) 16 = true ∧ s.dev.rangeFree (2 ^ 23) (2 ^ 21) = true ∧ s.dev.rangeFree 0 (2 ^ 60) = false ∧ inMemory 0 16 = false) ∧
    (let f := [(0, 0x4B), (40, 2 ^ 23)]
     let s := opState f fun d => { d with fe := { d.fe with ops := [opOf f], phys := [(2 ^ 23, 2 ^ 21)] } }
     s.opReady (opOf f) 0x4B ∧ s.dev.fe.phys.any (·.1 == entF (opOf f).entry 40 8) = true) := by decide +kernel

theorem witness_ContextsQueuesAndFences :
    (let f := [(0, 0x40), (56, 2 ^ 22)]
     let s := opState f id
     s.opReady (opOf f) 0x40 ∧ s.dev.isWindward = false ∧ inAlloc (2 ^ 22) 16 = true ∧ s.dev.rangeFree (2 ^ 23) 4096 = true ∧ s.dev.freeSlot = 0 ∧ s.dev.fe.contexts.length < 1024) ∧
    (let f := [(0, 0x41), (32, 1)]
     let s := opState f fun d => { d with fe := { d.fe with ops := [{ opOf f with tag := 0 }], contexts := [⟨1, 0, 0x800000, 0, 0, none⟩] } }
     s.opReady { opOf f with tag := 0 } 0x41 ∧ s.dev.liveCtx 1 = some ⟨1, 0, 0x800000, 0, 0, none⟩ ∧ s.dev.fe.queues = [] ∧ s.dev.fe.objects = [] ∧ s.tierCalm ∧ s.dev.liveCtx 0 = none) ∧
    (let f := [(0, 0x42), (32, 5), (34, 1), (37, 4), (38, 4), (40, 2 ^ 22), (48, 2 ^ 23), (60, 7)]
     let s := opState f ctxDev
     s.opReady (opOf f) 0x42 ∧ s.dev.liveCtx 1 ≠ none ∧ ringOk (2 ^ 23) (32 * 16) = true ∧ ringOk (2 ^ 22) (128 * 16) = true ∧ s.dev.queue? 5 = none ∧ s.dev.freeIndex 1 = some 1) := by decide +kernel

theorem witness_ContextsQueuesAndFences_2 :
    (let f := [(0, 0x43), (32, 5)]
     let s := opState f fun d => { d with fe := { d.fe with ops := [opOf f], queues := [⟨5, 2 ^ 22, 2 ^ 23, 4, 4, 0, 7, 0, 0, none, [], none, false⟩] } }
     s.opReady (opOf f) 0x43 ∧ (s.dev.queue? 5).any (·.draining.isNone) = true ∧ s.dev.fe.ops.all (·.qid != 5) = true ∧ inPool (2 ^ 23) = true ∧ entF (opOf [(34, 1)]).entry 34 1 = 1 ∧ s.dev.queue? 6 = none) ∧
    (let f := [(0, 0x44), (32, 5)]
     let s := opState f fun d => { d with fe := { d.fe with ops := [opOf f], fences := [⟨3, 1, some 5, false⟩], queues := [⟨5, 2 ^ 22, 2 ^ 23, 4, 4, 0, 7, 0, 0, none, [], none, false⟩] } }
     s.opReady (opOf f) 0x44 ∧ (s.dev.queue? 5).any (·.draining.isNone) = true) ∧
    (let f := [(0, 0x45), (32, 1), (34, 0xFFFF), (40, 3), (48, 2 ^ 22)]
     let s := opState f ctxDev
     s.opReady (opOf f) 0x45 ∧ s.dev.liveCtx 1 ≠ none ∧ inAlloc (2 ^ 22) 16 = true ∧ s.dev.fence? 0 = none ∧ s.dev.freeIndex 1 = some 1 ∧ s.dev.fe.handles = []) ∧
    (let f := [(0, 0x46), (32, 1), (36, 2 ^ 30 + 1)]
     let s := opState f fun d => { d with fe := { d.fe with ops := [opOf f], handles := [⟨1, 1, 0, true, 1, 3⟩], fences := [⟨3, 1, none, false⟩] } }
     s.opReady (opOf f) 0x46 ∧ s.dev.reloc 1 1 (entF (opOf f).entry 36 4) 0 = some 3 ∧ s.dev.reloc 1 1 0 0 = none) := by decide +kernel

theorem witness_FrontEndTimersAndRegisters :
    (let e : BitVec 1024 := 2 ^ 128 * 5 + 2 ^ 64 * (2 ^ 30 + 1)
     let s := qState (some ⟨e, none, 0, true, some 0⟩) fun d => { d.wr (FE_Q_STATE_STATE 1) 2 with
       fe := { d.fe with queues := d.fe.queues.map (fun q => { q with timeoutMs := 9 }), handles := [⟨1, 1, 0, true, 1, 3⟩], fences := [⟨3, 1, none, false⟩] } }
     s.runs ∧ (s.dev.queue? 1).any (fun q => q.timeoutMs == 9 && !q.full) = true ∧ s.dev.waitsOn 1 = some .offDevice ∧ s.dev.qState 1 = 2 ∧ s.dev.isLeeward = false ∧ s.dev.isWindward = false) ∧
    (let o := { opOf [(0, 6), (60, 3)] with phase := .running }
     let s := up fun d => { d with fe := { d.fe with ops := [o] }, cores := { d.cores with cores := [{ id := 2, task := some ⟨5, 1⟩ }] } }
     (s.dev.cores.cores.find? (·.id == 2)).any (·.task.isSome) = true ∧ s.dev.op? 5 = some o ∧ entF o.entry 60 4 = 3) ∧
    (let s := upState; s.ready ∧ s.dev.svcState = 0 ∧ s.dev.rd FE_FUNC_CTRL_EN / 2 ^ 2 % 2 = 1 ∧ s.dev.funcState 2 = 0) ∧
    (let s := withFld (withFld upState FE_FUNC_CTRL_EN 0x3B) FE_FUNC_STATUS_STATE (2 * 16); s.dev.rd FE_FUNC_CTRL_EN / 2 ^ 2 % 2 = 0 ∧ s.dev.funcState 2 = 2) ∧
    (let o := { opOf [(0, 3)] with phase := .running }
     let s := withFld (withFld (up fun d => { d with fe := { d.fe with ops := [o] } }) FE_FUNC_CTRL_EN 0x3B) FE_FUNC_STATUS_STATE 16
     s.dev.funcState 2 = 1 ∧ s.dev.fe.ops = [o] ∧ s.dev.nfp.colls = [] ∧ s.dev.tiles.splitNext = none ∧ s.dev.tiles.handover = .idle) ∧
    ((withFld upState RAS_SUMMARY_SVC_STATE 2).dev.svcState ≠ 0) := by decide +kernel

theorem witness_FrontEndTimersAndRegisters_2 :
    (let s := up fun d => { d with fe := { d.fe with fences := [⟨3, 1, none, false⟩, ⟨4, 1, some 1, false⟩] } }
     s.ready ∧ s.dev.fence? 3 = some ⟨3, 1, none, false⟩ ∧ s.dev.fence? 4 = some ⟨4, 1, some 1, false⟩ ∧ s.dev.fence? 5 = none) ∧
    (let s := upState
     s.dev.lcState ≠ 5 ∧ s.dev.discStopped = false ∧ s.dev.rd FE_ADMIN_SQ_EN = 0 ∧ s.dev.rd FE_ADMIN_CQ_EN = 0 ∧ fieldOf (0x400041 : Word) 8 4 = 4 ∧ inMemory (fieldOf (0x400041 : Word) 47 12 * 4096) (128 * 2 ^ 4) = true) ∧
    (let s := up fun d => { d with str := { d.str with holdoff := [(7, true), (8, false)] } }
     getKey s.dev.str.holdoff 7 = some true ∧ getKey s.dev.str.holdoff 8 = some false ∧ s.dev.straitUp = true ∧ getKey s.dev.str.holdoff 9 = none) := by decide +kernel

theorem witness_LinksTrainRepairAndReplay :
    (let s := linkState 0 1 { attempt := 1 }
     s.runs ∧ s.dev.rd (lnState 0) = 1 ∧ (s.dev.link 0).attempt < 2 ∧ (s.dev.link 0).step < s.dev.lnSteps 0 ∧ s.dev.nfp.sqs = [] ∧ s.dev.nfp.answers = []) ∧
    (let s := linkState 9 1 { attempt := 2, step := 5 }
     s.dev.rd (lnState 9) = 1 ∧ s.dev.twState = 0 ∧ s.dev.lnSteps 9 ≤ (s.dev.link 9).step) ∧
    (let s := linkState 8 4 { step := 4, retry := [7, 8] }
     s.dev.rd (lnState 8) = 4 ∧ s.dev.str.reqs = [] ∧ (s.dev.link 8).retry.take 1 = [7]) ∧
    (let s := linkState 2 1 { step := 4, ethLatch := true }
     s.dev.portEth 2 = true ∧ s.dev.lnSteps 2 = 4) ∧
    (let s := linkState 3 1 { step := 5 }
     s.dev.portEth 3 = false ∧ s.dev.lnSteps 3 ≤ (s.dev.link 3).step ∧ s.dev.rd (lnState 3) ≠ 5) ∧
    (let s := linkState 8 5 {}
     s.dev.rd (lnState 8) = 5 ∧ s.dev.lnOn 8 = true ∧ s.dev.lnOn 9 = false) := by decide +kernel

theorem witness_LinksTrainRepairAndReplay_2 :
    (let s := linkState 9 2 { spareTrained := true }
     s.dev.lnUp 9 = true ∧ s.dev.spareFree 9 = true ∧ s.dev.rd (lnSpare 9) = 0 ∧ lnWidth 9 = 8 ∧ s.dev.rd (lnLanes 9) = 8) ∧
    (let s := linkState 1 2 { spareTrained := true, repair := some 2 }
     s.dev.lnUp 1 = true ∧ s.dev.spareFree 1 = true ∧ (s.dev.link 1).repair = some 2 ∧ s.dev.portEth 1 = false) ∧
    (let s := withFld (linkState 1 2 { repair := some 2 }) (lnSpare 0) 1
     s.dev.spareFree 1 = false ∧ lnWidth 1 ≤ s.dev.rd (lnLanes 1)) ∧
    (let s := withFld (linkState 1 3 {}) (lnLanes 1) 3
     s.dev.rd (lnLanes 1) < lnWidth 1 ∧ (s.dev.link 1).spareTrained = false ∧ (s.dev.link 1).repair = none) ∧
    (let s := linkState 1 2 { ethLatch := true }
     s.dev.lnUp 1 = true ∧ s.dev.portEth 1 = true) ∧
    (let s := linkState 8 2 { rxSeq := 4095, credits := [1, 2, 3, 4], retry := [4094, 0, 3], nakSeq := 6, nakRun := 7 }
     let hdr : Word := BitVec.ofNat 64 (1 * 2 ^ 60 + 2 * 2 ^ 58 + 4095 * 2 ^ 44 + 2 * 2 ^ 30 + 5 * 2 ^ 16)
     s.dev.lnUp 8 = true ∧ fieldOf hdr 63 60 = 1 ∧ fieldOf hdr 55 44 = (s.dev.link 8).rxSeq ∧ fieldOf hdr 31 30 = 2 ∧ fieldOf hdr 29 16 = 5 ∧ (s.dev.link 8).credits.length = 4 ∧
     fieldOf (hdr + 2 ^ 62 : Word) 63 60 = 5 ∧ fieldOf (0 : Word) 63 60 = 0 ∧ (s.dev.link 8).nakSeq = 6 ∧ (s.dev.link 8).nakRun = 7) ∧
    (let s := withFld (linkState 1 0 {}) (NFP_PORT_CTRL_MODE 1) 1
     s.ready ∧ s.dev.isWindward = false ∧ s.dev.rd (NFP_PORT_CTRL_EN 1) = 0 ∧ s.dev.portServed 1 = true ∧ s.dev.rd (NFP_ETH_MAC_ADDR 1) = 0 ∧ s.dev.rd (NFP_PORT_CTRL_MODE 2) = 0 ∧ s.dev.portServed 2 = true) := by decide +kernel

theorem witness_FabricRequestsAndAnswers :
    (let s := winState 0x1C
     s.runs ∧ s.dev.twState = 0 ∧ s.dev.receives 0 = true ∧ s.dev.receives 1 = false ∧ s.dev.jobOf 5 = some 0 ∧ s.dev.jobOf 6 = none ∧ s.dev.rd (NFP_JOB_W0_RANK 0) = 3 ∧
     s.dev.winsFor (winPacket 77) = [2] ∧ s.dev.rd (NFP_WIN_W1_TOKEN 2) = 77 ∧ s.dev.rd (NFP_WIN_W0_W 2) = 1 ∧ s.dev.rd (NFP_WIN_W0_R 2) = 1 ∧ s.dev.rd (NFP_WIN_W0_A 2) = 1 ∧
     s.dev.winsFor { winPacket 77 with addr := 0 } = [] ∧ s.dev.domRunning = false ∧ s.dev.mute = false ∧ s.dev.nfp.answers = [] ∧ s.dev.nfp.sqs = [] ∧
     ((s.dev.portsFor 8 9).find? fun q => s.dev.portTakes q 8 slotPacket) = some 0) ∧
    (let s := winState 0
     s.dev.winsFor (winPacket 77) = [2] ∧ s.dev.rd (NFP_WIN_W0_W 2) = 0 ∧ s.dev.rd (NFP_WIN_W0_R 2) = 0 ∧ s.dev.rd (NFP_WIN_W0_A 2) = 0) ∧
    atomResult 0 false 5 1 0 ≠ none ∧ atomResult 99 false 5 1 0 = none := by decide +kernel

theorem witness_FabricRequestsAndAnswers_2 :
    (let s := withFld (reqState (some 5) 1) NFP_CTRL_RETRIES 3
     s.dev.jobOf 5 ≠ none ∧ (s.dev.nfp.reqs.filter (·.tag == 4)).length = 1 ∧ (s.dev.op? 5).any (fun o => o.opcode = 3 ∧ o.phase = .running) = true ∧ s.dev.coll? 5 = none ∧
     s.dev.rd NFP_CTRL_RETRIES = 3 ∧ s.dev.turn (s.dev.jobSq 0) ((s.dev.portsFor 1 9).filter fun q => s.dev.portTakes q 1 { winPacket 77 with retx := true, dst := 9 }) = some 0) ∧
    (let s := withFld (reqState none 1) NFP_CTRL_RETRIES 0
     s.dev.rd NFP_CTRL_RETRIES ≤ 1 ∧ (s.dev.nfp.reqs.filter (·.tag == 4)).all (·.op.isNone) = true) ∧
    statusOf 12 = .resourceLost ∧
    (let s := linkState 6 2 { ethLatch := true }
     s.dev.portUp 6 = true ∧ s.dev.portEth 6 = true ∧ s.dev.rd (NFP_ETH_MAC_ADDR 6) = 0) := by decide +kernel

theorem witness_JobsWindowsAndCollectives :
    (let s := winState 0x1C
     s.ready ∧ s.dev.twState = 0 ∧ s.dev.rd (NFP_JOB_W0_VALID 0) = 1 ∧ s.dev.rd (NFP_JOB_W0_VALID 1) = 0 ∧ s.dev.tier.bindings = [] ∧ s.dev.rd (NFP_WIN_W0_OPEN 2) = 1 ∧ s.dev.rd (NFP_WIN_W0_EPOCH 2) = 5 ∧
     s.dev.rd (NFP_WIN_W0_OPEN 255) = 0 ∧ s.dev.jobOf 5 ≠ none ∧ inAlloc (2 * 2 ^ 21) (2 ^ 21) = true ∧ s.dev.rd (NFP_WIN_W0_EPOCH 3) ≠ 5) ∧
    (let s := reqState (some 5) 1
     (s.dev.nfp.reqs.map (·.tag)).Nodup ∧ (s.dev.op? 5).any (·.phase = .running) = true ∧ s.dev.coll? 5 = none ∧ s.dev.nfp.reqs.all (fun r => r.job = 0 ∧ r.op = some 5) = true) := by decide +kernel

theorem witness_JobsWindowsAndCollectives_2 :
    (let s := collState 2
     let o := { opOf [(0, 5)] with cb := collBlock }
     s.opReady o 5 ∧ collOk (BitVec.ofNat 512 (leNat o.cb)) = true ∧ s.dev.coll? 5 = none ∧ collOk 0 = false ∧
     (match s.dev.vnums 1 16 2 2 with | .ok (d1, r) => decide (r = [3, 9]) && (d1.op? 5).any (·.phase = .dispatched) && (d1.coll? 5).isNone && d1.rd (NFP_JOB_W0_RANK 0) == 3 | .error _ => false) = true ∧
     refused (s.dev.vnums 2 16 2 2) .rights = true) ∧
    (let s := collState 3
     (match s.dev.vnums 1 16 2 2 with | .ok (_, r) => decide (r = [3, 3]) | .error _ => false) = true) := by decide +kernel

theorem witness_JobsWindowsAndCollectives_3 :
    (let c : BitVec 512 := BitVec.ofNat 512 (leNat collBlock)
     let k : Collective := ⟨5, 1, 0, c, [3, 9, 11], false, [], [(3, c, 0)], []⟩
     let s := collFlight k
     s.dev.coll? 5 = some k ∧ (s.dev.op? 5).any (·.phase = .running) = true ∧ s.dev.jobOf 5 = some 0 ∧ s.dev.portUp 0 = true ∧ s.dev.portServed 0 = true ∧ k.descs.length + 1 < k.ranks.length ∧
     collF c 20 4 = 6 ∧ collBytes c = 4 ∧ collF c 0 1 = 1 ∧ collF c 1 1 = 0 ∧ k.ranks.getD (chunkOf c 0) 0 = s.dev.collSelf k ∧ s.dev.lcState ≠ 5 ∧ s.dev.discStopped = false ∧
     treeFrom 2 0 2 (fun l i => if l = 1 ∧ i = 0 then some 7 else none) (treeLevels 2) 0 = some 7 ∧ treeFrom 2 0 2 (fun l i => if l = 0 ∧ i = 0 then some 7 else none) (treeLevels 2) 0 = none) := by decide +kernel

theorem witness_StraitServesTheHost :
    (let s := upState
     s.runs ∧ s.dev.twState = 0 ∧ s.dev.mute = false ∧ s.dev.straitUp = true ∧ reserveFrame 1 = false ∧ reserveFrame 0 = true ∧ s.dev.rd GLB_STATUS_READY = 1 ∧ s.dev.lcState ≠ 5 ∧ s.dev.discStopped = false ∧
     s.dev.portEth 0 = false ∧ inBar0 0x7F0000000100 = true ∧ inDoorbells 0x7F1000001000 = true ∧ (withFld s STR_LINK_STATUS_STATE 5).dev.straitUp = false ∧ s.ready) ∧
    (let s := strReq ⟨6, 0x100, 8, some 5, none, none⟩
     (s.dev.str.reqs.filter (·.tag == 6)).length = 1 ∧ (s.dev.op? 5).any (·.phase = .running) = true) ∧
    (let s := strReq ⟨6, 0x100, 8, none, some 2, none⟩
     (s.dev.cores.cores.find? (·.id == 2)).any (fun k => k.task.any (fun x => x.op = 5)) = true) := by decide +kernel

theorem witness_StraitServesTheHost_2 :
    (let s := dmaState 8 0
     s.dev.rd (STR_DMA_PTR_EN 3) = 1 ∧ s.dev.rd (STR_DMA_PTR_STATE 3) = 1 ∧ s.dev.rd (STR_DMA_PTR_HEAD 3) = 17 ∧ s.dev.rd (STR_DMA_PTR_TAIL 3) = 18 ∧ s.dev.rd (STR_DMA_RING_ADDR 3) * 4096 + 17 % 2 ^ 4 * 32 = 2 ^ 21 + 32 ∧
     s.dev.poisonIn (2 ^ 21 + 32) 32 = false ∧ s.dev.natAt (2 ^ 21 + 32) 8 = 2 ^ 22 ∧ s.dev.natAt (2 ^ 21 + 40) 8 = 2 ^ 22 + 100 ∧ s.dev.natAt (2 ^ 21 + 48) 4 = 8 ∧ s.dev.natAt (2 ^ 21 + 52) 2 = 0 ∧
     inAlloc (2 ^ 22) 8 = true ∧ inAlloc (2 ^ 22 + 100) 8 = true ∧ s.dev.str.dmaDead = false ∧ s.dev.rd STR_CTRL_HOLDOFF = 0) ∧
    (let s := dmaState 0 9
     s.dev.natAt (2 ^ 21 + 48) 4 = 0 ∧ s.dev.context? 9 = none ∧ s.dev.natAt (2 ^ 21 + 52) 2 = 9 ∧ inMemory 0x5F00000000 8 = false ∧ s.dev.rd (STR_DMA_PTR_EN 2) = 0) := by decide +kernel

theorem witness_NarrowsDiscoveryClocksAndC1 :
    (let s := nrwState 3 0xFFF { credits := [1, 2, 3, 4], retry := [5], nakSeq := 9, nakRun := 7 }
     s.runs ∧ s.dev.rd (NRW_LINK_STATE 3) = 2 ∧ s.dev.rd (NRW_LINK_MODULES 3) = 0xFFF ∧ nrwModules 3 = 12 ∧ (s.dev.link 13).nakRun = 7 ∧ s.dev.ras.lostDies = []) ∧
    (let s := nrwState 8 2 {}
     s.dev.rd (NRW_LINK_MODULES 8) = 2 ^ 1 ∧ nrwModules 8 = 2) ∧
    (let s := withFld (withFld (nrwState 0 1 {}) NRW_DISC_STATUS_LEVEL 2) NRW_CTRL_IDLE_PD 1
     2 ≤ s.dev.rd NRW_DISC_STATUS_LEVEL ∧ s.dev.rd NRW_CTRL_IDLE_PD = 1 ∧ (s.dev.link 10).retry = [] ∧ s.dev.rd NFP_DOM_STATUS_STATE ≠ 4 ∧ s.dev.nrw.idle = [] ∧ nrwTypeOk 0x40 = false) ∧
    (let hdr : Word := BitVec.ofNat 64 (2 ^ 60 + 7 * 2 ^ 48)
     fieldOf hdr 63 60 = 1 ∧ fieldOf hdr 59 48 = 7 ∧ fieldOf hdr 21 18 ≠ 15) ∧
    (let s := withFld upState GLB_STATUS_STEP 1
     s.dev.rd GLB_STATUS_STEP = 1 ∧ s.dev.boot.released = none) := by decide +kernel

theorem witness_NarrowsDiscoveryClocksAndC1_2 :
    (let s := discState 1 {}
     s.runs ∧ s.dev.rd NRW_DISC_STATUS_STATE = 1 ∧ s.dev.nrw.attempt < 2 ∧ getKey s.dev.nrw.ids 4 = none) ∧
    (let s := discState 2 { attempt := 2, ids := (List.range 6).map fun i => (i, dieId i) }
     s.dev.rd NRW_DISC_STATUS_STATE = 2 ∧ s.dev.nrw.attempt = 2 ∧ s.dev.nrw.ids = [(0, dieId 0), (1, dieId 1), (2, dieId 2), (3, dieId 3), (4, dieId 4), (5, dieId 5)] ∧ s.dev.nrw.configured = false ∧
     [dieId 0, dieId 1, dieId 2, dieId 3, dieId 4, dieId 5].all (fun x => (dieId 0).feat ≤ x.feat ∧ x.minpair ≤ (dieId 5).minpair ∧ x.feat < 256 ∧ x.minpair < 256) = true ∧ (dieId 5).minpair ≤ (dieId 0).feat) ∧
    (let s := discState 2 { configured := true, confirms := [0, 1, 2, 3, 4], ids := [(5, dieId 5)] }
     5 ∉ s.dev.nrw.confirms ∧ s.dev.nrw.confirms.length = 5 ∧ (getKey s.dev.nrw.ids 5).isSome = true ∧ s.dev.rd GLB_STATUS_KIND ≠ 2) ∧
    (let s := withFld upState NRW_CLK_STATUS_STANDBY_OK 1
     s.dev.rd NRW_CLK_STATUS_STANDBY_OK = 1 ∧ upState.dev.rd NRW_CLK_STATUS_STANDBY_OK = 0 ∧ (withFld upState NRW_CLK_STATUS_REF_OK 1).dev.rd NRW_CLK_STATUS_REF_OK = 1) := by decide +kernel

theorem witness_NarrowsDiscoveryClocksAndC1_3 :
    (let s := withFld upState (NRW_DIE_STATE 5) 2
     s.ready ∧ s.dev.nrw.resetDie = none ∧ s.dev.rd CTU_STATUS_ACTIVE = 0 ∧ s.dev.rd NRW_CLK_STATUS_MASTER = 0 ∧ s.dev.rd (NRW_DIE_STATE 5) = 2 ∧ s.dev.fe.ops = [] ∧ s.dev.fe.queues = [] ∧ s.dev.twState = 0) ∧
    (let s := withFld upState (NRW_DIE_STATE 5) 3
     s.dev.rd (NRW_DIE_STATE 5) = 3 ∧ s.dev.coh.lines = [] ∧ s.dev.coh.dups = [] ∧ s.dev.coh.waiting = [] ∧ s.dev.coh.txns = []) ∧
    (withFld upState (NRW_DIE_STATE 5) 4).dev.rd (NRW_DIE_STATE 5) = 4 ∧
    (let s := withFld upState (NRW_DIE_STATE 5) 5
     s.dev.rd (NRW_DIE_STATE 5) = 5 ∧ s.dev.rd (NRW_DIE_KIND 5) = 0 ∧ s.dev.rd (NRW_DIE_REV 5) = 0 ∧ s.dev.rd NRW_DISC_STATUS_LEVEL = 0) := by decide +kernel

theorem witness_TwinRecordsAndReplies :
    (let s := twinState 1 3 {}
     s.runs ∧ s.dev.rd TWN_STATUS_ROLE = 1 ∧ s.dev.twState = 3 ∧ s.dev.twn.records = [] ∧ s.dev.twn.signals = [] ∧ s.dev.tier.waiters = [] ∧ s.dev.ctu.tierWait = [] ∧ s.dev.tier.copies = [] ∧ s.dev.fence? 4 = none ∧
     s.dev.nfp.reqs = [] ∧ s.dev.str.reqs = [] ∧ s.dev.ctu.faults = []) ∧
    (let s := twinState 1 4 { records := [.again 3] }
     s.dev.twState = 4 ∧ s.dev.twn.signals = []) ∧
    (twinState 1 2 {}).dev.twState = 2 ∧
    (let s := twinState 0 3 { tseq := 6, heldTally := some 5 }
     s.dev.rd TWN_STATUS_ROLE = 0 ∧ s.dev.twState = 3 ∧ s.dev.twn.heldTally ≠ none ∧ s.dev.twn.tseq = 6 ∧ s.dev.rd TWN_STATUS_LAG = 0) ∧
    (let s := twinState 1 3 { ownDig := some (6, 9), unposted := [(3, 0, true)], outcomes := [(4, .ok, 0, 0)], dispatched := [(7, 5)] }
     s.dev.twn.ownDig = some (6, 9) ∧ s.dev.twn.unposted = [(3, 0, true)] ∧ getKey s.dev.twn.dispatched 7 = some 5 ∧ getKey s.dev.twn.dispatched 8 = none) ∧
    (let s := twinState 1 3 { stage := [⟨4, [(2 ^ 21, 3, 7, false)], false, false⟩] }
     (s.dev.twn.stage.map (·.writes.length)).sum < 2 ^ 24 ∧ s.dev.twn.stage = [⟨4, [(2 ^ 21, 3, 7, false)], false, false⟩]) ∧
    (twinState 0 1 {}).dev.twState = 1 := by decide +kernel

theorem witness_TwinRecordsAndReplies_2 :
    (let s := twinQueue
     let tag := s.dev.rd (FE_Q_STATE_TAG 1)
     let e := (opOf [(0, 8)]).entry
     let d0 := { s.dev with out := s.dev.out ++ [Msg.twin 1 3 0], regs := (s.dev.wr TWN_STATUS_LAG 1).regs, fe := { s.dev.fe with gdn := 0 } }
     let a := d0.twinAdmit 1 tag e none none
     (s.dev.queue? 1).isSome = true ∧ s.dev.fe.runs = [] ∧ s.dev.twState = 3 ∧ d0.waitState tag e = .satisfied ∧ (match a.1 with | .go o _ _ _ _ => !o.streamed && o.id == s.dev.fe.nextOp | _ => false) = true ∧
     a.2.twn = s.dev.twn ∧ a.2.rd (FE_Q_COUNT_HEAD 1) = s.dev.rd (FE_Q_COUNT_HEAD 1)) ∧
    (let s := twinQueue
     let e := (opOf [(0, 3)]).entry
     let d0 := { s.dev with out := s.dev.out ++ [Msg.twin 1 3 0], regs := (s.dev.wr TWN_STATUS_LAG 1).regs, fe := { s.dev.fe with gdn := 0 } }
     (match (d0.twinAdmit 1 (s.dev.rd (FE_Q_STATE_TAG 1)) e none none).1 with | .refuse _ _ => true | _ => false) = true) := by decide +kernel

theorem witness_TwinStatesAndCommands :
    (let s := twinState 0 0 {}
     s.ready ∧ s.dev.rd TWN_CTRL_EN = 0 ∧ s.dev.twState = 0 ∧ s.dev.lnUp 9 = false ∧ s.dev.twn.sendStopped = false) ∧
    (let s := withFld (withFld (twinState 1 3 {}) TWN_CTRL_EN 1) TWN_LINK_STATUS_STATE 2
     s.dev.rd TWN_CTRL_EN = 1 ∧ 1 ≤ s.dev.rd TWN_LINK_STATUS_STATE ∧ s.dev.rd TWN_LINK_STATUS_STATE ≤ 4 ∧ s.dev.rd TWN_STATUS_ROLE = 1 ∧ s.dev.twState = 3 ∧ s.dev.twn.records = []) ∧
    (let s := withFld (twinState 0 4 { heldTally := some 5 }) TWN_CTRL_VERDICT_MS 5
     s.ready ∧ s.dev.twState = 4 ∧ s.dev.rd TWN_STATUS_ROLE = 0 ∧ s.dev.rd TWN_CTRL_VERDICT_MS ≠ 0 ∧ s.dev.fe.ops = [] ∧ s.dev.fe.runs = [] ∧ s.dev.nfp.colls = []) ∧
    (twinState 0 5 {}).dev.twState = 5 ∧ (twinState 1 8 {}).dev.twState = 8 ∧ (twinState 1 2 {}).dev.twState = 2 ∧ (twinState 0 1 {}).dev.twState = 1 ∧
    (let s := opState [(0, 3)] fun d => { d with fe := { d.fe with ops := [{ opOf [(0, 3)] with phase := .running }] } }
     s.ready ∧ s.dev.twState ≠ 8 ∧ s.dev.fe.ops.length = 1 ∧ s.dev.nfp.colls = [] ∧ s.dev.isWindward = false) ∧
    (let s := withFld (withFld twinQueue TWN_STATUS_STATE 6) GLB_STATUS_READY 1
     s.ready ∧ s.dev.twState = 6 ∧ s.dev.rd TWN_STATUS_ROLE = 1 ∧ (s.dev.queue? (2 ^ 224 / 2 ^ 224 % 2 ^ 16)).isSome = true ∧ s.dev.fe.ops = []) := by decide +kernel

theorem witness_AgentsRetirementsAndTests :
    (let s := upState
     s.ready ∧ s.dev.rd COH_AGENT_CMD_GO = 0 ∧ isCluster 3 = true ∧ isCluster 0x20 = false ∧ s.dev.agentState 3 = 0 ∧ (withFld s (COH_AGENT_STATE 3) 2).dev.agentState 3 = 2 ∧ agentClass 0x20 = some 0 ∧ s.dev.inService 0x20 = true ∧
     agentClass 0x50 = some 1 ∧ agentClass 0xFF = none ∧ (withFld s (COH_AGENT_STATE 0x20) 4).dev.inService 0x20 = false ∧ cacheAgent 0 = some 0 ∧ cacheAgent 66 = none) ∧
    (let s := up fun d => { d with coh := { d.coh with dups := [⟨1, 7, true⟩], txns := [⟨7, .rdOnce 3, 0, [0, 1]⟩] } }
     s.ready ∧ s.dev.agentState 0 = 0 ∧ (s.dev.coh.dups.filter fun x => cacheAgent x.cache == some 0).length = 1) ∧
    (let s := withFld (up fun d => { d with cores := { d.cores with testing := [(1, 7)] }, ras := { d.ras with test := some (3, 4) } }) (COH_AGENT_STATE 4) 1
     s.dev.agentState 4 = 1 ∧ s.dev.coh.lines = [] ∧ s.dev.cores.cores = [] ∧ (1, 7) ∈ s.dev.cores.testing ∧ s.dev.spareUnused 1 = false ∧ 28 ∉ s.dev.retiredCores 4 64 1 ∧ (0, 0) ∉ s.dev.cores.testing ∧ s.dev.agentState 0 ≠ 3) ∧
    (let s := upState
     s.dev.retiredCores 5 8 0 = [] ∧ s.dev.ras.unrecorded = [] ∧ s.dev.fe.queues = [] ∧ s.dev.rd GLB_STATUS_READY = 1 ∧ numbering 4 [3] 3 = some 4) ∧
    (withFld upState TIER_SHELF_STATUS_READY 1).dev.rd TIER_SHELF_STATUS_READY = 1 ∧ upState.dev.rd TIER_SHELF_STATUS_READY = 0 := by decide +kernel

theorem witness_AgentsRetirementsAndTests_2 :
    (let s := upState
     s.ready ∧ s.dev.svcState = 0 ∧ s.dev.twState = 0 ∧ s.dev.ras.test = none ∧ s.dev.pool.cmd = none ∧ s.dev.pts 0 0 = 0) ∧
    (let s := withFld (withFld upState RAS_SUMMARY_SVC_STATE 1) FE_FUNC_STATUS_STATE 0xAAA
     s.dev.svcState = 1 ∧ (List.range 6).all (fun f => s.dev.funcState f == 2) = true ∧ s.dev.tiles.slot = []) ∧
    (let s := tileState 1 2
     s.dev.pts 1 0 = 1 ∧ s.dev.pts 1 1 = 2 ∧ s.dev.tilesIn 1 2 ≠ [] ∧ s.dev.tilesIn 0 2 = []) ∧
    (let s := (tileState 3 2)
     s.dev.pts 1 0 = 3) ∧
    (let s := up fun d => { ((((d.wr (REEF_PTS_STATE 0 0) 2).wr (REEF_PTS_STATE 1 0) 2).wr (REEF_PTS_STATE 2 0) 2).wr (REEF_PTS_STATE 3 0) 2).wr RAS_SUMMARY_SVC_STATE 2 with ras := { d.ras with test := none } }
     s.dev.svcState = 2 ∧ s.dev.tilesIn 0 2 ≠ [] ∧ s.dev.tilesIn 1 2 ≠ [] ∧ s.dev.tilesIn 2 2 ≠ [] ∧ s.dev.tilesIn 3 2 ≠ []) ∧
    (let s := up fun d => { d with ras := { d.ras with test := some (4, 0) } }
     s.dev.ras.test = some (4, 0) ∧ s.dev.svcState ≠ 3) := by decide +kernel

theorem witness_TidemarkRecordsSpillAndDump :
    (let d := upState.dev
     d.rd (TDM_SNAPSEL_IDX 12 0) = 0 ∧ (regMapAt (14 * 2 ^ 24 + d.rd (TDM_SNAPSEL_OFFSET 12 0))).isSome = true ∧ d.rd (NRW_DIE_STATE 5) = 0 ∧ 5 ∈ slotDies (14 * 2 ^ 24) ∧ d.rd (TDM_SNAPSEL_BLOCK 12 0) = 14 ∧ d.discStopped = false ∧
     slotDies (3 * 2 ^ 24 + 0x1000) = [0] ∧ (withFld upState (NRW_DIE_STATE 0) 6).dev.rd (NRW_DIE_STATE 0) = 6 ∧ (regMapAt 0x0FFFF8).isNone = true) ∧
    (let s := up fun d => { d with tdm := { d.tdm with reports := [⟨3, 1, 1, 220, 5, 0, 0⟩] } }
     s.dev.live = true ∧ s.ready ∧ s.dev.tdm.buffer.length < 2048 ∧ (s.dev.snapshot 3 220).length = 3 ∧ s.dev.mute = false ∧ s.dev.straitUp = true) ∧
    (let r : TRec := ⟨7, 3, 1, 1, 0, 220, 5, 0, 0, 0, [], false⟩
     let p : TReport := ⟨3, 1, 1, 220, 5, 0, 0⟩
     let s := up fun d => { d with tdm := { d.tdm with reports := [p], buffer := [r], spill := [(0, r)], last := [(3, 7)] } }
     s.dev.tdm.reports = [p] ∧ getKey s.dev.tdm.last p.cls = some r.seq ∧ r.repeats < 65535 ∧ (s.dev.tdm.spill.map (·.1)).Nodup) ∧
    (let r : TRec := ⟨7, 3, 1, 1, 0, 220, 5, 0, 0, 0, [], false⟩
     let s := up fun d => { d with tdm := { d.tdm with reports := [⟨3, 1, 1, 220, 5, 0, 0⟩], buffer := List.replicate 2048 r } }
     s.dev.tdm.buffer.length = 2048 ∧ r.sev < 3) ∧
    (let r : TRec := ⟨7, 3, 1, 1, 0, 220, 5, 0, 0, 0, [], false⟩
     let s := up fun d => { d with tdm := { d.tdm with buffer := [r], spill := [(0, r), (2, r)], spillReady := true } }
     s.dev.tdm.spill.Pairwise (fun x y => x.1 < y.1) ∧ (∀ y ∈ s.dev.tdm.spill, y.1 ≠ 1) ∧ ∃ y ∈ s.dev.tdm.spill, y.1 = 0) ∧
    (let s := withFld (up fun d => { d with tdm := { d.tdm with dump := some ⟨false, 7, 0, 1, 2, 255, false, 0, none⟩ } }) (NRW_DIE_STATE 5) 2
     s.dev.live = true ∧ s.dev.fwWorking = [8, 9, 10, 11] ∧ ¬(4 ∈ s.dev.ras.lostDies)) ∧
    upState.runs ∧ upState.dev.rd SEC_LC_STATE_STATE = 3 ∧ (withFld upState SEC_LC_STATE_STATE 0).dev.rd SEC_LC_STATE_STATE = 0 ∧
    (withFld upState TDM_DUMP_VALID 1).dev.rd TDM_DUMP_VALID = 1 ∧ upState.dev.rd TDM_DUMP_VALID = 0 := by decide +kernel

theorem witness_TidemarkRecordsSpillAndDump_2 :
    ∃ (d : Dev) (r : TRec), d.tdm.spillReady = true ∧ d.tdm.buffer = [r] ∧ r.freed = false ∧ d.tdm.spill.Pairwise (fun x y => x.1 < y.1) ∧ (∀ j, j < 524288 → ∃ y ∈ d.tdm.spill, y.1 = j) ∧
      (d.tdm.spill.map fun y => y.2.seq).Nodup := by
  refine ⟨{ upState.dev with tdm := { spillReady := true, buffer := [⟨600000, 3, 1, 1, 0, 220, 5, 0, 0, 0, [], false⟩], spill := (List.range 524288).map fun i => (i, ⟨i + 1, 3, 1, 1, 0, 220, 5, 0, 0, 0, [], false⟩) } }, _, rfl, rfl, rfl, ?_, ?_, ?_⟩
  · simp only [List.pairwise_map]; exact List.pairwise_lt_range
  · intro j hj; simp only [List.mem_map, List.mem_range]; exact ⟨_, ⟨j, hj, rfl⟩, rfl⟩
  · simp only [List.map_map]; refine List.pairwise_map.mpr (List.pairwise_lt_range.imp ?_); intro a b h e; simp at e; omega

theorem witness_SecurityCommandsAndTestAccess :
    (let s := withFld upState SEC_CMD_ADDR_ADDR (2 ^ 22)
     s.ready ∧ s.dev.sec.cmd = none ∧ s.dev.sec.busyWrite = false ∧ s.dev.twState = 0 ∧ s.dev.rd SEC_LC_STATE_STATE = 3 ∧ (s.dev.secBuf 2048).isSome = true ∧ (s.dev.secBuf 32).isSome = true ∧ (s.dev.blobAt).isSome = true ∧
     s.dev.nv.patch = none ∧ s.dev.sec.loaded = none ∧ s.dev.rd SEC_LC_STATE_ROLLBACK < 5 ∧ s.dev.rd SEC_ENTROPY_OK_C0 = 0) ∧
    (let s := withFld (withFld (withFld upState RAS_SUMMARY_SVC_STATE 2) SEC_ENTROPY_OK_C1 1) SEC_LC_STATE_STATE 2
     s.ready ∧ s.dev.svcState = 2 ∧ s.dev.rd FE_STATUS_LIVE_CTX = 0 ∧ s.dev.rd SEC_ENTROPY_OK_C1 = 1 ∧ s.dev.rd SEC_LC_STATE_STATE = 2) ∧
    (let s := withFld (withFld (withFld upState SEC_LC_STATE_STATE 2) SEC_CMD_ADDR_ADDR (2 ^ 22)) RAS_SUMMARY_SVC_STATE 2
     s.ready ∧ (s.dev.secBuf 3120).any (fun b => !s.dev.certOk b) = true ∧ (s.dev.secBuf 1312).isSome = true ∧ (s.dev.secBuf 1312).any (fun b => !(fieldAt b 24 1 == 4)) = true) ∧
    (withFld upState SEC_LC_STATE_STATE 1).ready ∧ (withFld upState TWN_STATUS_STATE 3).dev.twState = 3 ∧ (withFld upState SEC_LC_STATE_STATE 0).ready ∧
    (let s := withFld (up fun d => { d with sec := { d.sec with cmd := some (2, 31) } }) SEC_CMD_ADDR_ADDR (2 ^ 22)
     s.runs ∧ s.dev.sec.cmd = some (2, 31) ∧ (s.dev.secBuf 2048).isSome = true ∧ upState.dev.secBuf 2048 = none) ∧
    (let s := withFld (up fun d => { d with sec := { d.sec with cmd := some (4, 0) } }) SEC_CMD_ADDR_ADDR (2 ^ 22)
     s.runs ∧ s.dev.blobAt.any (fun b => s.dev.patchReason s.otp b != 0) = true) ∧
    (let s := up fun d => { d with sec := { d.sec with cmd := some (1, 0xA505) } }
     s.runs ∧ 0xA505 % 8 = 5) := by decide +kernel

theorem witness_SecurityCommandsAndTestAccess_2 :
    (Config.falconVerifies (Config.romKey 0) (digestBytes (rmaToken.take 32)) (rmaToken.drop 32) = true → (withFld upState SEC_CMD_ADDR_ADDR (2 ^ 22)).dev.tokenOk rmaToken = true) ∧
    (Config.romId = 5 → Config.falconVerifies (Config.romKey 2) (digestBytes (patchBlob.take (patchBlob.length - 1280))) (patchBlob.drop (patchBlob.length - 1280)) = true → upState.dev.patchReason upState.otp patchBlob = 0) ∧
    (Config.falconVerifies (Config.romKey 1) (digestBytes (idCert.take 1840)) (idCert.drop 1840) = true → certState.dev.certOk idCert = true) := by
  refine ⟨fun h => ?_, fun h h' => ?_, fun h => ?_⟩
  · unfold Dev.tokenOk; rw [h]; decide +kernel
  · unfold Dev.patchReason; rw [h, h']; decide +kernel
  · have e : (idCert.drop 40).take 1793 = (List.range 1793).map (Config.keyByte 0) := by
      unfold idCert
      rw [List.drop_append_of_le_length (by decide +kernel), List.drop_of_length_le (by decide +kernel), List.nil_append, List.take_append_of_le_length (by simp), List.take_of_length_le (by simp)]
    unfold Dev.certOk; rw [h, e]
    have k : certState.dev.nv.idKey = some 0 := rfl
    rw [k]
    simp only [Option.any_some, beq_self_eq_true, Bool.and_true]
    decide +kernel

theorem witness_PowerLimitsAndTheMeter :
    (let s := withFld (up fun d => { d with pw := { d.pw with rails := List.range 13, trips := [(.accDie 2, 0), (.current, 0)], means := List.replicate 14 3500, wants := [(.inlet, 10)], emergencies := [.outlet] } }) GLB_TIME_TIME 200000
     s.dev.live = true ∧ (∀ w ∈ s.dev.pw.wants, w.2 ≤ 12) ∧ LimitKind.ok (.accDie 2) = true ∧ (LimitKind.accDie 2).tempIx = some 2 ∧ (∀ z ∈ s.dev.pw.trips, z.1 = .accDie 2 → z = (.accDie 2, 0)) ∧ s.dev.now = 200000 ∧
     (∀ z ∈ s.dev.pw.trips, z.1 = .current → z = (.current, 0)) ∧ (∀ y ∈ s.dev.pw.trips, y.1 = .hbmStack 3 → s.dev.now < y.2) ∧ LimitKind.ok (.accDie 4) = false ∧ 2 + 4 ∈ s.dev.pw.rails ∧ 2 ∉ s.dev.ras.lostDies ∧ s.dev.tdm.dump = none ∧ s.dev.rd TDM_DUMP_VALID = 0) ∧
    (let s := State.reset
     s.dev.pw.on = false ∧ s.dev.pw.tripped = false ∧ s.meter.powered = false ∧ s.meter.log.length ≤ 0) ∧
    (let s : State := { dev := { pw := { tripped := true } } }
     s.dev.pw.on = false ∧ s.dev.pw.modEnLowSince = none) ∧
    (let s := withFld upState PWR_THROTTLE_DIV_WANT 10
     s.dev.pw.on = true ∧ s.dev.live = true ∧ s.dev.rd NFP_DOM_STATUS_STATE = 0 ∧ s.dev.rd PWR_THROTTLE_EMERGENCY = 0 ∧ s.dev.rd PWR_THROTTLE_DIV_NOW = 8 ∧ s.meter.powered = true) ∧
    (let s := withFld (domState 4 1) PWR_THROTTLE_EMERGENCY 1
     s.dev.live = true ∧ s.dev.rd NFP_DOM_STATUS_STATE = 4 ∧ s.dev.rd PWR_THROTTLE_DIV_NOW ≠ 12 ∧ (domState 4 1).dev.rd PWR_THROTTLE_EMERGENCY = 0) := by decide +kernel

theorem witness_ResetsAndStartUp :
    (let s := upState
     s.runs ∧ s.dev.live = true ∧ s.dev.lcState = 3 ∧ s.dev.rd GLB_STATUS_READY = 1 ∧ (s.dev.regs.map (·.1)).Nodup ∧ s.dev.pw.on = true ∧ s.dev.pw.pwrGood = true) ∧
    (let s := withFld upState GLB_STATUS_READY 0
     s.runs ∧ s.dev.rd GLB_STATUS_READY = 0 ∧ s.dev.rd GLB_STATUS_KIND ≠ 2 ∧ (withFld (withFld s GLB_STATUS_KIND 2) GLB_STATUS_STEP 9).dev.rd GLB_STATUS_KIND = 2) ∧
    (withFld upState SEC_LC_STATE_STATE 5).runs ∧ State.reset.dev.pw.on = false ∧
    (let s := up fun d => { d with boot := { d.boot with discovered := true }, nv := { d.nv with record := [rasEntry 1 0 (tileCoord 1 0) 0 0] } }
     s.dev.live = true ∧ s.dev.boot.shelfInit = false ∧ s.dev.rd GLB_STATUS_STEP ≠ 9 ∧ ¬(s.dev.nv.copies.all (!·) = true) ∧ tileCoord 1 0 ∈ s.dev.recorded 1) ∧
    (let s := up fun d => { d with boot := { d.boot with discovered := true, shelfInit := true }, nv := { d.nv with record := [rasEntry 3 0 7 0 0] } }
     s.dev.boot.trained = false ∧ (∀ p ∈ s.dev.recorded 3, p < 512) ∧ ((s.dev.pcsIn [5] ++ s.dev.recorded 3 ++ [9].filter (· < 512)).eraseDups).length = 2 ∧ (((List.range 11).filter (· < 512)).eraseDups).length = 11) ∧
    (let s := up fun d => { d with pool := { d.pool with hardRepairs := [(7, 5)] }, nv := { d.nv with record := [rasEntry 2 0 7 5 0] } }
     (s.dev.pool.hardRepairs.find? fun h => h.1 / 32 == 7 / 32) = some (7, 5) ∧ (rasEntry 2 0 7 5 0).toNat % 2 ^ 16 = 2 ∧ (rasEntry 2 0 7 5 0).toNat / 2 ^ 16 % 2 ^ 16 = 7 ∧ (rasEntry 2 0 7 5 0).toNat / 2 ^ 32 % 2 ^ 32 = 5) := by decide +kernel

theorem witness_ResetsAndStartUp_2 :
    (let s := up fun d => { d with boot := { d.boot with trained := true } }
     s.dev.live = true ∧ s.dev.boot.filled = false ∧ s.dev.pool.hardRepairs = [] ∧ s.dev.rd GLB_STATUS_STEP ≠ 9) ∧
    (let s := up fun d => { d with boot := { d.boot with shelfInit := true } }
     s.dev.boot.dirLoaded = false ∧ s.dev.rd SEC_LC_STATE_STATE = 3 ∧ s.dev.nv.erasing = false) ∧
    (let s := up fun d => { d with boot := { d.boot with filled := true, dirLoaded := true } }
     s.dev.tiles.testing = [] ∧ s.dev.cores.testing = [] ∧ s.dev.rd GLB_STATUS_STEP < 6 ∧ s.otp.intent = none ∧ s.dev.entropyOk = false ∧ agentClass 0 = some 0) ∧
    (let s := withFld upState GLB_STATUS_STEP 6
     s.dev.rd GLB_STATUS_STEP = 6 ∧ s.dev.mute = false ∧ s.dev.straitUp = true ∧ s.dev.rd STR_CTRL_HOLDOFF = 0 ∧ (withFld s SEC_LC_STATE_STATE 0).dev.rd SEC_LC_STATE_STATE = 0 ∧ upState.dev.rd GLB_STATUS_STEP ≠ 6) := by decide +kernel

theorem witness_CoresTasksAndRegisterWrites :
    (let o := opOf [(0, 6), (32, 0x4000), (40, 7), (56, 2)]
     let s := withFld (opState [(0, 6), (32, 0x4000), (40, 7), (56, 2)] id) (RAS_CORE_MAP_MAP 0 0) 0x8786858483828180
     s.opReady o 6 ∧ s.dev.physCore 0 2 = some 2 ∧ (cacheAgent 2).any (fun a => s.dev.agentState a == 0) = true ∧ s.dev.coreTask? 2 = none ∧ s.dev.isWindward = false ∧ entF o.entry 56 1 = 2 ∧ upState.dev.physCore 0 2 = none) ∧
    (let s := withFld (opState [(0, 6), (56, 33)] id) (NRW_DIE_STATE 5) 4
     s.dev.engineAway 18 = true ∧ entF (opOf [(0, 6), (56, 33)]).entry 56 1 = 33 ∧ entF (opOf [(0, 6), (56, 255)]).entry 56 1 = 0xFF) ∧
    (let s := coreState none [(17, 0x100)]
     s.runs ∧ (s.dev.busyCore 2).isSome = true ∧ upState.dev.busyCore 2 = none ∧ ((s.dev.busyCore 2).map fun x => ((x.1.xr 17).toNat, x.1.held, x.2.op)) = some (0x100, none, 5)) ∧
    ((coreState none [(17, 0x101)]).dev.busyCore 2).isSome = true ∧ ((coreState (some 3) [(17, 5)]).dev.busyCore 2).any (fun x => x.1.held == some 3) = true := by decide +kernel

theorem witness_CoresTasksAndRegisterWrites_2 :
    (let s := coreState none [(5, 64)]
     s.dev.xlate 1 64 .read = .pa (2 ^ 21 + 64) ∧ gave (s.dev.corePas 1 .read (vaRange 64 8)) ((List.range 8).map (2 ^ 21 + 64 + ·)) = true ∧ s.dev.mayAsk 2 32769 = true ∧ s.dev.cline? 2 32769 = none ∧ (s.dev.cline? 2 32768).isSome = true ∧
     gave (s.dev.corePas 1 .read (vaRange 0 8)) ((List.range 8).map (2 ^ 21 + ·)) = true ∧ gave (s.dev.corePas 1 .write (vaRange 0 64)) ((List.range 64).map (64 * 32768 + ·)) = true ∧ (s.dev.cline? 2 32768).any (fun x => x.st != .s && !x.poisoned) = true ∧ inPool (2 ^ 21 + 7) = true) ∧
    (let s := coreState none [(17, 0x100), (10, 4096), (11, 9)]
     refused (s.dev.vgather 1 8192 128) .rights = false ∧ s.dev.fence? 7 = none) ∧
    regMapAt 8 ≠ none ∧ regMapAt 0x0FFFF8 = none ∧ openEarly 0xD000018 = false ∧ rangeOk 0xD000018 0 = false ∧ upState.ready ∧ (withFld upState GLB_STATUS_READY 0).dev.rd GLB_STATUS_READY = 0 ∧ (withFld upState SEC_LC_STATE_STATE 5).dev.lcState = 5 ∧
    (regMapAt 0xD000018).any (fun m => m.base == 0xD000018) = true := by decide +kernel

end Sys2Proof.Tests
end

section
/-! PROOFS. The module as a whole: a step and its queue, the state after reset, the clocks of an idle step, and the answer of every command. -/

namespace Sys2Proof.Machine

/-! ### The queue -/

/-- Settles O1: the step's own equation on a queue that is not empty. -/
theorem stepTakesFrontCommand : Obligations.StepTakesFrontCommand := by
  unfold Obligations.StepTakesFrontCommand
  intro c rest s
  rfl

/-! ### Reset -/

/-- Settles O2: the reset state holds no register value of its own, so each reads the reset value of its map. -/
theorem resetLeavesSpecValues : Obligations.ResetLeavesSpecValues := by
  unfold Obligations.ResetLeavesSpecValues
  refine ⟨rfl, by decide, rfl, by decide, by decide, by decide, by decide, by decide, by decide, by decide, fun r => ?_, fun a => ?_⟩
  · simp [Seq.xr, State.reset, sget]
  · rfl

/-! ### The clocks of an idle step (R7, R8, R28, R207) -/

theorem step_of_empty (s : State) (h : s.pending = []) : step s = idle s := by simp [step, h]

/-- The part of a SLOW cycle that is not in registers, for a device whose counters have been written: the domain clock, the cores in a task, and the root cycles left over. -/
def Dev.tickEngines (e : Dev) (acc div : Nat) : Dev :=
  { e with
    cores := { e.cores with cores := updWhere (·.task.isSome) (fun (k : Core) => { k with cycle := k.cycle + 21 }) e.cores.cores }
    pw := { e.pw with rootAcc := acc % div }
    nfp := { e.nfp with dom := if e.rd NFP_DOM_STATUS_STATE = 0 then e.nfp.dom else { e.nfp.dom with clock := (e.nfp.dom.clock + 1) % 2 ^ 64 } } }

theorem Dev.slowCycle_eq (d : Dev) :
    d.slowCycle = ((d.wr GLB_TIME_TIME (d.now + 1)).wr FE_TICK_TICK (d.tick + (d.pw.rootAcc + 84) / max 1 (d.rd PWR_THROTTLE_DIV_NOW))).tickEngines
      (d.pw.rootAcc + 84) (max 1 (d.rd PWR_THROTTLE_DIV_NOW)) := rfl

theorem Dev.tickEngines_rd (e : Dev) (acc div : Nat) (f : Fld) : (e.tickEngines acc div).rd f = e.rd f := rfl
theorem Dev.tickEngines_word (e : Dev) (acc div off : Nat) : (e.tickEngines acc div).word off = e.word off := rfl

theorem Dev.tickEngines_clock (e : Dev) (acc div : Nat) :
    (e.tickEngines acc div).nfp.dom.clock = if e.rd NFP_DOM_STATUS_STATE = 0 then e.nfp.dom.clock else (e.nfp.dom.clock + 1) % 2 ^ 64 :=
  apply_ite Domain.clock _ _ _

theorem Dev.mem_tickEngines_cores (e : Dev) (acc div : Nat) (k : Core) (hk : k ∈ e.cores.cores) :
    (if k.task.isSome then { k with cycle := k.cycle + 21 } else k) ∈ (e.tickEngines acc div).cores.cores :=
  List.mem_map_of_mem (f := fun k : Core => if k.task.isSome then { k with cycle := k.cycle + 21 } else k) hk

theorem Dev.tickEngines_frame (d : Dev) (r : Sparse Word) (acc div : Nat) :
    ({ d with regs := r } : Dev).tickEngines acc div = { d with
      regs := r
      cores := (({ d with regs := r } : Dev).tickEngines acc div).cores
      pw := (({ d with regs := r } : Dev).tickEngines acc div).pw
      nfp := (({ d with regs := r } : Dev).tickEngines acc div).nfp } := rfl

theorem Dev.wr_wr_frame (d : Dev) (f g : Fld) (v w : Nat) : (d.wr f v).wr g w = { d with regs := ((d.wr f v).wr g w).regs } := rfl

theorem Dev.slowCycle_now (d : Dev) : d.slowCycle.now = (d.now + 1) % 2 ^ 64 := by
  rw [Dev.slowCycle_eq, Dev.now, Dev.tickEngines_rd, Dev.rd_wr_ne _ _ _ _ (by decide), Dev.rd_wr_same _ _ _ (by decide) (by decide)]
  rfl

theorem Dev.slowCycle_tick (d : Dev) :
    d.slowCycle.tick = (d.tick + (d.pw.rootAcc + 84) / max 1 (d.rd PWR_THROTTLE_DIV_NOW)) % 2 ^ 64 := by
  rw [Dev.slowCycle_eq, Dev.tick, Dev.tickEngines_rd, Dev.rd_wr_same _ _ _ (by decide) (by decide)]
  rfl

theorem Dev.slowCycle_regsKept (d : Dev) : RegsKept d d.slowCycle [GLB_TIME_TIME.reg, FE_TICK_TICK.reg] := by
  intro off hoff
  simp only [List.mem_cons, List.not_mem_nil, or_false, not_or] at hoff
  obtain ⟨htime, htick⟩ := hoff
  rw [Dev.slowCycle_eq, Dev.tickEngines_word, Dev.word_wr_ne _ _ _ _ htick, Dev.word_wr_ne _ _ _ _ htime]

theorem Dev.slowCycle_clock (d : Dev) :
    d.slowCycle.nfp.dom.clock =
      if d.rd NFP_DOM_STATUS_STATE = 0 then d.nfp.dom.clock else (d.nfp.dom.clock + 1) % 2 ^ 64 := by
  rw [Dev.slowCycle_eq, Dev.tickEngines_clock, Dev.rd_wr_ne _ _ _ _ (by decide), Dev.rd_wr_ne _ _ _ _ (by decide),
    Dev.wr_nfp, Dev.wr_nfp]

theorem Dev.mem_slowCycle_cores (d : Dev) (k : Core) (hk : k ∈ d.cores.cores) :
    (if k.task.isSome then { k with cycle := k.cycle + 21 } else k) ∈ d.slowCycle.cores.cores := by
  rw [Dev.slowCycle_eq]
  apply Dev.mem_tickEngines_cores
  rwa [Dev.wr_cores, Dev.wr_cores]

theorem Dev.slowCycle_frame (d : Dev) :
    d.slowCycle = { d with regs := d.slowCycle.regs, cores := d.slowCycle.cores, pw := d.slowCycle.pw, nfp := d.slowCycle.nfp } := by
  rw [Dev.slowCycle_eq, Dev.wr_wr_frame]
  generalize ((d.wr GLB_TIME_TIME _).wr FE_TICK_TICK _).regs = r
  exact d.tickEngines_frame r _ _

/-- Settles O3: an idle step is one SLOW cycle of a module that has power and clocks, and nothing of any other. -/
theorem emptyQueueTicksClocks : Obligations.EmptyQueueTicksClocks := by
  unfold Obligations.EmptyQueueTicksClocks
  intro s hempty
  rw [step_of_empty s hempty]
  refine ⟨fun ⟨hlive, hgood⟩ => ⟨{ s with dev := s.dev.slowCycle }, by simp [idle, hlive, hgood], rfl, rfl, hempty,
    s.dev.slowCycle_now, s.dev.slowCycle_tick, s.dev.slowCycle_regsKept, s.dev.slowCycle_clock, s.dev.mem_slowCycle_cores, s.dev.slowCycle_frame⟩,
    fun hdead => by simp [idle, hdead]⟩

/-! ### Every command is answered -/

/-- A command answers a next state and leaves the queue as it was. -/
def Answered (o : Out) (s : State) : Prop := ∃ t, o = .next t ∧ t.pending = s.pending

/-- What a command that reaches the fuses may change: the module and its fuses. -/
def FuseShape (s t : State) : Prop := ∃ d o, t = { s with dev := d, otp := o }

theorem fuseShape_dev (s : State) (d : Dev) : FuseShape s { s with dev := d } := ⟨d, s.otp, rfl⟩
theorem fuseShape_refl (s : State) : FuseShape s s := fuseShape_dev s s.dev

theorem FuseShape.answered {s t : State} (h : FuseShape s t) : Answered (.next t) s := by
  obtain ⟨d, o, rfl⟩ := h
  exact ⟨_, rfl, rfl⟩

theorem DevShape.answered {o : Out} {s : State} (h : DevShape o s) : Answered o s := by
  obtain ⟨d, ho, -⟩ := h
  exact ⟨_, ho, rfl⟩

theorem pin_answered (f : Dev → Dev) (s : State) : Answered (pin f s) s := ⟨_, rfl, rfl⟩
theorem meterAct_answered (f : Meter → Meter) (s : State) : Answered (meterAct f s) s := ⟨_, rfl, rfl⟩

/-- A guard in front of an effect on module and fuses. -/
theorem fuseShape_ite (c : Prop) [Decidable c] {s t u : State} (ht : FuseShape s t) (hu : FuseShape s u) :
    FuseShape s (if c then t else u) := by
  split
  · exact ht
  · exact hu

theorem lcFinish_fuseShape (target : Nat) (s : State) (d : Dev) : FuseShape s (lcFinish target { s with dev := d }) := ⟨_, _, rfl⟩

theorem startLc_fuseShape (target confirm : Nat) (s : State) : FuseShape s (startLc target confirm s) := by
  unfold startLc
  refine fuseShape_ite _ (fuseShape_dev s _) ?_
  dsimp only
  split
  · exact fuseShape_dev s _
  · exact fuseShape_dev s _
  · exact ⟨_, _, rfl⟩

theorem lcAdvance_fuseShape (s : State) : FuseShape s (lcAdvance s) := by
  unfold lcAdvance
  refine fuseShape_ite _ (fuseShape_refl s) ?_
  split
  · exact lcFinish_fuseShape _ s _
  · exact fuseShape_ite _ (lcFinish_fuseShape _ s _) (fuseShape_dev s _)
  · exact fuseShape_dev s _

theorem secComplete_fuseShape (s : State) : FuseShape s (secComplete s) := by
  unfold secComplete
  dsimp only
  split
  case h_1 => exact fuseShape_refl s
  case h_2 => exact ⟨_, _, rfl⟩
  case h_3 => split <;> exact fuseShape_dev s _
  case h_4 => split <;> exact fuseShape_dev s _
  case h_5 =>
    split
    · exact fuseShape_dev s _
    · split <;> exact fuseShape_dev s _
  case h_6 => exact fuseShape_dev s _
  case h_7 => exact ⟨_, _, rfl⟩
  case h_8 => exact fuseShape_dev s _
  case h_9 =>
    split
    · exact fuseShape_dev s _
    · exact fuseShape_ite _ (fuseShape_dev s _) (fuseShape_dev s _)

theorem secWrite_fuseShape (v : Word) (s : State) : FuseShape s (secWrite v s) := by
  unfold secWrite
  refine fuseShape_ite _ (fuseShape_dev s _) ?_
  dsimp only
  split
  case h_1 => exact startLc_fuseShape _ _ s
  all_goals exact fuseShape_dev s _

theorem writeRegister_fuseShape (off : Nat) (v : Word) (s : State) : FuseShape s (writeRegister off v s) := by
  unfold writeRegister
  refine fuseShape_ite _ (fuseShape_refl s) ?_
  split
  · exact fuseShape_dev s _
  · exact fuseShape_ite _ (secWrite_fuseShape v s) (fuseShape_dev s _)

theorem registerWrite_answered (addr : Nat) (v : Word) (s : State) : Answered (execRegisterWrite addr v s) s := by
  unfold execRegisterWrite
  apply FuseShape.answered
  refine fuseShape_ite _ ?_ (fuseShape_refl s)
  split
  · exact fuseShape_refl s
  · exact fuseShape_ite _ (writeRegister_fuseShape _ v s) (fuseShape_dev s _)

theorem answered_ite (c : Prop) [Decidable c] {s : State} {o p : Out} (ho : Answered o s) (hp : Answered p s) :
    Answered (if c then o else p) s := by
  split
  · exact ho
  · exact hp

theorem straitWr_answered (addr : Nat) (data : List Byte) (pmask : BitVec 64) (s : State) :
    Answered (execStraitWr addr data pmask s) s := by
  have stays : Answered (.next s) s := (fuseShape_refl s).answered
  unfold execStraitWr
  refine answered_ite _ stays (answered_ite _ (fuseShape_dev s _).answered (answered_ite _ ?_ stays))
  refine answered_ite _ (fuseShape_dev s _).answered ?_
  split
  · exact (writeRegister_fuseShape _ _ s).answered
  · refine answered_ite _ stays (answered_ite _ ?_ (answered_ite _ ?_ stays))
    · exact (run_shape _ s).answered
    · exact (run_shape _ s).answered

theorem dieResetRelease_answered (s : State) : Answered (execDieResetRelease s) s := by
  unfold execDieResetRelease
  dsimp only
  split
  · exact ⟨_, rfl, rfl⟩
  · exact ⟨_, rfl, rfl⟩

theorem servicesStart_answered (s : State) : Answered (execServicesStart s) s := by
  unfold execServicesStart
  dsimp only
  split
  · split
    · split
      · exact ⟨_, rfl, rfl⟩
      · exact ⟨_, rfl, rfl⟩
    · exact ⟨_, rfl, rfl⟩
  · exact ⟨_, rfl, rfl⟩

theorem lcTransition_answered (target confirm : Nat) (s : State) : Answered (execLcTransition target confirm s) s := by
  apply FuseShape.answered
  refine fuseShape_ite _ ?_ (fuseShape_refl s)
  split
  · exact fuseShape_dev s _
  · exact startLc_fuseShape _ _ s

theorem exec_answered_of_reachesFuses (c : Instr) (s : State) (h : reachesFuses c = true) : Answered (exec c s) s := by
  cases c with
  | registerWrite addr v => exact registerWrite_answered addr v s
  | straitWr addr data pmask => exact straitWr_answered addr data pmask s
  | lcTransition target confirm => exact lcTransition_answered target confirm s
  | lcAdvance => exact (fuseShape_ite _ (lcAdvance_fuseShape s) (fuseShape_refl s)).answered
  | secCommandComplete => exact (fuseShape_ite _ (secComplete_fuseShape s) (fuseShape_refl s)).answered
  | dieResetRelease => exact dieResetRelease_answered s
  | servicesStart => exact servicesStart_answered s
  | _ => exact Bool.noConfusion h

theorem exec_answered_of_isMeterCommand (c : Instr) (s : State) (h : isMeterCommand c = true) : Answered (exec c s) s := by
  cases c with
  | meterPulse => rw [exec_meterPulse]; exact meterAct_answered _ s
  | meterSupplyChange _ => rw [exec_meterSupplyChange]; exact meterAct_answered _ s
  | coverOpening => rw [exec_coverOpening]; exact meterAct_answered _ s
  | readEnergy _ => rw [exec_readEnergy]; exact meterAct_answered _ s
  | readIdent _ => rw [exec_readIdent]; exact meterAct_answered _ s
  | readLog _ => rw [exec_readLog]; exact meterAct_answered _ s
  | readStatus _ => rw [exec_readStatus]; exact meterAct_answered _ s
  | meterUnknownCmd _ => rw [exec_meterUnknownCmd]; exact meterAct_answered _ s
  | _ => exact Bool.noConfusion h

theorem exec_answered_of_isPowerPin (c : Instr) (s : State) (h : isPowerPin c = true) : Answered (exec c s) s := by
  cases c with
  | converterStart _ => rw [exec_converterStart]; exact pin_answered _ s
  | pwrGood => rw [exec_pwrGood]; exact pin_answered _ s
  | modEnFall => rw [exec_modEnFall]; exact pin_answered _ s
  | inputLoss => rw [exec_inputLoss]; exact pin_answered _ s
  | railFault _ => rw [exec_railFault]; exact pin_answered _ s
  | coldRstN => rw [exec_coldRstN]; exact pin_answered _ s
  | _ => exact Bool.noConfusion h

/-- Settles O4: a command reaches the fuses, the meter or a power pin, or has the shape that all others share. -/
theorem everyCommandIsAnswered : Obligations.EveryCommandIsAnswered := by
  unfold Obligations.EveryCommandIsAnswered
  intro c s
  cases hfuse : reachesFuses c with
  | true => exact exec_answered_of_reachesFuses c s hfuse
  | false =>
    cases hmeter : isMeterCommand c with
    | true => exact exec_answered_of_isMeterCommand c s hmeter
    | false =>
      cases hpin : isPowerPin c with
      | true => exact exec_answered_of_isPowerPin c s hpin
      | false => exact (exec_shape c s hfuse hmeter hpin).answered

end Sys2Proof.Machine
end

section
/-! PROOFS. Cores: their tasks, calls, instructions, cache-block operations and memory accesses; and register writes. -/

namespace Sys2Proof.Machine

/-! ### Keyed lists -/

section
variable {α : Type} (key : α → Nat) (f : α → α) (l : List α) (i j : Nat)

/-- The element of a key after a change of the elements of one key that keeps their key. -/
theorem find?_updWhere_key (hf : ∀ x, key (f x) = key x) :
    (updWhere (fun x => key x == i) f l).find? (fun x => key x == j) =
      if j = i then (l.find? fun x => key x == i).map f else l.find? fun x => key x == j := by
  have hkey : (fun x => key x == j) ∘ (fun x => if (key x == i) = true then f x else x) = fun x => key x == j := by
    funext x
    simp only [Function.comp_apply]
    split
    · rw [hf]
    · rfl
  rw [updWhere, List.find?_map, hkey]
  split
  case isTrue hj =>
    subst hj
    refine Option.map_congr fun x hx => ?_
    rw [if_pos (List.find?_some hx)]
  case isFalse hj =>
    refine (Option.map_congr fun x hx => ?_).trans Option.map_id'
    have hx : key x = j := by simpa using List.find?_some hx
    simp [hx, hj]

/-- Elements of other keys are as before a change of the elements of one key. -/
theorem mem_updWhere_key (hf : ∀ x, key (f x) = key x) (x : α) (hx : key x ≠ i) :
    x ∈ updWhere (fun x => key x == i) f l ↔ x ∈ l := by
  simp only [updWhere, List.mem_map, beq_iff_eq]
  constructor
  · rintro ⟨y, hy, rfl⟩
    by_cases h : key y = i
    · simp [h, hf] at hx
    · simpa [h] using hy
  · exact fun h => ⟨x, h, by simp [hx]⟩

end

/-! ### Operations in flight (R358) -/

theorem Dev.op?_updOp (d : Dev) (i j : Nat) (f : FeOp → FeOp) (hf : ∀ o, (f o).id = o.id) :
    (d.updOp i f).op? j = if j = i then (d.op? i).map f else d.op? j := find?_updWhere_key FeOp.id f d.fe.ops i j hf

theorem Dev.op?_begin (d : Dev) (i j : Nat) :
    (d.begin i).op? j = if j = i then
      (d.op? i).map fun o => if o.phase = .dispatched then { o with phase := .running, start := d.tick } else o
    else d.op? j := by
  refine d.op?_updOp i j _ fun o => ?_
  split <;> rfl

theorem FeOp.finish_id (o : FeOp) (st : Status) (cause : Nat) (exit : BitVec 32) : (o.finish st cause exit).id = o.id := by
  unfold FeOp.finish
  split <;> rfl

theorem FeOp.finish_running (o : FeOp) (st : Status) (cause : Nat) (exit : BitVec 32) (h : o.phase = .running) :
    o.finish st cause exit = { o with phase := .done st cause exit } := by
  simp [FeOp.finish, FeOp.ended, h]

/-- A stream record changes only what has been sent. -/
theorem Dev.tellStream_frame (d : Dev) (id : Nat) (last : Bool) : d.tellStream id last = { d with out := (d.tellStream id last).out } := by
  unfold Dev.tellStream
  split
  · split <;> rfl
  · rfl

theorem Dev.tellStream_eq_self (d : Dev) (id : Nat) (last : Bool) (h : d.isWindward = false) : d.tellStream id last = d := by
  unfold Dev.tellStream
  split
  · simp [h]
  · rfl

theorem Dev.finish_frame (d : Dev) (id : Nat) (st : Status) (cause : Nat) (exit : BitVec 32) :
    d.finish id st cause exit = { d.updOp id (·.finish st cause exit) with out := (d.finish id st cause exit).out } := by
  unfold Dev.finish
  dsimp only
  split
  · exact Dev.tellStream_frame _ id true
  · rfl

theorem Dev.finish_eq_updOp (d : Dev) (id : Nat) (st : Status) (cause : Nat) (exit : BitVec 32) (h : d.isWindward = false) :
    d.finish id st cause exit = d.updOp id (·.finish st cause exit) := by
  unfold Dev.finish
  dsimp only
  split
  · exact Dev.tellStream_eq_self _ id true h
  · rfl

theorem Dev.op?_finish (d : Dev) (i j : Nat) (st : Status) (cause : Nat) (exit : BitVec 32) :
    (d.finish i st cause exit).op? j = if j = i then (d.op? i).map (·.finish st cause exit) else d.op? j := by
  rw [Dev.finish_frame]
  exact d.op?_updOp i j _ fun o => o.finish_id st cause exit

/-- Of the operations with a tracker, the first is the one that its own command starts. -/
theorem State.opReady.ready? {s : State} {o : FeOp} {opcode : Nat} (h : s.opReady o opcode) : s.dev.ready? o.id opcode = some o := by
  obtain ⟨-, hop, hphase, hcode⟩ := h
  obtain ⟨hid, l, r, heq, hl⟩ := List.find?_eq_some_iff_append.1 hop
  refine List.find?_eq_some_iff_append.2 ⟨by simp [hphase, hcode], l, r, heq, fun x hx => ?_⟩
  have := hl x hx
  simp_all

/-- An operation that ends as soon as it begins (R376), on a module that does not mirror as windward. -/
theorem concludes_of_exec {c : Instr} {s : State} {o : FeOp} {opcode : Nat} (st : Status) (h : s.opReady o opcode)
    (hw : s.dev.isWindward = false) (hexec : exec c s = .next { s with dev := s.dev.conclude o.id st }) :
    Concludes c s o st 0 0 := by
  obtain ⟨-, hop, hphase, -⟩ := h
  have hfin : s.dev.conclude o.id st = (s.dev.begin o.id).updOp o.id (·.finish st 0 0) := Dev.finish_eq_updOp _ _ _ _ _ hw
  refine ⟨_, hexec, ⟨?_, fun j hj => ?_⟩, ?_⟩
  · show (s.dev.conclude o.id st).op? o.id = _
    rw [Dev.conclude, Dev.op?_finish, Dev.op?_begin, hop]
    simp [hphase, FeOp.finish, FeOp.ended, FeOp.ends]
  · show (s.dev.conclude o.id st).op? j = _
    rw [Dev.conclude, Dev.op?_finish, if_neg hj, Dev.op?_begin, if_neg hj]
  · rw [hfin]
    rfl

/-! ### Cores (R26–R30, R368, R488) -/

/-- The device with the cores of one number changed, as the statements write it. -/
def Dev.setCores (e : Dev) (core : Nat) (f : Core → Core) : Dev :=
  { e with cores := { e.cores with cores := e.cores.cores.map fun x => if x.id = core then f x else x } }

theorem Dev.updCore_eq_setCores (e : Dev) (core : Nat) (f : Core → Core) : e.updCore core f = e.setCores core f := by
  simp [Dev.updCore, Dev.setCores, updWhere]

theorem Dev.busyCore_eq_some {d : Dev} {core : Nat} {k : Core} {q : CoreTask} (h : d.busyCore core = some (k, q)) :
    d.core? core = some k ∧ k.task = some q := by
  unfold Dev.busyCore at h
  split at h
  · cases h
  case h_2 k' hk =>
    split at h
    · obtain ⟨t, ht, heq⟩ := Option.map_eq_some_iff.1 h
      obtain ⟨rfl, rfl⟩ := Prod.mk.inj heq
      exact ⟨hk, ht⟩
    · cases h

theorem Core.setX_id (k : Core) (n : Nat) (v : Word) : (k.setX n v).id = k.id := by
  unfold Core.setX
  split <;> rfl

/-! ### The end of a core task -/

/-- What the end of a core's task leaves: its operation done, its core idle, events recorded, and off a windward nothing else changed. -/
def TaskEnds (s : State) (core : Nat) (q : CoreTask) (st : Status) (exit : BitVec 32) (l : List TReport) (t : State) : Prop :=
  let d := s.dev
  (∀ o, d.op? q.op = some o → o.phase = .running → t.dev.op? q.op = some { o with phase := .done st 0 exit }) ∧
  (∀ j, j ≠ q.op → t.dev.op? j = d.op? j) ∧
  (∀ x ∈ t.dev.cores.cores, x.id = core → x.task = none ∧ x.held = none ∧ x.resv = none) ∧
  (d.isWindward = false → (∀ x, x.id ≠ core → (x ∈ t.dev.cores.cores ↔ x ∈ d.cores.cores)) ∧
    t.dev.tdm = { d.tdm with reports := d.tdm.reports ++ l } ∧
    t = { s with dev := { d with fe := { d.fe with ops := t.dev.fe.ops }, cores := { d.cores with cores := t.dev.cores.cores }, tdm := t.dev.tdm } })

theorem Dev.streamCache_fe (d : Dev) (c : Nat) : (d.streamCache c).fe = d.fe := by
  unfold Dev.streamCache
  split
  · rw [Dev.tellStream_frame]
  · rfl

/-- Cleaning a cluster leaves the front end as it was. -/
theorem Dev.cleanCluster_fe (d : Dev) (core : Nat) : (d.cleanCluster core).fe = d.fe := by
  unfold Dev.cleanCluster
  split
  · rfl
  · exact List.foldlRecOn (motive := fun e : Dev => e.fe = d.fe) _ _ rfl fun e he x _ => (Dev.streamCache_fe _ core).trans he

theorem Dev.op?_congr {d e : Dev} (h : d.fe = e.fe) (j : Nat) : d.op? j = e.op? j := by rw [Dev.op?, Dev.op?, h]

/-- The task of a core ends: its cluster is cleaned on a windward, the core is idle, its operation ends. -/
theorem Dev.endTask_eq {d : Dev} {core : Nat} {k : Core} {q : CoreTask} (hk : d.core? core = some k) (hq : k.task = some q)
    (st : Status) (exit : BitVec 32) :
    d.endTask core st exit = ((if d.isWindward then d.cleanCluster core else d).updCore core Core.idle).finish q.op st 0 exit := by
  have htask : (d.cores.cores.find? (·.id == core)).bind (·.task) = some q := (congrArg (Option.bind · Core.task) hk).trans hq
  unfold Dev.endTask
  rw [htask]
  rfl

theorem Core.of_mem_updCore_idle {d : Dev} {core : Nat} {x : Core} (hx : x ∈ (d.updCore core Core.idle).cores.cores) (hid : x.id = core) :
    x.task = none ∧ x.held = none ∧ x.resv = none := by
  obtain ⟨y, -, rfl⟩ := List.mem_map.1 hx
  split at hid
  case isTrue h => rw [if_pos h]; exact ⟨rfl, rfl, rfl⟩
  case isFalse h => exact absurd (beq_iff_eq.2 hid) h

/-- A task ends on a module that has recorded events `l` of its own. -/
theorem endTask_taskEnds {s : State} {core : Nat} {k : Core} {q : CoreTask} (h : s.dev.busyCore core = some (k, q))
    (st : Status) (exit : BitVec 32) (l : List TReport) (e : Dev)
    (he : e = { s.dev with tdm := { s.dev.tdm with reports := s.dev.tdm.reports ++ l } }) :
    TaskEnds s core q st exit l { s with dev := e.endTask core st exit } := by
  obtain ⟨hk, hq⟩ := Dev.busyCore_eq_some h
  have hk' : e.core? core = some k := by rw [he]; exact hk
  have hw : e.isWindward = s.dev.isWindward := by rw [he]; rfl
  have hend := Dev.endTask_eq hk' hq st exit
  have hfe : ((if e.isWindward then e.cleanCluster core else e).updCore core Core.idle).fe = s.dev.fe := by
    rw [Dev.updCore_fe]
    split
    · rw [Dev.cleanCluster_fe, he]
    · rw [he]
  have hop : ∀ j, (e.endTask core st exit).op? j = if j = q.op then (s.dev.op? q.op).map (·.finish st 0 exit) else s.dev.op? j := by
    intro j
    rw [hend, Dev.op?_finish, Dev.op?_congr (e := s.dev) hfe q.op, Dev.op?_congr (e := s.dev) hfe j]
  refine ⟨fun o ho hrun => ?_, fun j hj => ?_, fun x hx hid => ?_, fun hoff => ?_⟩
  · show (e.endTask core st exit).op? q.op = _
    rw [hop, if_pos rfl, ho, Option.map_some, FeOp.finish_running o st 0 exit hrun]
  · exact (hop j).trans (if_neg hj)
  · have hx : x ∈ (e.endTask core st exit).cores.cores := hx
    rw [hend, Dev.finish_frame] at hx
    exact Core.of_mem_updCore_idle hx hid
  · have hend : e.endTask core st exit = (e.updCore core Core.idle).updOp q.op (·.finish st 0 exit) := by
      rw [hend, hw, hoff]
      exact Dev.finish_eq_updOp _ _ _ _ _ (hw.trans hoff)
    rw [hend, he]
    exact ⟨fun x hx => mem_updWhere_key Core.id Core.idle _ _ (fun _ => rfl) x hx, rfl, rfl⟩

/-- A core's task ends, and no event is recorded. -/
theorem gives_taskEnds {c : Instr} {s : State} {core : Nat} {k : Core} {q : CoreTask} (h : s.dev.busyCore core = some (k, q))
    (st : Status) (exit : BitVec 32) (hexec : exec c s = .next { s with dev := s.dev.endTask core st exit }) :
    Gives c s (TaskEnds s core q st exit []) :=
  ⟨_, hexec, endTask_taskEnds h st exit [] s.dev (by rw [List.append_nil])⟩

/-- An exception ends a core's task ABORTED, with its event (R488). -/
theorem gives_coreExc {c : Instr} {s : State} {core : Nat} {k : Core} {q : CoreTask} (h : s.dev.busyCore core = some (k, q))
    (cause : Nat) (tval : Word) (hexec : exec c s = .next { s with dev := s.dev.coreExc core cause tval }) :
    Gives c s (TaskEnds s core q .aborted 0 [⟨12, 2, 6, s.dev.logicalCore core, cause, k.pc.toNat, tval.toNat⟩]) := by
  obtain ⟨hk, hq⟩ := Dev.busyCore_eq_some h
  have hexc : s.dev.coreExc core cause tval =
      (s.dev.event 12 2 6 (s.dev.logicalCore core) cause k.pc.toNat tval.toNat).endTask core .aborted := by
    simp [Dev.coreExc, hk, hq]
  rw [hexc] at hexec
  exact ⟨_, hexec, endTask_taskEnds h .aborted 0 _ _ rfl⟩

/-! ### The core of a starting task (R28, R357, Table 12.4) -/

theorem entF_lt (e : BitVec 1024) (off n : Nat) : entF e off n < 2 ^ (8 * n) := Nat.mod_lt _ (Nat.two_pow_pos _)

theorem Core.xr_setX (k : Core) (n m : Nat) (v : Word) (hn : n ≠ 0) : (k.setX n v).xr m = if m = n then v else k.xr m := by
  simp only [Core.setX, hn, if_false, Core.xr, sget_sput]
  split
  case isTrue h => simp [h, hn.symm]
  case isFalse => rfl

/-! Writing a register or the vector configuration leaves the rest of a core as it was. -/

@[simp] theorem Core.setX_pc (k : Core) (n : Nat) (v : Word) : (k.setX n v).pc = k.pc := by unfold Core.setX; split <;> rfl
@[simp] theorem Core.setX_cycle (k : Core) (n : Nat) (v : Word) : (k.setX n v).cycle = k.cycle := by unfold Core.setX; split <;> rfl
@[simp] theorem Core.setX_instret (k : Core) (n : Nat) (v : Word) : (k.setX n v).instret = k.instret := by unfold Core.setX; split <;> rfl
@[simp] theorem Core.setX_held (k : Core) (n : Nat) (v : Word) : (k.setX n v).held = k.held := by unfold Core.setX; split <;> rfl
@[simp] theorem Core.setX_resv (k : Core) (n : Nat) (v : Word) : (k.setX n v).resv = k.resv := by unfold Core.setX; split <;> rfl
@[simp] theorem Core.setX_task (k : Core) (n : Nat) (v : Word) : (k.setX n v).task = k.task := by unfold Core.setX; split <;> rfl
@[simp] theorem Core.vset_id (k : Core) (vtype : Word) (avl : Nat) : (k.vset vtype avl).id = k.id := by unfold Core.vset; split <;> rfl
@[simp] theorem Core.vset_pc (k : Core) (vtype : Word) (avl : Nat) : (k.vset vtype avl).pc = k.pc := by unfold Core.vset; split <;> rfl
@[simp] theorem Core.vset_cycle (k : Core) (vtype : Word) (avl : Nat) : (k.vset vtype avl).cycle = k.cycle := by unfold Core.vset; split <;> rfl
@[simp] theorem Core.vset_instret (k : Core) (vtype : Word) (avl : Nat) : (k.vset vtype avl).instret = k.instret := by unfold Core.vset; split <;> rfl
@[simp] theorem Core.vset_held (k : Core) (vtype : Word) (avl : Nat) : (k.vset vtype avl).held = k.held := by unfold Core.vset; split <;> rfl
@[simp] theorem Core.vset_resv (k : Core) (vtype : Word) (avl : Nat) : (k.vset vtype avl).resv = k.resv := by unfold Core.vset; split <;> rfl
@[simp] theorem Core.vset_task (k : Core) (vtype : Word) (avl : Nat) : (k.vset vtype avl).task = k.task := by unfold Core.vset; split <;> rfl

/-- What a core holds when its task begins (R28, Table 12.4). -/
def TaskCore (o : FeOp) (k : Core) : Prop :=
  k.task = some ⟨o.id, o.tag⟩ ∧ k.pc.toNat = entF o.entry 32 8 ∧ (k.xr 10).toNat = entF o.entry 40 8 ∧
    (k.xr 2).toNat = entF o.entry 48 8 ∧ k.cycle = 0 ∧ k.instret = 0 ∧ k.held = none ∧ k.resv = none

theorem toNat_ofNat_entF (e : BitVec 1024) (off : Nat) : (BitVec.ofNat 64 (entF e off 8)).toNat = entF e off 8 :=
  (BitVec.toNat_ofNat _ _).trans (Nat.mod_eq_of_lt (entF_lt e off 8))

/-- A core with a task's program counter, configured and given its two named registers. -/
theorem taskCore_of_named (k : Core) (o : FeOp) (vtype : Word) (avl : Nat) (htask : k.task = some ⟨o.id, o.tag⟩)
    (hpc : k.pc = BitVec.ofNat 64 (entF o.entry 32 8)) (hcounters : k.cycle = 0 ∧ k.instret = 0 ∧ k.held = none ∧ k.resv = none) :
    TaskCore o (((k.vset vtype avl).setX 10 (BitVec.ofNat 64 (entF o.entry 40 8))).setX 2 (BitVec.ofNat 64 (entF o.entry 48 8))) := by
  refine ⟨by simpa using htask, by simp [hpc, -BitVec.toNat_ofNat, toNat_ofNat_entF], ?_, ?_, by simpa using hcounters⟩
  · rw [Core.xr_setX _ _ _ _ (by decide), Core.xr_setX _ _ _ _ (by decide), if_neg (by decide), if_pos rfl, toNat_ofNat_entF]
  · rw [Core.xr_setX _ _ _ _ (by decide), if_pos rfl, toNat_ofNat_entF]

theorem Dev.taskCore_core (d : Dev) (c : Nat) (o : FeOp) : TaskCore o (d.taskCore c o).1 :=
  taskCore_of_named _ o _ _ rfl rfl ⟨rfl, rfl, rfl, rfl⟩

theorem Dev.taskCore_id (d : Dev) (c : Nat) (o : FeOp) : (d.taskCore c o).1.id = c := by
  unfold Dev.taskCore
  dsimp only
  rw [Core.setX_id, Core.setX_id, Core.vset_id]

/-- A task begins on a free core: its operation has a unit and runs, and the core is put in the place of what bore its number. -/
def Dev.startTask (d : Dev) (o : FeOp) (core : Nat) : Dev :=
  let (k, d) := d.taskCore core { o with unit := core }
  let d := d.updOp o.id fun o => { o with unit := core }
  ({ d with cores := { d.cores with cores := (d.cores.cores.filter fun (x : Core) => x.id != core) ++ [k] } } : Dev).begin o.id

theorem Dev.startTask_cores (d : Dev) (o : FeOp) (core : Nat) :
    (d.startTask o core).cores.cores = (d.cores.cores.filter fun x => x.id != core) ++ [(d.taskCore core { o with unit := core }).1] := rfl

theorem Dev.op?_startTask (d : Dev) (o : FeOp) (core j : Nat) (hop : d.op? o.id = some o) (hphase : o.phase = .dispatched) :
    (d.startTask o core).op? j = if j = o.id then some { o with unit := core, phase := .running, start := d.tick } else d.op? j := by
  have hunit : ∀ i, (d.updOp o.id fun o => { o with unit := core }).op? i = if i = o.id then some { o with unit := core } else d.op? i := by
    intro i
    rw [Dev.op?_updOp d o.id i (fun o => { o with unit := core }) fun _ => rfl, hop, Option.map_some]
  have hfe : (d.startTask o core).fe = ((d.updOp o.id fun o => { o with unit := core }).begin o.id).fe := rfl
  rw [Dev.op?_congr hfe, Dev.op?_begin, hunit, hunit, if_pos rfl, Option.map_some, if_pos hphase]
  by_cases hj : j = o.id
  · rw [if_pos hj, if_pos hj]; rfl
  · rw [if_neg hj, if_neg hj, if_neg hj]

theorem Dev.startTask_core (d : Dev) (o : FeOp) (core : Nat) :
    ∃ k, (d.startTask o core).core? core = some k ∧ TaskCore o k := by
  refine ⟨(d.taskCore core { o with unit := core }).1, ?_, d.taskCore_core core { o with unit := core }⟩
  rw [Dev.core?, Dev.startTask_cores, List.find?_append, List.find?_eq_none.2]
  · simp [Dev.taskCore_id]
  · simp

theorem Dev.mem_startTask_cores (d : Dev) (o : FeOp) (core : Nat) (x : Core) (hx : x.id ≠ core) :
    x ∈ (d.startTask o core).cores.cores ↔ x ∈ d.cores.cores := by
  have hne : x ≠ (d.taskCore core { o with unit := core }).1 := fun h => hx (h ▸ d.taskCore_id core _)
  simp [Dev.startTask_cores, hx, hne]

/-! ### Little-endian numbers -/

theorem leBytes_length (n v : Nat) : (leBytes n v).length = n := by
  induction n generalizing v with
  | zero => rfl
  | succ n ih => simp [leBytes, ih]

theorem leNat_leBytes (n v : Nat) : leNat (leBytes n v) = v % 256 ^ n := by
  induction n generalizing v with
  | zero => simp [leBytes, leNat, Nat.mod_one]
  | succ n ih =>
    rw [leBytes, leNat, ih, Nat.pow_succ, Nat.mul_comm (256 ^ n), Nat.mod_mul]
    simp

theorem leNat_lt (l : List Byte) : leNat l < 256 ^ l.length := by
  induction l with
  | nil => simp [leNat]
  | cons b r ih =>
    have hb := b.isLt
    simp only [leNat, List.length_cons, Nat.pow_succ]
    omega

theorem leNat_append (l r : List Byte) : leNat (l ++ r) = leNat l + 256 ^ l.length * leNat r := by
  induction l with
  | nil => simp [leNat]
  | cons b l ih =>
    rw [List.cons_append, leNat, leNat, ih, List.length_cons, Nat.pow_succ, Nat.mul_comm (256 ^ l.length) 256, Nat.mul_assoc, Nat.mul_add, Nat.add_assoc]

theorem leNat_drop (l : List Byte) (i : Nat) (hi : i ≤ l.length) : leNat (l.drop i) = leNat l / 256 ^ i := by
  have h := leNat_append (l.take i) (l.drop i)
  have hlt := leNat_lt (l.take i)
  rw [List.take_append_drop] at h
  rw [List.length_take, Nat.min_eq_left hi] at h hlt
  rw [h, Nat.add_mul_div_left _ _ (Nat.pow_pos (by decide)), Nat.div_eq_of_lt hlt, Nat.zero_add]

theorem leNat_take (l : List Byte) (n : Nat) (hn : n ≤ l.length) : leNat (l.take n) = leNat l % 256 ^ n := by
  have h := leNat_append (l.take n) (l.drop n)
  have hlt := leNat_lt (l.take n)
  rw [List.take_append_drop] at h
  rw [List.length_take, Nat.min_eq_left hn] at h hlt
  rw [h, Nat.add_mul_mod_self_left, Nat.mod_eq_of_lt hlt]

/-- Bytes as a number of just their width. -/
theorem toNat_ofNat_leNat (l : List Byte) (w : Nat) (hw : w = 8 * l.length) : (BitVec.ofNat w (leNat l)).toNat = leNat l := by
  subst hw
  rw [BitVec.toNat_ofNat, Nat.mod_eq_of_lt]
  rw [Nat.pow_mul]
  exact leNat_lt l

/-- A field of an entry made of 128 bytes is the number of its bytes. -/
theorem entF_ofNat_leNat (l : List Byte) (off n : Nat) (hl : l.length = 128) (hoff : off + n ≤ 128) :
    entF (BitVec.ofNat 1024 (leNat l)) off n = leNat ((l.drop off).take n) := by
  have hpow : ∀ m, (2 : Nat) ^ (8 * m) = 256 ^ m := Nat.pow_mul 2 8
  rw [entF, toNat_ofNat_leNat l 1024 (by rw [hl]), hpow, hpow, leNat_take _ _ (by rw [List.length_drop, hl]; omega),
    leNat_drop _ _ (by omega)]

theorem leNat_singleton (b : Byte) : leNat [b] = b.toNat := by simp [leNat]

theorem entF_byte (l : List Byte) (i : Nat) (hl : l.length = 128) (hi : i < 128) :
    entF (BitVec.ofNat 1024 (leNat l)) i 1 = (l.getD i 0).toNat := by
  have hi' : i < l.length := hl ▸ hi
  rw [entF_ofNat_leNat l i 1 hl (by omega), List.drop_eq_getElem_cons hi', List.take_succ_cons, List.take_zero, leNat_singleton,
    List.getD_eq_getElem?_getD, List.getElem?_eq_getElem hi', Option.getD_some]

/-! ### Calls of the front end (R29, R361, R367, R368) -/

theorem Dev.vgather_length {d d' : Dev} {tag va n : Nat} {acc : Access} {bs : List (Byte × Bool)}
    (h : d.vgather tag va n acc = .ok (d', bs)) : bs.length = n := by
  induction n generalizing d va bs with
  | zero =>
    unfold Dev.vgather at h
    cases h
    rfl
  | succ n ih =>
    unfold Dev.vgather at h
    split at h
    · split at h
      · cases h
      · split at h
        next hrest =>
          cases h
          rw [List.length_cons, ih hrest]
        next => cases h
    · cases h

/-- The entry that an enqueue appends: the bytes gathered, with the tail's stamp in place of theirs. -/
def stampedEntry (tail : Nat) (bs : List Byte) : BitVec 1024 :=
  BitVec.ofNat 1024 (leNat (bs.take 4 ++ leBytes 4 (tail + 1) ++ (bs.drop 8).take 120))

section
variable (tail : Nat) {bs : List Byte} (hlen : bs.length = 128)
include hlen

theorem stampedEntry_length : (bs.take 4 ++ leBytes 4 (tail + 1) ++ (bs.drop 8).take 120).length = 128 := by
  simp [leBytes_length, hlen]

theorem entF_stampedEntry_stamp : entF (stampedEntry tail bs) 4 4 = (tail + 1) % 2 ^ 32 := by
  rw [stampedEntry, entF_ofNat_leNat _ _ _ (stampedEntry_length tail hlen) (by decide), List.append_assoc,
    List.drop_left' (by simp [hlen]), List.take_left' (leBytes_length _ _), leNat_leBytes, show (256 : Nat) ^ 4 = 2 ^ 32 by decide]

theorem entF_stampedEntry_byte (i : Nat) (hi : i < 128) (hstamp : i < 4 ∨ 8 ≤ i) :
    entF (stampedEntry tail bs) i 1 = (bs.getD i 0).toNat := by
  rw [stampedEntry, entF_byte _ _ (stampedEntry_length tail hlen) hi]
  rw [List.getD_eq_getElem?_getD, List.getD_eq_getElem?_getD]
  rcases hstamp with h | h
  · rw [List.append_assoc, List.getElem?_append_left (by rw [List.length_take, hlen]; omega), List.getElem?_take_of_lt h]
  · have hprefix : (bs.take 4 ++ leBytes 4 (tail + 1)).length = 8 := by rw [List.length_append, List.length_take, leBytes_length, hlen]; omega
    rw [List.getElem?_append_right (hprefix ▸ h), hprefix, List.getElem?_take_of_lt (by omega), List.getElem?_drop, Nat.add_sub_cancel' h]

end

theorem Dev.queue?_updQueue (d : Dev) (i j : Nat) (f : Queue → Queue) (hf : ∀ q, (f q).qid = q.qid) :
    (d.updQueue i f).queue? j = if j = i then (d.queue? i).map f else d.queue? j := find?_updWhere_key Queue.qid f d.fe.queues i j hf

section
variable (d : Dev) (tag qid parent : Nat) (bs : List Byte)

theorem Dev.enqueue_invalid (h : d.queue? qid = none ∨ d.rd (FE_Q_STATE_DEVICE_OWNED qid) = 0 ∨ d.rd (FE_Q_STATE_TAG qid) ≠ tag ∨ d.qState qid = 6) :
    d.enqueue tag qid parent bs = (d, .handleInvalid) := by
  unfold Dev.enqueue
  split
  · rfl
  case h_2 hq => rw [if_pos (h.resolve_left (by simp [hq]))]

variable {d tag qid} {u : Queue} (hq : d.queue? qid = some u) (howned : d.rd (FE_Q_STATE_DEVICE_OWNED qid) = 1)
  (htag : d.rd (FE_Q_STATE_TAG qid) = tag) (hstate : d.qState qid ≠ 6)
include hq howned htag hstate

theorem Dev.enqueue_busy (hfull : 2 ^ u.sqLog2 ≤ u.devRing.length) : d.enqueue tag qid parent bs = (d, .busy) := by
  simp [Dev.enqueue, hq, howned, htag, hstate, hfull]

theorem Dev.enqueue_ok (hroom : u.devRing.length < 2 ^ u.sqLog2) :
    d.enqueue tag qid parent bs =
      ((d.updQueue qid fun q => { q with devRing := q.devRing ++ [(stampedEntry (d.rd (FE_Q_COUNT_TAIL qid)) bs, parent)] }).wr
        (FE_Q_COUNT_TAIL qid) (d.rd (FE_Q_COUNT_TAIL qid) + 1), .ok) := by
  simp [Dev.enqueue, hq, howned, htag, hstate, hroom, stampedEntry]

end

theorem Dev.ecallAnswer_eq (d : Dev) (core : Nat) (st : Status) :
    d.ecallAnswer core st = d.setCores core fun x => { x.setX 10 (BitVec.ofNat 64 (statusCode st)) with pc := x.pc + 4 } :=
  d.updCore_eq_setCores core _

section
variable {d : Dev} {core : Nat} {k : Core} {q : CoreTask}

theorem Dev.ecallIf_of_busy (h : d.busyCore core = some (k, q)) (hheld : k.held = none) (p : Nat → Bool) :
    d.ecallIf core p = if p (k.xr 17).toNat then d.ecall core k q else d := by
  simp [Dev.ecallIf, h, hheld]

theorem Dev.ecallIf_of_held (h : d.busyCore core = some (k, q)) {w : BitVec 32} (hheld : k.held = some w) (p : Nat → Bool) :
    d.ecallIf core p = d := by
  simp [Dev.ecallIf, h, hheld]

theorem Dev.ecall_enq (h : (k.xr 17).toNat = 0x100) : d.ecall core k q = d.ecallEnq core k q := by simp [Dev.ecall, h]
theorem Dev.ecall_fsig (h : (k.xr 17).toNat = 0x101) : d.ecall core k q = d.ecallFsig core k q := by simp [Dev.ecall, h]
theorem Dev.ecall_exit (h : (k.xr 17).toNat = 0x102) : d.ecall core k q = d.endTask core .ok ((k.xr 10).setWidth 32) := by
  simp [Dev.ecall, h]
theorem Dev.ecall_other (h : (k.xr 17).toNat ∉ [0x100, 0x101, 0x102]) : d.ecall core k q = d.endTask core .notPermitted := by
  unfold Dev.ecall
  split <;> simp_all

theorem Dev.ecallEnq_of_gathered {bs : List (Byte × Bool)} (hg : d.vgather q.tag (k.xr 10).toNat 128 = .ok (d, bs)) :
    d.ecallEnq core k q =
      if bs.any (·.2) then d.endTask core .poisonConsumed
      else (d.enqueue q.tag (k.xr 11).toNat q.op (bs.map (·.1))).1.ecallAnswer core (d.enqueue q.tag (k.xr 11).toNat q.op (bs.map (·.1))).2 := by
  unfold Dev.ecallEnq
  rw [hg]

theorem Dev.ecallEnq_of_ended {st : Status} (hg : d.vgather q.tag (k.xr 10).toNat 128 = .error (.ended st)) :
    d.ecallEnq core k q = d.endTask core st := by
  unfold Dev.ecallEnq
  rw [hg]

theorem Dev.ecallEnq_of_waits (hg : d.vgather q.tag (k.xr 10).toNat 128 = .error .waits) : d.ecallEnq core k q = d := by
  unfold Dev.ecallEnq
  rw [hg]

/-- A signal of a fence is performed for its own signaller alone (R361). -/
theorem Dev.fsig_eq (d : Dev) (tag qid i : Nat) (v : Word) :
    d.fsig tag qid i v = if (d.fence? i).any (fun f => f.tag == tag && f.signaller == some qid) then d.signalFence i (min v.toNat (2 ^ 63 - 1))
      else d.event 7 0 5 qid i v.toNat 0 := by
  unfold Dev.fsig
  split
  · simp_all
  · simp_all

end

/-! ### Accesses of a core that stay in one line of the pool (R27, R290, R294) -/

/-- Physical addresses of an access that lie in one line of the pool. -/
def InLine (as : List Nat) (l : Nat) : Prop := as ≠ [] ∧ ∀ a ∈ as, inPool a = true ∧ a / 64 = l

/-- `n` bytes from an address on, the last of them in the pool, that do not leave a line. -/
theorem inLine_range {pa n : Nat} (hn : 0 < n) (hpool : inPool (pa + (n - 1)) = true) (hfit : pa % 64 + n ≤ 64) :
    InLine ((List.range n).map (pa + ·)) (pa / 64) := by
  refine ⟨by simp; omega, fun a ha => ?_⟩
  obtain ⟨i, hi, rfl⟩ := List.mem_map.1 ha
  have hi := List.mem_range.1 hi
  simp only [inPool, decide_eq_true_eq] at hpool ⊢
  omega

theorem eraseDups_eq_singleton (l : List Nat) (a : Nat) (hne : l ≠ []) (h : ∀ x ∈ l, x = a) : l.eraseDups = [a] := by
  cases l with
  | nil => exact absurd rfl hne
  | cons x r =>
    obtain rfl := h x List.mem_cons_self
    rw [List.eraseDups_cons, List.filter_eq_nil_iff.2, List.eraseDups_nil]
    intro y hy
    simp [h y (List.mem_cons_of_mem _ hy)]

section
variable {as : List Nat} {l : Nat} (h : InLine as l)
include h

theorem InLine.filter_inPool : as.filter inPool = as := List.filter_eq_self.2 fun a ha => (h.2 a ha).1

theorem InLine.filter_outside : as.filter (fun a => !inPool a) = [] :=
  List.filter_eq_nil_iff.2 fun a ha => by simp [(h.2 a ha).1]

theorem InLine.lines : (as.map (· / 64)).eraseDups = [l] := by
  refine eraseDups_eq_singleton _ _ (by simpa using h.1) fun x hx => ?_
  obtain ⟨a, ha, rfl⟩ := List.mem_map.1 hx
  exact (h.2 a ha).2

end

theorem Dev.needLines_of_has {d : Dev} {core l : Nat} {own : Bool} (h : d.hasLine core l own = true) :
    d.needLines core own [l] = (d, true) := by simp [Dev.needLines, h]

/-- A line that a core's L2 lacks and may not ask for at present is not asked for. -/
theorem Dev.needLines_of_lacks {d : Dev} {core l : Nat} {own : Bool} (h : d.cline? core l = none) (hask : d.mayAsk core l = false) :
    d.needLines core own [l] = (d, false) := by simp [Dev.needLines, Dev.hasLine, Dev.askLine, h, hask]

theorem Dev.coreBytes_inPool (d : Dev) (core : Nat) (ext : Word) (as : List Nat) (n : Nat) (h : ∀ a ∈ as, inPool a = true) :
    d.coreBytes core ext as n = (as.map (d.cacheByte core), d) := by
  induction as with
  | nil => rfl
  | cons a r ih =>
    rw [Dev.coreBytes, if_pos (h a List.mem_cons_self), ih fun b hb => h b (List.mem_cons_of_mem _ hb)]
    rfl

section
variable {d : Dev} {core tag l : Nat} {vas as : List Nat} {resp : CoreResp} (hpas : d.corePas tag .read vas = .ok as)
  (has : InLine as l) (hresp : resp.bind (·.1) = none)
include hpas has hresp

/-- A load of a line that the L2 holds: its bytes, or the end of the task when it is poisoned (R290). -/
theorem Dev.coreRead_of_cline {x : CLine} (hx : d.cline? core l = some x) :
    d.coreRead core tag .read false vas resp =
      if x.poisoned then .ends .poisonConsumed d else .ok (as.map fun a => lineByte x.data (a % 64)) d := by
  have hhas : d.hasLine core l false = true := by simp [Dev.hasLine, hx]
  have hbytes : as.map (d.cacheByte core) = as.map fun a => (lineByte x.data (a % 64), x.poisoned) :=
    List.map_congr_left fun a ha => by rw [Dev.cacheByte, (has.2 a ha).2, hx]
  have hany : (as.map (d.cacheByte core)).any (·.2) = x.poisoned := by
    obtain ⟨a, r, rfl⟩ := List.exists_cons_of_ne_nil has.1
    rw [hbytes]
    cases x.poisoned <;> simp
  unfold Dev.coreRead
  simp only [hpas, hresp, has.filter_outside, has.filter_inPool, has.lines, Dev.needLines_of_has hhas,
    d.coreBytes_inPool core _ as 0 fun a ha => (has.2 a ha).1, hany]
  simp [hbytes, Function.comp_def]

omit hresp in
/-- A load of a line that the L2 lacks waits. -/
theorem Dev.coreRead_of_no_cline (hx : d.cline? core l = none) (hask : d.mayAsk core l = false) :
    d.coreRead core tag .read false vas resp = .waits d := by
  unfold Dev.coreRead
  simp [hpas, has.filter_outside, has.filter_inPool, has.lines, Dev.needLines_of_lacks hx hask]

end

theorem lineByte_toNat (x : BitVec 512) (i : Nat) : (lineByte x i).toNat = x.toNat / 2 ^ (8 * i) % 256 := by
  simp [lineByte, BitVec.extractLsb'_toNat, Nat.shiftRight_eq_div_pow]

/-- Consecutive bytes of a line as a number. -/
theorem leNat_lineBytes (x : BitVec 512) (o n : Nat) :
    leNat ((List.range n).map fun i => lineByte x (o + i)) = x.toNat / 2 ^ (8 * o) % 2 ^ (8 * n) := by
  induction n generalizing o with
  | zero => simp [leNat, Nat.mod_one]
  | succ n ih =>
    have hstep : ((fun i => lineByte x (o + i)) ∘ Nat.succ) = fun i => lineByte x (o + 1 + i) := by
      funext i
      simp [Nat.add_assoc, Nat.add_comm 1]
    have hdiv : x.toNat / 2 ^ (8 * (o + 1)) = x.toNat / 2 ^ (8 * o) / 256 := by
      rw [Nat.div_div_eq_div_mul, Nat.mul_add, Nat.pow_add]
    rw [List.range_succ_eq_map, List.map_cons, List.map_map, hstep, leNat, ih, lineByte_toNat, hdiv, Nat.add_zero,
      show 8 * (n + 1) = 8 + 8 * n by omega, Nat.pow_add, Nat.mod_mul]

/-! ### CBO.ZERO of an owned line (R296) -/

/-- The 64 zeros of a line, with their addresses. -/
def zeroBytes (l : Nat) : List (Nat × Byte) := (List.range 64).map fun i => (64 * l + i, 0)

theorem zeroBytes_line (l : Nat) : ∀ p ∈ zeroBytes l, p.1 / 64 = l ∧ p.2 = 0 := by
  intro p hp
  obtain ⟨i, hi, rfl⟩ := List.mem_map.1 hp
  have hi := List.mem_range.1 hi
  exact ⟨by omega, rfl⟩

theorem zeroBytes_any (l i : Nat) (hi : i < 64) : (zeroBytes l).any (·.1 % 64 == i) = true :=
  List.any_eq_true.2 ⟨(64 * l + i, 0), List.mem_map.2 ⟨i, List.mem_range.2 hi, rfl⟩, by simp; omega⟩

theorem zeroBytes_find (l i : Nat) (hi : i < 64) (b : Byte) :
    ((zeroBytes l).find? (·.1 % 64 == i)).elim b (·.2) = 0 := by
  cases hf : (zeroBytes l).find? (·.1 % 64 == i) with
  | none =>
    obtain ⟨p, hp, hkey⟩ := List.any_eq_true.1 (zeroBytes_any l i hi)
    exact absurd hkey (List.find?_eq_none.1 hf p hp)
  | some p => exact (zeroBytes_line l p (List.mem_of_find?_eq_some hf)).2

theorem lineOf_zeros (n : Nat) : lineOf (List.replicate n 0) = 0 := by
  have h : leNat (List.replicate n 0) = 0 := by
    induction n with
    | zero => rfl
    | succ n ih => rw [List.replicate_succ, leNat, ih]; rfl
  rw [lineOf, h]
  rfl

/-- Zeros stored over a whole line leave it modified, zero and without its mark (R290, R296). -/
theorem Dev.cachePut_zeroBytes {d : Dev} {core l : Nat} {x : CLine} (hx : d.cline? core l = some x) :
    d.cachePut core (zeroBytes l) = d.putLine { x with st := .m, data := 0, poisoned := false } := by
  have hlines : ((zeroBytes l).map (·.1 / 64)).eraseDups = [l] := by
    refine eraseDups_eq_singleton _ _ (by simp [zeroBytes]) fun y hy => ?_
    obtain ⟨p, hp, rfl⟩ := List.mem_map.1 hy
    exact (zeroBytes_line l p hp).1
  have hmine : (zeroBytes l).filter (·.1 / 64 == l) = zeroBytes l :=
    List.filter_eq_self.2 fun p hp => by simp [(zeroBytes_line l p hp).1]
  have hdata : (List.range 64).map (fun i => ((zeroBytes l).find? (·.1 % 64 == i)).elim (lineByte x.data i) (·.2)) = List.replicate 64 0 :=
    List.eq_replicate_iff.2 ⟨by simp, fun b hb => by
      obtain ⟨i, hi, rfl⟩ := List.mem_map.1 hb
      exact zeroBytes_find l i (List.mem_range.1 hi) _⟩
  have hwhole : ((List.range 64).all fun i => (zeroBytes l).any (·.1 % 64 == i)) = true :=
    List.all_eq_true.2 fun i hi => zeroBytes_any l i (List.mem_range.1 hi)
  unfold Dev.cachePut
  simp only [hlines, List.foldl_cons, List.foldl_nil, hx, hmine, hdata, hwhole, lineOf_zeros, Bool.not_true, Bool.and_false]

theorem Dev.coreZero_owned {d : Dev} {core tag va l : Nat} {x : CLine} {resp : CoreResp}
    (hpas : d.corePas tag .write (vaRange (va / 64 * 64) 64) = .ok ((List.range 64).map (64 * l + ·)))
    (hpool : inPool (64 * l + 63) = true) (hx : d.cline? core l = some x) (hown : x.st ≠ .s) :
    d.coreZero core tag va resp = .ok () (d.putLine { x with st := .m, data := 0, poisoned := false }) := by
  have has : InLine ((List.range 64).map (64 * l + ·)) l := by
    have h := inLine_range (pa := 64 * l) (n := 64) (by decide) hpool (by omega)
    rwa [Nat.mul_div_cancel_left l (by decide)] at h
  have hhas : d.hasLine core l true = true := by simp [Dev.hasLine, hx, hown]
  have hfst : ((vaRange (va / 64 * 64) 64).map fun a => ((a, 0) : Nat × Byte)).map (·.1) = vaRange (va / 64 * 64) 64 := by
    simp [Function.comp_def]
  have hzip : ((List.range 64).map (64 * l + ·)).zip (((vaRange (va / 64 * 64) 64).map fun a => ((a, 0) : Nat × Byte)).map (·.2)) = zeroBytes l := by
    apply List.ext_getElem <;> simp [zeroBytes, vaRange]
  have hpools : ∀ p ∈ zeroBytes l, inPool p.1 = true := fun p hp =>
    (has.2 p.1 (by obtain ⟨i, hi, rfl⟩ := List.mem_map.1 hp; exact List.mem_map_of_mem hi)).1
  have hout : (zeroBytes l).filter (fun p => !inPool p.1) = [] := List.filter_eq_nil_iff.2 fun p hp => by simp [hpools p hp]
  have hin : (zeroBytes l).filter (fun p => inPool p.1) = zeroBytes l := List.filter_eq_self.2 hpools
  unfold Dev.coreZero Dev.coreWrite
  simp only [hfst, hpas, has.filter_inPool, has.lines, Dev.needLines_of_has hhas, hzip, hout, hin, Dev.coreOut, List.map_nil, addrRuns, List.foldl_nil, Dev.cachePut_zeroBytes hx]
  simp

/-! ### Instructions of a core (R26) -/

/-- Words of 32-bit instructions are taken as they are. -/
theorem expandIns_of_long {w : Nat} (hw : w < 2 ^ 32) (h3 : w % 4 = 3) : expandIns (BitVec.ofNat 32 w) = some (w, 4) := by
  have hnat : (BitVec.ofNat 32 w).toNat = w := (BitVec.toNat_ofNat _ _).trans (Nat.mod_eq_of_lt hw)
  have hlow : w % 2 ^ 16 % 4 = 3 := by omega
  unfold expandIns
  simp only [hnat, hlow]

/-- The fields of an instruction word in the R form. -/
structure RFields (w f7 rs2 rs1 f3 rd op : Nat) : Prop where
  lt : w < 2 ^ 32
  op : insF w 6 0 = op
  rd : insF w 11 7 = rd
  f3 : insF w 14 12 = f3
  rs1 : insF w 19 15 = rs1
  rs2 : insF w 24 20 = rs2
  f7 : insF w 31 25 = f7

theorem rFields_encR {f7 rs2 rs1 f3 rd op : Nat} (h7 : f7 < 128) (h2 : rs2 < 32) (h1 : rs1 < 32) (h3 : f3 < 8) (hd : rd < 32) (ho : op < 128) :
    RFields (encR f7 rs2 rs1 f3 rd op) f7 rs2 rs1 f3 rd op := by
  constructor <;> simp only [insF, encR] <;> omega

theorem insF_encI_imm {imm rs1 f3 rd op : Nat} (h1 : rs1 < 32) (h3 : f3 < 8) (hd : rd < 32) (ho : op < 128) :
    insF (encI imm rs1 f3 rd op) 31 20 = imm % 4096 := by
  simp only [insF, encI]
  omega

/-- The I form is the R form with an immediate in the place of its two upper fields. -/
theorem rFields_encI {imm rs1 f3 rd op : Nat} (h1 : rs1 < 32) (h3 : f3 < 8) (hd : rd < 32) (ho : op < 128) :
    RFields (encI imm rs1 f3 rd op) (imm % 4096 / 32) (imm % 32) rs1 f3 rd op := by
  constructor <;> simp only [insF, encI] <;> omega

section
variable (d : Dev) (core : Nat) (k : Core) (q : CoreTask) (w len : Nat) (resp : CoreResp)

theorem Dev.coreStep_op (h : insF w 6 0 = 0x33) :
    d.coreStep core k q w len resp = d.insAlu w (aluOp (insF w 31 25) (insF w 14 12) (k.xr (insF w 19 15)) (k.xr (insF w 24 20))) := by
  unfold Dev.coreStep
  simp only [h]

theorem Dev.coreStep_opImm (h : insF w 6 0 = 0x13) :
    d.coreStep core k q w len resp = d.insAlu w (aluImm (insF w 14 12) (insF w 31 20) (k.xr (insF w 19 15))) := by
  unfold Dev.coreStep
  simp only [h]

theorem Dev.coreStep_lui (h : insF w 6 0 = 0x37) : d.coreStep core k q w len resp = d.insAlu w (some (immU w)) := by
  unfold Dev.coreStep
  simp only [h]

theorem Dev.coreStep_jal (h : insF w 6 0 = 0x6F) :
    d.coreStep core k q w len resp = .goto (k.pc + immJ w) (fun x => x.setX (insF w 11 7) (k.pc + BitVec.ofNat 64 len)) d := by
  unfold Dev.coreStep
  simp only [h]

theorem Dev.coreStep_branch (h : insF w 6 0 = 0x63) {taken : Bool}
    (ht : branchTaken (insF w 14 12) (k.xr (insF w 19 15)) (k.xr (insF w 24 20)) = some taken) :
    d.coreStep core k q w len resp = if taken then .goto (k.pc + immB w) id d else .next id d := by
  unfold Dev.coreStep
  simp only [h, ht]
  cases taken <;> rfl

theorem Dev.coreStep_load (h : insF w 6 0 = 0x03) : d.coreStep core k q w len resp = d.insLoad core k q w resp := by
  unfold Dev.coreStep
  simp only [h]

theorem Dev.coreStep_system (h : insF w 6 0 = 0x73) : d.coreStep core k q w len resp = d.insSystem k w := by
  unfold Dev.coreStep
  simp only [h]

theorem Dev.coreStep_unlisted (h : insF w 6 0 = 0x7F) : d.coreStep core k q w len resp = coreIll d w := by
  unfold Dev.coreStep
  simp only [h]

end

/-- A core's instruction of 32 bits retires after a change of its registers, as the statements write it (R28). -/
def Dev.retired (d : Dev) (core : Nat) (f : Core → Core) : Dev :=
  d.setCores core fun x => let y := f x; { y with pc := y.pc + 4, instret := y.instret + 1, held := none }

section
variable (d : Dev) (core : Nat) (keep : Option (BitVec 32)) (k : Core) (q : CoreTask)

theorem CoreEnd.finish_next (f : Core → Core) : (CoreEnd.next f d).finish core 4 keep k q = d.retired core f := d.updCore_eq_setCores core _

theorem CoreEnd.finish_goto (pc : Word) (f : Core → Core) :
    (CoreEnd.goto pc f d).finish core 4 keep k q = d.setCores core fun x => { f x with pc := pc, instret := (f x).instret + 1, held := none } :=
  d.updCore_eq_setCores core _

theorem CoreEnd.finish_wait (len : Nat) : (CoreEnd.wait d).finish core len keep k q = d.setCores core fun x => { x with held := keep } :=
  d.updCore_eq_setCores core _

end

section
variable {s : State} {core : Nat} {k : Core} {q : CoreTask} (hs : s.runs) (hbusy : s.dev.busyCore core = some (k, q))
include hs hbusy

theorem exec_coreInstruction_free (hheld : k.held = none) (w : BitVec 32) :
    exec (.coreInstruction core w) s = .next { s with dev := s.dev.coreIns core k q w none } := by
  rw [exec_coreInstruction, execCoreInstruction, run_up _ _ hs.1 hs.2, hbusy]
  simp [hheld]

theorem exec_coreMemoryResponse_held {w : BitVec 32} (hheld : k.held = some w) (hnone : ∀ y ∈ s.dev.str.reqs, y.core ≠ some core)
    (err : Option Status) (ext : Word) :
    exec (.coreMemoryResponse core err ext) s = .next { s with dev := s.dev.coreIns core k q w (some (err, ext)) } := by
  have hany : (s.dev.str.reqs.any (·.core == some core)) = false := by simpa using hnone
  rw [exec_coreMemoryResponse, execCoreMemoryResponse, run_up _ _ hs.1 hs.2, hbusy]
  simp [hheld, hany]

end

theorem Dev.coreIns_of_long (d : Dev) (core : Nat) (k : Core) (q : CoreTask) {w : Nat} (hw : w < 2 ^ 32) (h3 : w % 4 = 3) (resp : CoreResp) :
    d.coreIns core k q (BitVec.ofNat 32 w) resp = (d.coreStep core k q w 4 resp).finish core 4 (some (BitVec.ofNat 32 w)) k q := by
  simp only [Dev.coreIns, expandIns_of_long hw h3]

section
variable {s : State} {core : Nat} {k : Core} {q : CoreTask} (hs : s.runs) (hbusy : s.dev.busyCore core = some (k, q)) (hheld : k.held = none)
include hs hbusy hheld

theorem exec_long {w : Nat} (hw : w < 2 ^ 32) (h3 : w % 4 = 3) {e : CoreEnd} (he : s.dev.coreStep core k q w 4 none = e) :
    exec (.coreInstruction core (BitVec.ofNat 32 w)) s = .next { s with dev := e.finish core 4 (some (BitVec.ofNat 32 w)) k q } := by
  rw [exec_coreInstruction_free hs hbusy hheld, Dev.coreIns_of_long _ _ _ _ hw h3, he]

/-- An instruction that computes a word writes it to its register and retires. -/
theorem gives_alu {w rd : Nat} (hw : w < 2 ^ 32) (h3 : w % 4 = 3) (hrd : insF w 11 7 = rd) {v : Word}
    (he : s.dev.coreStep core k q w 4 none = s.dev.insAlu w (some v)) :
    GivesDev (.coreInstruction core (BitVec.ofNat 32 w)) s (s.dev.retired core (·.setX rd v)) := by
  refine (exec_long hs hbusy hheld hw h3 he).trans ?_
  rw [Dev.insAlu, CoreEnd.finish_next, hrd]

section
variable {rd rs1 rs2 : Nat} (hrd : rd < 32) (h1 : rs1 < 32) (h2 : rs2 < 32)
include hrd h1 h2

theorem gives_op {f7 f3 : Nat} (h7 : f7 < 128) (h3 : f3 < 8) {v : Word} (hv : aluOp f7 f3 (k.xr rs1) (k.xr rs2) = some v) :
    GivesDev (.coreInstruction core (BitVec.ofNat 32 (encR f7 rs2 rs1 f3 rd 0x33))) s (s.dev.retired core (·.setX rd v)) := by
  have hf := rFields_encR h7 h2 h1 h3 hrd (by decide : 0x33 < 128)
  refine gives_alu hs hbusy hheld hf.lt (by simp only [encR]; omega) hf.rd ?_
  rw [Dev.coreStep_op _ _ _ _ _ _ _ hf.op, hf.f7, hf.f3, hf.rs1, hf.rs2, hv]

omit hrd in
/-- A conditional branch 16 bytes on (R26). -/
theorem gives_branch {f3 : Nat} (h3 : f3 < 8) {taken : Bool} {p : Prop} (ht : branchTaken f3 (k.xr rs1) (k.xr rs2) = some taken)
    (hp : taken = true ↔ p) :
    let c := Instr.coreInstruction core (BitVec.ofNat 32 (rs2 * 2 ^ 20 + rs1 * 2 ^ 15 + f3 * 2 ^ 12 + 8 * 2 ^ 8 + 0x63))
    (p → GivesDev c s (s.dev.setCores core fun x => { x with pc := k.pc + 16, instret := x.instret + 1, held := none })) ∧
    (¬p → GivesDev c s (s.dev.retired core id)) := by
  have hword : rs2 * 2 ^ 20 + rs1 * 2 ^ 15 + f3 * 2 ^ 12 + 8 * 2 ^ 8 + 0x63 = encR 0 rs2 rs1 f3 16 0x63 := by simp only [encR]; omega
  rw [hword]
  have hf := rFields_encR (by decide : 0 < 128) h2 h1 h3 (by decide : 16 < 32) (by decide : 0x63 < 128)
  have himm : immB (encR 0 rs2 rs1 f3 16 0x63) = 16 := by
    have h31 : insF (encR 0 rs2 rs1 f3 16 0x63) 31 31 = 0 := by simp only [insF, encR]; omega
    have h7 : insF (encR 0 rs2 rs1 f3 16 0x63) 7 7 = 0 := by simp only [insF, encR]; omega
    have h30 : insF (encR 0 rs2 rs1 f3 16 0x63) 30 25 = 0 := by simp only [insF, encR]; omega
    have h11 : insF (encR 0 rs2 rs1 f3 16 0x63) 11 8 = 8 := by simp only [insF, encR]; omega
    rw [immB, h31, h7, h30, h11]
    decide
  have hstep := Dev.coreStep_branch s.dev core k q _ 4 none hf.op (by rw [hf.f3, hf.rs1, hf.rs2]; exact ht)
  have hexec := exec_long hs hbusy hheld hf.lt (by simp only [encR]; omega) hstep
  refine ⟨fun h => ?_, fun h => ?_⟩
  · refine hexec.trans ?_
    rw [if_pos (hp.2 h), CoreEnd.finish_goto, himm]
    rfl
  · refine hexec.trans ?_
    rw [if_neg (fun ht => h (hp.1 ht)), CoreEnd.finish_next]

end

section
variable {rd : Nat} (hrd : rd < 32)
include hrd

theorem gives_addi {rs1 imm : Nat} (h1 : rs1 < 32) (himm : imm < 2 ^ 12) :
    GivesDev (.coreInstruction core (BitVec.ofNat 32 (imm * 2 ^ 20 + rs1 * 2 ^ 15 + rd * 2 ^ 7 + 0x13))) s
      (s.dev.retired core (·.setX rd (k.xr rs1 + (BitVec.ofNat 12 imm).signExtend 64))) := by
  have hword : imm * 2 ^ 20 + rs1 * 2 ^ 15 + rd * 2 ^ 7 + 0x13 = encI imm rs1 0 rd 0x13 := by simp only [encI]; omega
  rw [hword]
  have hf := rFields_encI (imm := imm) h1 (by decide : 0 < 8) hrd (by decide : 0x13 < 128)
  refine gives_alu hs hbusy hheld hf.lt (by simp only [encI]; omega) hf.rd ?_
  rw [Dev.coreStep_opImm _ _ _ _ _ _ _ hf.op, hf.f3, hf.rs1, insF_encI_imm h1 (by decide) hrd (by decide), Nat.mod_eq_of_lt (show imm < 4096 from himm)]
  rfl

theorem gives_lui {imm : Nat} (himm : imm < 2 ^ 20) :
    GivesDev (.coreInstruction core (BitVec.ofNat 32 (imm * 2 ^ 12 + rd * 2 ^ 7 + 0x37))) s
      (s.dev.retired core (·.setX rd ((BitVec.ofNat 32 (imm * 2 ^ 12)).signExtend 64))) := by
  have hop : insF (imm * 2 ^ 12 + rd * 2 ^ 7 + 0x37) 6 0 = 0x37 := by simp only [insF]; omega
  have hfield : insF (imm * 2 ^ 12 + rd * 2 ^ 7 + 0x37) 31 12 = imm := by simp only [insF]; omega
  have himm : immU (imm * 2 ^ 12 + rd * 2 ^ 7 + 0x37) = (BitVec.ofNat 32 (imm * 2 ^ 12)).signExtend 64 :=
    congrArg (fun n => (BitVec.ofNat 32 (n * 4096)).signExtend 64) hfield
  exact gives_alu hs hbusy hheld (by omega) (by omega) (by simp only [insF]; omega) (himm ▸ Dev.coreStep_lui _ _ _ _ _ _ _ hop)

/-- A jump 16 bytes on, with its link (R26). -/
theorem gives_jal :
    GivesDev (.coreInstruction core (BitVec.ofNat 32 (8 * 2 ^ 21 + rd * 2 ^ 7 + 0x6F))) s
      (s.dev.setCores core fun x => { x.setX rd (k.pc + 4) with pc := k.pc + 16, instret := x.instret + 1, held := none }) := by
  have hop : insF (8 * 2 ^ 21 + rd * 2 ^ 7 + 0x6F) 6 0 = 0x6F := by simp only [insF]; omega
  have hfield : insF (8 * 2 ^ 21 + rd * 2 ^ 7 + 0x6F) 11 7 = rd := by simp only [insF]; omega
  have himm : immJ (8 * 2 ^ 21 + rd * 2 ^ 7 + 0x6F) = 16 := by
    have hfields : insF (8 * 2 ^ 21 + rd * 2 ^ 7 + 0x6F) 31 31 * 2 ^ 20 + insF (8 * 2 ^ 21 + rd * 2 ^ 7 + 0x6F) 19 12 * 4096 +
        insF (8 * 2 ^ 21 + rd * 2 ^ 7 + 0x6F) 20 20 * 2048 + insF (8 * 2 ^ 21 + rd * 2 ^ 7 + 0x6F) 30 21 * 2 = 16 := by
      simp only [insF]; omega
    rw [immJ, hfields]
    decide
  refine (exec_long hs hbusy hheld (by omega) (by omega) (Dev.coreStep_jal _ _ _ _ _ _ _ hop)).trans ?_
  rw [CoreEnd.finish_goto, himm, hfield]
  simp only [Core.setX_instret]
  rfl

end

end

/-! ### Loads, system instructions, illegal words (R27, R290, R488) -/

theorem wordOf_signedOf (v : Nat) : wordOf (signedOf 64 v) = BitVec.ofNat 64 v := by
  apply BitVec.eq_of_toNat_eq
  rw [wordOf, BitVec.toNat_ofInt, BitVec.toNat_ofNat, signedOf]
  split <;> omega

/-- The word of a doubleword load without an offset. -/
def ldWord (rs1 rd : Nat) : Nat := rs1 * 2 ^ 15 + 3 * 2 ^ 12 + rd * 2 ^ 7 + 0x03

theorem ldWord_eq_encI (rs1 rd : Nat) : ldWord rs1 rd = encI 0 rs1 3 rd 0x03 := by simp only [ldWord, encI]; omega

theorem coreStep_ldWord {rd rs1 : Nat} (hrd : rd < 32) (h1 : rs1 < 32) (d : Dev) (core : Nat) (k : Core) (q : CoreTask) (resp : CoreResp) :
    d.coreStep core k q (ldWord rs1 rd) 4 resp =
      (d.coreRead core q.tag .read false (vaRange (k.xr rs1).toNat 8) resp).andThen fun bs x => x.setX rd (BitVec.ofNat 64 (leNat bs)) := by
  have hf := rFields_encI (imm := 0) h1 (by decide : 3 < 8) hrd (by decide : 0x03 < 128)
  have himm : immI (encI 0 rs1 3 rd 0x03) = 0 := by rw [immI, insF_encI_imm h1 (by decide) hrd (by decide)]; decide
  rw [ldWord_eq_encI, Dev.coreStep_load _ _ _ _ _ _ _ hf.op]
  unfold Dev.insLoad
  simp only [hf.f3, hf.rs1, hf.rd, himm]
  simp [wordOf_signedOf]

section
variable {d : Dev} {core : Nat} {k : Core} {q : CoreTask} {rd rs1 pa : Nat} {resp : CoreResp} {w : BitVec 32}
  (hrd : rd < 32) (h1 : rs1 < 32)
  (hpas : d.corePas q.tag .read (vaRange (k.xr rs1).toNat 8) = .ok ((List.range 8).map (pa + ·)))
  (hpool : inPool (pa + 7) = true) (hfit : pa % 64 ≤ 56) (hresp : resp.bind (·.1) = none)
include hrd h1 hpas hpool hfit hresp

/-- A load of a line that the L2 holds: its doubleword, or the end of the task (R290). -/
theorem finish_ldWord_of_cline {x : CLine} (hx : d.cline? core (pa / 64) = some x) :
    (d.coreStep core k q (ldWord rs1 rd) 4 resp).finish core 4 (some w) k q =
      if x.poisoned then d.endTask core .poisonConsumed
      else d.retired core (·.setX rd (BitVec.ofNat 64 (x.data.toNat / 2 ^ (8 * (pa % 64)) % 2 ^ 64))) := by
  have has := inLine_range (n := 8) (by decide) hpool (by omega)
  have hbytes : ((List.range 8).map (pa + ·)).map (fun a => lineByte x.data (a % 64)) = (List.range 8).map fun i => lineByte x.data (pa % 64 + i) := by
    rw [List.map_map]
    refine List.map_congr_left fun i hi => ?_
    have hi := List.mem_range.1 hi
    rw [Function.comp_apply, show (pa + i) % 64 = pa % 64 + i by omega]
  rw [coreStep_ldWord hrd h1, Dev.coreRead_of_cline hpas has hresp hx]
  split
  · rfl
  · rw [CoreMem.andThen, CoreEnd.finish_next, hbytes, leNat_lineBytes]

omit hresp in
/-- A load of a line that the L2 lacks and may not ask for holds the instruction. -/
theorem finish_ldWord_of_no_cline (hx : d.cline? core (pa / 64) = none) (hask : d.mayAsk core (pa / 64) = false) :
    (d.coreStep core k q (ldWord rs1 rd) 4 resp).finish core 4 (some w) k q = d.setCores core fun x => { x with held := some w } := by
  have has := inLine_range (n := 8) (by decide) hpool (by omega)
  rw [coreStep_ldWord hrd h1, Dev.coreRead_of_no_cline hpas has hx hask, CoreMem.andThen, CoreEnd.finish_wait]

end

section
variable {s : State} {core : Nat} {k : Core} {q : CoreTask} (hs : s.runs) (hbusy : s.dev.busyCore core = some (k, q)) (hheld : k.held = none)
include hs hbusy hheld

theorem exec_coreInstruction_zero : exec (.coreInstruction core 0) s = .next { s with dev := s.dev.coreExc core 2 0 } := by
  rw [exec_coreInstruction_free hs hbusy hheld]
  rfl

/-- A word of an opcode that no extension has is illegal. -/
theorem exec_coreInstruction_unlisted (w : BitVec 32) (hw : w.toNat % 128 = 0x7F) :
    exec (.coreInstruction core w) s = .next { s with dev := s.dev.coreExc core 2 (w.setWidth 64) } := by
  have hop : insF w.toNat 6 0 = 0x7F := by simpa [insF] using hw
  have h := exec_long hs hbusy hheld w.isLt (by omega) (Dev.coreStep_unlisted s.dev core k q w.toNat 4 none hop)
  rw [BitVec.ofNat_toNat, BitVec.setWidth_eq] at h
  refine h.trans ?_
  rw [coreIll, CoreEnd.finish, BitVec.ofNat_toNat]

theorem exec_coreInstruction_ebreak : exec (.coreInstruction core 0x00100073) s = .next { s with dev := s.dev.coreExc core 3 k.pc } :=
  exec_long hs hbusy hheld (w := 0x00100073) (by decide) (by decide) (Dev.coreStep_system s.dev core k q 0x00100073 4 none (by decide))

theorem exec_coreInstruction_ecall : exec (.coreInstruction core 0x73) s = .next { s with dev := s.dev.ecall core k q } :=
  exec_long hs hbusy hheld (w := 0x73) (by decide) (by decide) (Dev.coreStep_system s.dev core k q 0x73 4 none (by decide))

end

/-! ### Cache-block operations (R296) -/

section
variable {d : Dev} {core : Nat} {k : Core} {q : CoreTask} (hbusy : d.busyCore core = some (k, q)) (hheld : k.held = none)
include hbusy hheld

theorem Dev.cboCmd_of_busy (f : CoreTask → CoreMem Unit) : d.cboCmd core f = ((f q).andThen fun _ x => x).finish core 4 none k q := by
  simp [Dev.cboCmd, hbusy, hheld]

variable {va : Nat} (flush : Bool)

theorem Dev.cboCmd_of_ended {st : Status} (hx : d.xlate q.tag va .read = .ended st) :
    d.cboCmd core (fun t => d.coreCbo core t.tag va flush none) = d.endTask core st := by
  rw [Dev.cboCmd_of_busy hbusy hheld, Dev.coreCbo, hx]
  rfl

variable {pa : Nat} (hx : d.xlate q.tag va .read = .pa pa)
include hx

theorem Dev.cboCmd_outside (hpool : inPool pa = false) :
    d.cboCmd core (fun t => d.coreCbo core t.tag va flush none) = d.retired core id := by
  rw [Dev.cboCmd_of_busy hbusy hheld, Dev.coreCbo, hx]
  simp only [hpool, Bool.not_false, if_true, CoreMem.andThen, CoreEnd.finish_next]
  rfl

theorem Dev.cboCmd_asks (hpool : inPool pa = true) (hask : d.mayAsk core (pa / 64) = true) :
    d.cboCmd core (fun t => d.coreCbo core t.tag va flush none) =
      (d.homeRequest (pa / 64) (if flush then .flush core else .clean core)).retired core id := by
  rw [Dev.cboCmd_of_busy hbusy hheld, Dev.coreCbo, hx]
  simp only [hpool, hask, Bool.not_true, Bool.false_eq_true, if_true, if_false, CoreMem.andThen, CoreEnd.finish_next]
  rfl

theorem Dev.cboCmd_waits (hpool : inPool pa = true) (hask : d.mayAsk core (pa / 64) = false) :
    d.cboCmd core (fun t => d.coreCbo core t.tag va flush none) = d.setCores core fun x => { x with held := none } := by
  rw [Dev.cboCmd_of_busy hbusy hheld, Dev.coreCbo, hx]
  simp only [hpool, hask, Bool.not_true, Bool.false_eq_true, if_false, CoreMem.andThen, CoreEnd.finish_wait]

end

/-! ### Register accesses (R13, R14, R519, R571, R576, R577) -/

theorem regOffset_of_mem {x : Nat} (h1 : 0x7F0000000000 ≤ x) (h2 : x < 0x7F0000000000 + 15 * 2 ^ 24) :
    regOffset x = some (x - 0x7F0000000000) := if_pos ⟨h1, h2⟩

theorem regOffset_of_not_mem {x : Nat} (h : x < 0x7F0000000000 ∨ 0x7F0000000000 + 15 * 2 ^ 24 ≤ x) : regOffset x = none := by
  refine if_neg fun ⟨h1, h2⟩ => ?_
  rw [regBase] at h1 h2
  omega

theorem Dev.misaligned_register (d : Dev) {x : Nat} (h1 : 0x7F0000000000 ≤ x) (h2 : x < 0x7F0000000000 + 15 * 2 ^ 24) :
    d.misaligned x = d.event 0 0 1 ((x - 0x7F0000000000) / 2 ^ 24) x 0 0 := by
  rw [Dev.misaligned, regOffset_of_mem h1 h2]

theorem Dev.misaligned_doorbell (d : Dev) {x : Nat} (h1 : 0x7F0000000000 + 2 ^ 36 ≤ x) (h2 : x < 0x7F0000000000 + 2 ^ 36 + 2 ^ 25) :
    d.misaligned x = d.event 0 0 1 15 x 0 0 := by
  rw [Dev.misaligned, regOffset_of_not_mem (Or.inr (by omega))]
  exact if_pos ⟨h1, h2⟩

theorem Dev.misaligned_elsewhere (d : Dev) {x : Nat}
    (h : x < 0x7F0000000000 ∨ (0x7F0000000000 + 15 * 2 ^ 24 ≤ x ∧ x < 0x7F0000000000 + 2 ^ 36) ∨ 0x7F0000000000 + 2 ^ 36 + 2 ^ 25 ≤ x) :
    d.misaligned x = d := by
  rw [Dev.misaligned, regOffset_of_not_mem (by omega)]
  refine if_neg fun ⟨h1, h2⟩ => ?_
  rw [regBase] at h1 h2
  omega

section
variable {s : State} (hs : s.runs)
include hs

theorem gives_misalignedAccess (isW : Bool) (x w : Nat) :
    GivesDev (.misalignedRegisterAccess isW x w) s (if x % 8 = 0 ∧ w = 8 then s.dev else s.dev.misaligned x) := by
  rw [GivesDev, exec_misalignedRegisterAccess, execMisalignedRegisterAccess, run_up _ _ hs.1 hs.2]

variable (x : Nat) (v : Word)

omit hs in
theorem gives_registerWrite_outside (h : x < 0x7F0000000000 ∨ 0x7F0000000000 + 15 * 2 ^ 24 ≤ x) :
    GivesDev (.registerWrite x v) s s.dev := by
  rw [GivesDev, exec_registerWrite, execRegisterWrite, regOffset_of_not_mem h]
  simp

variable {x} (h1 : 0x7F0000000000 ≤ x) (h2 : x < 0x7F0000000000 + 15 * 2 ^ 24)
include h1 h2

theorem gives_registerWrite_misaligned (h8 : x % 8 ≠ 0) :
    GivesDev (.registerWrite x v) s (s.dev.event 0 0 1 ((x - 0x7F0000000000) / 2 ^ 24) x 0 0) := by
  rw [GivesDev, exec_registerWrite, execRegisterWrite, regOffset_of_mem h1 h2, Dev.misaligned_register _ h1 h2]
  simp [hs.1, hs.2, h8]

theorem exec_registerWrite_aligned (h8 : x % 8 = 0) :
    exec (.registerWrite x v) s = .next (writeRegister (x - 0x7F0000000000) v s) := by
  rw [exec_registerWrite, execRegisterWrite, regOffset_of_mem h1 h2]
  simp [hs.1, hs.2, h8]

end

section
variable {d : Dev} {off : Nat} (v : Word) (early : Bool)

theorem Dev.regGate_end (hend : d.lcState = 5) (hoff : off ≠ TDM_OPEN_DUMP.reg) : d.regGate off v early = some (d.event 15 0 5 0 0 0 0) :=
  if_pos ⟨hend, hoff⟩

theorem Dev.regGate_notReady (hend : d.lcState ≠ 5) (hdisc : d.discStopped = false) (hready : d.rd GLB_STATUS_READY = 0) :
    d.regGate off v false = some (d.discard off v) := by
  have hend' : ¬d.rd SEC_LC_STATE_STATE = 5 := hend
  simp [Dev.regGate, hend', hdisc, hready]

theorem Dev.regGate_ready (hend : d.lcState ≠ 5) (hdisc : d.discStopped = false) (hready : d.rd GLB_STATUS_READY = 1) :
    d.regGate off v early = none := by
  have hend' : ¬d.rd SEC_LC_STATE_STATE = 5 := hend
  simp [Dev.regGate, hend', hdisc, hready]

end

section
variable {s : State} {off : Nat} (v : Word)

theorem writeRegister_unmapped (h : regMapAt off = none) : writeRegister off v s = s := by simp [writeRegister, h]

variable {m : RegMap} (hmap : regMapAt off = some m)
include hmap

theorem writeRegister_closed {d : Dev} (hgate : s.dev.regGate off v (openEarly off) = some d) :
    writeRegister off v s = { s with dev := d } := by
  simp [writeRegister, hmap, hgate]

theorem writeRegister_open (hgate : s.dev.regGate off v (openEarly off) = none) (hsec : off ≠ SEC_CMD_GO.reg) :
    writeRegister off v s = { s with dev := s.dev.regWrite off v } := by
  simp [writeRegister, hmap, hgate, hsec]

theorem Dev.regWrite_out_of_range (d : Dev) (hrange : rangeOk m.base v = false) : d.regWrite off v = d.discard off v := by
  simp [Dev.regWrite, Dev.regPut, hmap, hrange, Dev.orDiscard]

end

/-- A write in the register blocks that is ready for it, of a value that the ranges refuse, is discarded with its event (R577). -/
theorem writeRegister_out_of_range {s : State} {off : Nat} {m : RegMap} (v : Word) (hready : s.ready) (hmap : regMapAt off = some m)
    (hrange : rangeOk m.base v = false) (hsec : off ≠ SEC_CMD_GO.reg) : writeRegister off v s = { s with dev := s.dev.discard off v } := by
  obtain ⟨-, hup, hend, hdisc⟩ := hready
  rw [writeRegister_open v hmap (Dev.regGate_ready v _ hend hdisc hup) hsec, Dev.regWrite_out_of_range v hmap _ hrange]

/-! ### PWR_CAP (R576, Table 20.10) -/

/-- The map of PWR_CAP. -/
def pwrCapMap : RegMap :=
  ⟨0xd000018, [], [⟨63, 48, .rw, 0xd48, false⟩, ⟨47, 32, .rw, 0xc1c, false⟩, ⟨31, 16, .rw, 0x64, false⟩]⟩

theorem regMapAt_pwrCap : regMapAt 0xD000018 = some pwrCapMap := by decide

theorem regRanges_pwrCap :
    regRanges.filter (fun r => r.1.reg == 0xD000018) = [(PWR_CAP_CAP_W, 2000, 3400), (PWR_CAP_LOWER_MS, 1, 65535)] := by decide

theorem rangeOk_pwrCap (v : Word) :
    rangeOk 0xD000018 v = true ↔ 2000 ≤ fieldOf v 63 48 ∧ fieldOf v 63 48 ≤ 3400 ∧ fieldOf v 47 32 < fieldOf v 63 48 ∧ 1 ≤ fieldOf v 31 16 := by
  have hms : fieldOf v 31 16 < 2 ^ 16 := Nat.mod_lt _ (by decide)
  have hall : regRanges.all (fun r => r.1.reg != 0xD000018 || (decide (r.2.1 ≤ fieldOf v r.1.hi r.1.lo) && decide (fieldOf v r.1.hi r.1.lo ≤ r.2.2))) =
      [(PWR_CAP_CAP_W, 2000, 3400), (PWR_CAP_LOWER_MS, 1, 65535)].all fun r =>
        decide (r.2.1 ≤ fieldOf v r.1.hi r.1.lo) && decide (fieldOf v r.1.hi r.1.lo ≤ r.2.2) := by
    rw [← regRanges_pwrCap, List.all_filter]
    rfl
  have hties : rangeOk 0xD000018 v = ([(PWR_CAP_CAP_W, 2000, 3400), (PWR_CAP_LOWER_MS, 1, 65535)].all (fun r =>
        decide (r.2.1 ≤ fieldOf v r.1.hi r.1.lo) && decide (fieldOf v r.1.hi r.1.lo ≤ r.2.2)) && decide (fieldOf v 47 32 < fieldOf v 63 48)) := by
    rw [rangeOk, hall]
    simp +decide only [if_false, if_true]
  simp only [hties, List.all_cons, List.all_nil, Bool.and_true, Bool.and_eq_true, decide_eq_true_eq, PWR_CAP_CAP_W, PWR_CAP_LOWER_MS]
  omega

theorem regEffect_pwrCap (d : Dev) (v : Word) : d.regEffect 0xD000018 0xD000018 v = some (d.plainWrite 0xD000018 v) := by
  simp +decide only [Dev.regEffect, if_false]

/-- PWR_CAP after a plain write: its three fields are those of the value. -/
theorem rd_plainWrite_pwrCap (d : Dev) (v : Word) :
    (d.plainWrite 0xD000018 v).rd PWR_CAP_CAP_W = fieldOf v 63 48 ∧
    (d.plainWrite 0xD000018 v).rd PWR_CAP_LOW_W = fieldOf v 47 32 ∧
    (d.plainWrite 0xD000018 v).rd PWR_CAP_LOWER_MS = fieldOf v 31 16 := by
  have hmod : ∀ hi lo, fieldOf v hi lo % 2 ^ (hi + 1 - lo) = fieldOf v hi lo := fun hi lo => Nat.mod_mod _ _
  have hword : (d.plainWrite 0xD000018 v).word 0xD000018 =
      withField (withField (withField (d.word 0xD000018) 63 48 (fieldOf v 63 48)) 47 32 (fieldOf v 47 32)) 31 16 (fieldOf v 31 16) := by
    rw [Dev.plainWrite, regMapAt_pwrCap, Dev.word_setWord, if_pos rfl]
    rfl
  refine ⟨?_, ?_, ?_⟩
  · rw [Dev.rd, show PWR_CAP_CAP_W.reg = 0xD000018 from rfl, hword]
    show fieldOf _ 63 48 = _
    rw [fieldOf_withField_disjoint _ _ _ _ _ _ (by decide) (by decide) (by decide) (by decide),
      fieldOf_withField_disjoint _ _ _ _ _ _ (by decide) (by decide) (by decide) (by decide),
      fieldOf_withField_same _ _ _ _ (by decide) (by decide), hmod]
  · rw [Dev.rd, show PWR_CAP_LOW_W.reg = 0xD000018 from rfl, hword]
    show fieldOf _ 47 32 = _
    rw [fieldOf_withField_disjoint _ _ _ _ _ _ (by decide) (by decide) (by decide) (by decide),
      fieldOf_withField_same _ _ _ _ (by decide) (by decide), hmod]
  · rw [Dev.rd, show PWR_CAP_LOWER_MS.reg = 0xD000018 from rfl, hword]
    show fieldOf _ 31 16 = _
    rw [fieldOf_withField_same _ _ _ _ (by decide) (by decide), hmod]

theorem plainWrite_pwrCap_regsKept (d : Dev) (v : Word) : RegsKept d (d.plainWrite 0xD000018 v) [PWR_CAP_CAP_W.reg] := by
  intro off hoff
  have hne : off ≠ 0xD000018 := fun h => hoff (List.mem_singleton.2 h)
  rw [Dev.plainWrite, regMapAt_pwrCap, Dev.word_setWord, if_neg hne]

theorem Dev.plainWrite_frame (d : Dev) (off : Nat) (v : Word) : d.plainWrite off v = { d with regs := (d.plainWrite off v).regs } := by
  unfold Dev.plainWrite
  split <;> rfl

/-- A write of PWR_CAP in its ranges takes effect, and nothing is told to a partner. -/
theorem writeRegister_pwrCap {s : State} (v : Word) (hready : s.ready) (hrange : rangeOk 0xD000018 v = true) :
    writeRegister 0xD000018 v s = { s with dev := s.dev.plainWrite 0xD000018 v } := by
  obtain ⟨-, hup, hend, hdisc⟩ := hready
  have hput : s.dev.regPut 0xD000018 v = some (s.dev.plainWrite 0xD000018 v) := by
    rw [Dev.regPut, regMapAt_pwrCap]
    exact (if_pos hrange).trans (regEffect_pwrCap s.dev v)
  have hforwarded : forwarded 0xD000018 = false := by decide
  rw [writeRegister_open v regMapAt_pwrCap (Dev.regGate_ready v _ hend hdisc hup) (by decide), Dev.regWrite, hput, hforwarded]
  rfl

/-! ### CORE_TASK by the core that its number names (R357, R368, R452, R487) -/

/-- The number that an entry's CORE names, or the one picked for 0xFF. -/
def coreNumber (o : FeOp) (pick : Nat) : Nat := if entF o.entry 56 1 = 0xFF then pick else entF o.entry 56 1

/-- A core is free for a task: its cluster is ACTIVE and it runs none. -/
def Dev.coreFree (d : Dev) (core : Nat) : Prop :=
  (cacheAgent core).any (fun a => d.agentState a == 0) = true ∧ d.coreTask? core = none

section
variable {s : State} {o : FeOp} (h : s.opReady o 6) (pick : Nat)
include h

theorem exec_coreTask_ready (f : Dev → Dev) (hf : execCoreTask o.id pick = run f) : GivesDev (.coreTask o.id pick) s (f s.dev) := by
  rw [GivesDev, exec_coreTask, hf, run_up _ _ h.1.1 h.1.2]

theorem coreTask_no_number (hn : 63 < coreNumber o pick) : GivesDev (.coreTask o.id pick) s s.dev := by
  have hexec := exec_coreTask_ready h pick _ rfl
  simp only [h.ready?] at hexec
  rwa [if_pos (by exact hn)] at hexec

variable (hn : coreNumber o pick ≤ 63)
include hn

section
variable (hphys : s.dev.physCore (coreNumber o pick / 32) (coreNumber o pick % 32) = none)
include hphys

theorem coreTask_no_core : GivesDev (.coreTask o.id pick) s (if entF o.entry 56 1 = 0xFF then s.dev else s.dev.conclude o.id .resourceLost) := by
  have hexec := exec_coreTask_ready h pick _ rfl
  simp only [h.ready?] at hexec
  rw [if_neg (by exact Nat.not_lt.2 hn)] at hexec
  dsimp only [coreNumber] at hphys
  rwa [hphys] at hexec

theorem coreTask_lost (hnamed : entF o.entry 56 1 ≠ 0xFF) (hw : s.dev.isWindward = false) :
    Concludes (.coreTask o.id pick) s o .resourceLost 0 0 := by
  have hexec := coreTask_no_core h pick hn hphys
  rw [if_neg hnamed] at hexec
  exact concludes_of_exec _ h hw hexec

end

section
variable {p : Nat} (hphys : s.dev.physCore (coreNumber o pick / 32) (coreNumber o pick % 32) = some p)
include hphys

theorem coreTask_present :
    GivesDev (.coreTask o.id pick) s <|
      if coreNumber o pick / 32 = 1 ∧ s.dev.engineAway 18 then (if entF o.entry 56 1 = 0xFF then s.dev else s.dev.conclude o.id .targetReset)
      else if !(cacheAgent (33 * (coreNumber o pick / 32) + p)).any (fun a => s.dev.agentState a == 0) ∨
        (s.dev.coreTask? (33 * (coreNumber o pick / 32) + p)).isSome then s.dev
      else s.dev.startTask o (33 * (coreNumber o pick / 32) + p) := by
  have hexec := exec_coreTask_ready h pick _ rfl
  simp only [h.ready?] at hexec
  rw [if_neg (by exact Nat.not_lt.2 hn)] at hexec
  dsimp only [coreNumber] at hphys
  rwa [hphys] at hexec

section
variable (haway : coreNumber o pick / 32 = 1 ∧ s.dev.engineAway 18 = true)
include haway

theorem coreTask_away_picked (hnamed : entF o.entry 56 1 = 0xFF) : GivesDev (.coreTask o.id pick) s s.dev := by
  have hexec := coreTask_present h pick hn hphys
  rwa [if_pos haway, if_pos hnamed] at hexec

theorem coreTask_away_named (hnamed : entF o.entry 56 1 ≠ 0xFF) (hw : s.dev.isWindward = false) :
    Concludes (.coreTask o.id pick) s o .targetReset 0 0 := by
  have hexec := coreTask_present h pick hn hphys
  rw [if_pos haway, if_neg hnamed] at hexec
  exact concludes_of_exec _ h hw hexec

end

section
variable (haway : ¬(coreNumber o pick / 32 = 1 ∧ s.dev.engineAway 18 = true))
include haway

theorem coreTask_waits (hbusy : ¬s.dev.coreFree (33 * (coreNumber o pick / 32) + p)) : GivesDev (.coreTask o.id pick) s s.dev := by
  have hexec := coreTask_present h pick hn hphys
  rwa [if_neg haway, if_pos] at hexec
  refine Classical.byContradiction fun hfree => ?_
  obtain ⟨hactive, hnone⟩ := not_or.1 hfree
  exact hbusy ⟨by simpa only [Bool.not_eq_true', Bool.not_eq_false] using hactive, Option.not_isSome_iff_eq_none.1 hnone⟩

theorem coreTask_starts (hfree : s.dev.coreFree (33 * (coreNumber o pick / 32) + p)) :
    GivesDev (.coreTask o.id pick) s (s.dev.startTask o (33 * (coreNumber o pick / 32) + p)) := by
  have hexec := coreTask_present h pick hn hphys
  rwa [if_neg haway, if_neg] at hexec
  simp [hfree.1, hfree.2]

end
end
end

/-! ### Commands of a core (R29, R368, R488) -/

section
variable {s : State} (hs : s.runs) {core : Nat}
include hs

/-- A core without a task takes none of the commands of a core in a task. -/
theorem gives_of_not_busy (hidle : s.dev.busyCore core = none) (cause : Nat) (tval va : Word) (w : BitVec 32) (e : Option Status) (x : Word) :
    ∀ c ∈ [Instr.coreTaskReturn core, .ecallEnq core, .ecallFsig core, .ecallExit core, .ecallOther core, .coreException core cause tval,
      .cboClean core va, .cboFlush core va, .cboInval core va, .cboZero core va, .coreInstruction core w, .coreMemoryResponse core e x],
      GivesDev c s s.dev := by
  have hcall : ∀ p, s.dev.ecallIf core p = s.dev := fun p => by simp [Dev.ecallIf, hidle]
  have hcbo : ∀ f, s.dev.cboCmd core f = s.dev := fun f => by simp [Dev.cboCmd, hidle]
  simp only [List.forall_mem_cons, List.not_mem_nil, GivesDev, exec_coreTaskReturn, exec_ecallEnq, exec_ecallFsig, exec_ecallExit, exec_ecallOther, exec_coreException,
    exec_cboClean, exec_cboFlush, exec_cboInval, exec_cboZero, exec_coreInstruction, exec_coreMemoryResponse, execCoreTaskReturn, execEcallEnq, execEcallFsig,
    execEcallExit, execEcallOther, execCoreException, execCboClean, execCboFlush, execCboInval, execCboZero, execCoreInstruction, execCoreMemoryResponse,
    run_up _ _ hs.1 hs.2, hcall, hcbo, hidle]
  simp

variable {k : Core} {q : CoreTask} (hbusy : s.dev.busyCore core = some (k, q))
include hbusy

/-- A core that holds an instruction takes no other. -/
theorem gives_of_held {w : BitVec 32} (hheld : k.held = some w) (va : Word) (v : BitVec 32) :
    ∀ c ∈ [Instr.coreTaskReturn core, .ecallEnq core, .ecallFsig core, .ecallExit core, .ecallOther core,
      .cboClean core va, .cboFlush core va, .cboInval core va, .cboZero core va, .coreInstruction core v],
      GivesDev c s s.dev := by
  have hcall := Dev.ecallIf_of_held hbusy hheld
  have hcbo : ∀ f, s.dev.cboCmd core f = s.dev := fun f => by simp [Dev.cboCmd, hbusy, hheld]
  simp only [List.forall_mem_cons, List.not_mem_nil, GivesDev, exec_coreTaskReturn, exec_ecallEnq, exec_ecallFsig, exec_ecallExit, exec_ecallOther,
    exec_cboClean, exec_cboFlush, exec_cboInval, exec_cboZero, exec_coreInstruction, execCoreTaskReturn, execEcallEnq, execEcallFsig,
    execEcallExit, execEcallOther, execCboClean, execCboFlush, execCboInval, execCboZero, execCoreInstruction,
    run_up _ _ hs.1 hs.2, hcall, hcbo, hbusy, hheld]
  simp

end

/-! ### What a started task leaves (R28, R357, R368) -/

theorem gives_taskStarts {c : Instr} {s : State} {o : FeOp} {core : Nat} (h : s.opReady o 6) (hexec : GivesDev c s (s.dev.startTask o core)) :
    Gives c s fun t => OpBecomes s t o { o with unit := core, phase := .running, start := s.dev.tick } ∧
      (∀ x, x.id ≠ core → (x ∈ t.dev.cores.cores ↔ x ∈ s.dev.cores.cores)) ∧ (∃ k, t.dev.core? core = some k ∧ TaskCore o k) ∧
      t = { s with dev := { s.dev with
        fe := { s.dev.fe with ops := t.dev.fe.ops }, cores := { s.dev.cores with cores := t.dev.cores.cores }, fresh := t.dev.fresh } } := by
  obtain ⟨-, hop, hphase, -⟩ := h
  have hops := fun j => s.dev.op?_startTask o core j hop hphase
  exact ⟨_, hexec, ⟨(hops o.id).trans (if_pos rfl), fun j hj => (hops j).trans (if_neg hj)⟩, s.dev.mem_startTask_cores o core,
    s.dev.startTask_core o core, rfl⟩

/-! ### The command that an ECALL names (R29, R368) -/

/-- The command of an ECALL by the value of a7. -/
def ecallCommand (core n : Nat) : Instr :=
  if n = 0x100 then .ecallEnq core else if n = 0x101 then .ecallFsig core else if n = 0x102 then .ecallExit core else .ecallOther core

theorem ecallCommand_mem (core n : Nat) :
    ecallCommand core n ∈ [Instr.ecallEnq core, .ecallFsig core, .ecallExit core, .ecallOther core] := by
  unfold ecallCommand
  repeat' split
  all_goals simp only [List.mem_cons, true_or, or_true]

section
variable {core n : Nat}

theorem ecallCommand_eq_enq : ecallCommand core n = .ecallEnq core ↔ n = 0x100 := by grind [ecallCommand]
theorem ecallCommand_eq_fsig : ecallCommand core n = .ecallFsig core ↔ n = 0x101 := by grind [ecallCommand]
theorem ecallCommand_eq_exit : ecallCommand core n = .ecallExit core ↔ n = 0x102 := by grind [ecallCommand]
theorem ecallCommand_eq_other : ecallCommand core n = .ecallOther core ↔ n ∉ [0x100, 0x101, 0x102] := by grind [ecallCommand]

end

/-! ### The device after a call (R361, R368) -/

/-- An answered call, as the statements write it: a0 holds the status code, and the core goes on behind the ECALL. -/
def Dev.callAnswered (d : Dev) (core st : Nat) : Dev := d.setCores core fun x => { x.setX 10 (BitVec.ofNat 64 st) with pc := x.pc + 4 }

/-- The device after an entry joins a device-owned queue whose tail is counted in a field. -/
def Dev.enqueued (d : Dev) (qid parent : Nat) (e : BitVec 1024) (tail : Fld) : Dev :=
  (d.updQueue qid fun q => { q with devRing := q.devRing ++ [(e, parent)] }).wr tail (d.rd tail + 1)

section
variable (d : Dev) (core st qid parent : Nat) (e : BitVec 1024) (tail : Fld)

theorem Dev.enqueued_cores : (d.enqueued qid parent e tail).cores = d.cores := rfl

theorem Dev.callAnswered_cores_congr {d d' : Dev} (h : d.cores = d'.cores) :
    (d.callAnswered core st).cores = (d'.callAnswered core st).cores := by
  unfold Dev.callAnswered Dev.setCores
  rw [h]

theorem Dev.rd_enqueued_tail (hh : tail.hi < 64) (hl : tail.lo ≤ tail.hi) :
    (d.enqueued qid parent e tail).rd tail = (d.rd tail + 1) % 2 ^ (tail.hi + 1 - tail.lo) := Dev.rd_wr_same _ _ _ hh hl

theorem Dev.enqueued_regsKept : RegsKept d (d.enqueued qid parent e tail) [tail.reg] :=
  fun _ hoff => Dev.word_wr_ne _ _ _ _ fun heq => hoff (List.mem_singleton.2 heq)

theorem Dev.queue?_enqueued {u : Queue} (hq : d.queue? qid = some u) :
    ((d.enqueued qid parent e tail).queue? qid).map (·.devRing) = some (u.devRing ++ [(e, parent)]) := by
  have h := d.queue?_updQueue qid qid (fun q => { q with devRing := q.devRing ++ [(e, parent)] }) fun _ => rfl
  rw [if_pos rfl, hq] at h
  exact congrArg (Option.map Queue.devRing) h

/-- What an answered call that enqueued an entry leaves, in a queue whose tail is a field of 32 bits. -/
theorem Dev.enqueued_callAnswered {u : Queue} (hq : d.queue? qid = some u) (hhi : tail.hi = 31) (hlo : tail.lo = 0) :
    let d' := (d.enqueued qid parent e tail).callAnswered core st
    d'.cores = (d.callAnswered core st).cores ∧ d'.rd tail = (d.rd tail + 1) % 2 ^ 32 ∧ RegsKept d d' [tail.reg] ∧
      (d'.queue? qid).map (·.devRing) = some (u.devRing ++ [(e, parent)]) ∧ d'.pool = d.pool := by
  have hrd := d.rd_enqueued_tail qid parent e tail (by omega) (by omega)
  rw [hhi, hlo] at hrd
  exact ⟨Dev.callAnswered_cores_congr core st (d.enqueued_cores qid parent e tail), hrd, d.enqueued_regsKept qid parent e tail,
    d.queue?_enqueued qid parent e tail hq, rfl⟩

end

section
variable {s : State} {core : Nat} {k : Core} {q : CoreTask} (hs : s.runs) (hbusy : s.dev.busyCore core = some (k, q))
include hs hbusy

theorem exec_coreException_busy (cause : Nat) (tval : Word) :
    exec (.coreException core cause tval) s = .next { s with dev := s.dev.coreExc core cause tval } := by
  rw [exec_coreException, execCoreException, run_up _ _ hs.1 hs.2, hbusy]

variable (hheld : k.held = none)
include hheld

/-- A response answers no core that holds no instruction. -/
theorem gives_coreMemoryResponse_free (e : Option Status) (x : Word) : GivesDev (.coreMemoryResponse core e x) s s.dev := by
  rw [GivesDev, exec_coreMemoryResponse, execCoreMemoryResponse, run_up _ _ hs.1 hs.2, hbusy]
  simp [hheld]

theorem exec_coreTaskReturn_free : exec (.coreTaskReturn core) s = .next { s with dev := s.dev.endTask core .ok } := by
  rw [exec_coreTaskReturn, execCoreTaskReturn, run_up _ _ hs.1 hs.2, hbusy]
  simp [hheld]

/-! ### ECALL (R29, R361, R367, R368) -/

/-- Of the four commands the one of a7 performs the call, the others change nothing. -/
theorem exec_ecall : ∀ c ∈ [Instr.ecallEnq core, .ecallFsig core, .ecallExit core, .ecallOther core],
    GivesDev c s (if c = ecallCommand core (k.xr 17).toNat then s.dev.ecall core k q else s.dev) := by
  simp only [List.forall_mem_cons, GivesDev, exec_ecallEnq, exec_ecallFsig, exec_ecallExit, exec_ecallOther, execEcallEnq, execEcallFsig, execEcallExit,
    execEcallOther, run_up _ _ hs.1 hs.2, Dev.ecallIf_of_busy hbusy hheld, ecallCommand]
  by_cases h0 : (k.xr 17).toNat = 0x100
  · simp [h0]
  by_cases h1 : (k.xr 17).toNat = 0x101
  · simp [h1]
  by_cases h2 : (k.xr 17).toNat = 0x102
  · simp [h2]
  · simp [h0, h1, h2]

theorem gives_ecallExit (h : (k.xr 17).toNat = 0x102) : Gives (.ecallExit core) s (TaskEnds s core q .ok ((k.xr 10).setWidth 32) []) := by
  have hexec := exec_ecall hs hbusy hheld (.ecallExit core) (by simp)
  rw [if_pos (by simp [ecallCommand, h]), Dev.ecall_exit h] at hexec
  exact gives_taskEnds hbusy _ _ hexec

theorem gives_ecallOther (h : (k.xr 17).toNat ∉ [0x100, 0x101, 0x102]) : Gives (.ecallOther core) s (TaskEnds s core q .notPermitted 0 []) := by
  have hexec := exec_ecall hs hbusy hheld (.ecallOther core) (by simp)
  rw [if_pos (by simp_all [ecallCommand]), Dev.ecall_other h] at hexec
  exact gives_taskEnds hbusy _ _ hexec

theorem gives_ecallFsig (h : (k.xr 17).toNat = 0x101) :
    GivesDev (.ecallFsig core) s ((s.dev.fsig q.tag ((s.dev.op? q.op).elim 0 (·.qid)) (k.xr 10).toNat (k.xr 11)).callAnswered core 0) := by
  have hexec := exec_ecall hs hbusy hheld (.ecallFsig core) (by simp)
  rwa [if_pos (by simp [ecallCommand, h]), Dev.ecall_fsig h, Dev.ecallFsig, Dev.ecallAnswer_eq] at hexec

section
variable (h : (k.xr 17).toNat = 0x100)
include h

theorem gives_ecallEnq : GivesDev (.ecallEnq core) s (s.dev.ecallEnq core k q) := by
  have hexec := exec_ecall hs hbusy hheld (.ecallEnq core) (by simp)
  rwa [if_pos (by simp [ecallCommand, h]), Dev.ecall_enq h] at hexec

theorem gives_ecallEnq_ended {st : Status} (hg : s.dev.vgather q.tag (k.xr 10).toNat 128 = .error (.ended st)) :
    Gives (.ecallEnq core) s (TaskEnds s core q st 0 []) := by
  have hexec := gives_ecallEnq hs hbusy hheld h
  rw [Dev.ecallEnq_of_ended hg] at hexec
  exact gives_taskEnds hbusy _ _ hexec

theorem gives_ecallEnq_waits (hg : s.dev.vgather q.tag (k.xr 10).toNat 128 = .error .waits) : GivesDev (.ecallEnq core) s s.dev := by
  have hexec := gives_ecallEnq hs hbusy hheld h
  rwa [Dev.ecallEnq_of_waits hg] at hexec

variable {bs : List (Byte × Bool)} (hg : s.dev.vgather q.tag (k.xr 10).toNat 128 = .ok (s.dev, bs))
include hg

theorem gives_ecallEnq_poisoned (hpoison : bs.any (·.2) = true) : Gives (.ecallEnq core) s (TaskEnds s core q .poisonConsumed 0 []) := by
  have hexec := gives_ecallEnq hs hbusy hheld h
  rw [Dev.ecallEnq_of_gathered hg, if_pos hpoison] at hexec
  exact gives_taskEnds hbusy _ _ hexec

variable (hclean : bs.any (·.2) = false)
include hclean

theorem gives_ecallEnq_enqueue {d : Dev} {st : Status} (henq : s.dev.enqueue q.tag (k.xr 11).toNat q.op (bs.map Prod.fst) = (d, st)) :
    GivesDev (.ecallEnq core) s (d.callAnswered core (statusCode st)) := by
  have hexec := gives_ecallEnq hs hbusy hheld h
  rwa [Dev.ecallEnq_of_gathered hg, if_neg (by simp [hclean]), henq, Dev.ecallAnswer_eq] at hexec

/-- ENQ of a queue with room: its entry carries the tail's stamp, and the tail counts it (R361). -/
theorem gives_ecallEnq_ok {u : Queue} (hq : s.dev.queue? (k.xr 11).toNat = some u) (howned : s.dev.rd (FE_Q_STATE_DEVICE_OWNED (k.xr 11).toNat) = 1)
    (htag : s.dev.rd (FE_Q_STATE_TAG (k.xr 11).toNat) = q.tag) (hstate : s.dev.qState (k.xr 11).toNat ≠ 6) (hroom : u.devRing.length < 2 ^ u.sqLog2) :
    Gives (.ecallEnq core) s fun t =>
      let tail := FE_Q_COUNT_TAIL (k.xr 11).toNat
      t.dev.cores = (s.dev.callAnswered core 0).cores ∧ t.dev.rd tail = (s.dev.rd tail + 1) % 2 ^ 32 ∧ RegsKept s.dev t.dev [tail.reg] ∧
      (∃ e, (t.dev.queue? (k.xr 11).toNat).map (·.devRing) = some (u.devRing ++ [(e, q.op)]) ∧ entF e 4 4 = (s.dev.rd tail + 1) % 2 ^ 32 ∧
        ∀ i, i < 128 → i < 4 ∨ 8 ≤ i → entF e i 1 = ((bs.map Prod.fst).getD i 0).toNat) ∧
      t.dev.pool = s.dev.pool := by
  have hlen : (bs.map Prod.fst).length = 128 := (List.length_map _).trans (Dev.vgather_length hg)
  have henq := Dev.enqueue_ok q.op (bs.map Prod.fst) hq howned htag hstate hroom
  have hexec := gives_ecallEnq_enqueue hs hbusy hheld h hg hclean henq
  obtain ⟨hcores, hrd, hregs, hring, hpool⟩ :=
    s.dev.enqueued_callAnswered core 0 (k.xr 11).toNat q.op (stampedEntry (s.dev.rd (FE_Q_COUNT_TAIL (k.xr 11).toNat)) (bs.map Prod.fst))
      (FE_Q_COUNT_TAIL (k.xr 11).toNat) hq rfl rfl
  exact ⟨_, hexec, hcores, hrd, hregs, ⟨_, hring, entF_stampedEntry_stamp _ hlen, entF_stampedEntry_byte _ hlen⟩, hpool⟩

end

end

/-! ### Comparisons of words -/

theorem bitW_slt (x y : Word) : bitW (x.slt y) = if x.toInt < y.toInt then 1 else 0 := by simp [bitW, BitVec.slt]

theorem bitW_ult (x y : Word) : bitW (x.ult y) = if x.toNat < y.toNat then 1 else 0 := by simp [bitW, BitVec.ult]

theorem not_slt_iff (x y : Word) : (!x.slt y) = true ↔ y.toInt ≤ x.toInt := by simp [BitVec.slt]

theorem not_ult_iff (x y : Word) : (!x.ult y) = true ↔ y.toNat ≤ x.toNat := by simp [BitVec.ult]

/-! ### The line that CBO.ZERO leaves (R290, R296) -/

section
variable (d : Dev) (x : CLine)

theorem Dev.cline?_putLine : (d.putLine x).cline? x.cache x.line = some x := by
  rw [Dev.cline?, Dev.putLine]
  refine (List.find?_append ..).trans ?_
  have hfilter : (d.coh.lines.filter fun y => !(y.cache == x.cache && y.line == x.line)).find? (fun y => y.cache == x.cache && y.line == x.line) = none :=
    List.find?_eq_none.2 fun y hy => by simpa only [Bool.not_eq_true', Bool.not_eq_true] using (List.mem_filter.1 hy).2
  rw [hfilter]
  simp

theorem Dev.mem_putLine (y : CLine) (hy : ¬(y.cache = x.cache ∧ y.line = x.line)) : y ∈ (d.putLine x).coh.lines ↔ y ∈ d.coh.lines := by
  have hne : y ≠ x := fun h => hy (h ▸ ⟨rfl, rfl⟩)
  show y ∈ (d.coh.lines.filter fun y => !(y.cache == x.cache && y.line == x.line)) ++ [x] ↔ _
  simp only [List.mem_append, List.mem_filter, List.mem_singleton, hne, or_false, and_iff_left_iff_imp]
  simp only [Bool.not_eq_true', Bool.and_eq_false_imp, beq_iff_eq, beq_eq_false_iff_ne]
  exact fun _ hcache hline => hy ⟨hcache, hline⟩

end

theorem Dev.cline?_key {d : Dev} {core l : Nat} {x : CLine} (h : d.cline? core l = some x) : x.cache = core ∧ x.line = l := by
  simpa using List.find?_some h

section
variable {s : State} {core : Nat} {k : Core} {q : CoreTask} (hs : s.runs) (hbusy : s.dev.busyCore core = some (k, q)) (hheld : k.held = none)
include hs hbusy hheld

theorem gives_cboZero_owned {va : Word} {l : Nat} {x : CLine}
    (hpas : s.dev.corePas q.tag .write (vaRange (va.toNat / 64 * 64) 64) = .ok ((List.range 64).map (64 * l + ·)))
    (hpool : inPool (64 * l + 63) = true) (hx : s.dev.cline? core l = some x) (hown : x.st ≠ .s) :
    Gives (.cboZero core va) s fun t =>
      (∃ y, t.dev.cline? core l = some y ∧ y.st = .m ∧ y.data = 0 ∧ y.poisoned = false) ∧
      (∀ y, ¬(y.cache = core ∧ y.line = l) → (y ∈ t.dev.coh.lines ↔ y ∈ s.dev.coh.lines)) ∧
      t.dev.cores = (s.dev.retired core id).cores ∧ t.dev.pool = s.dev.pool ∧ t.dev.regs = s.dev.regs := by
  obtain ⟨rfl, rfl⟩ := Dev.cline?_key hx
  have hexec : exec (.cboZero x.cache va) s =
      .next { s with dev := (s.dev.putLine { x with st := .m, data := 0, poisoned := false }).retired x.cache id } := by
    rw [exec_cboZero, execCboZero, run_up _ _ hs.1 hs.2, Dev.cboCmd_of_busy hbusy hheld, Dev.coreZero_owned hpas hpool hx hown, CoreMem.andThen,
      CoreEnd.finish_next]
    rfl
  exact ⟨_, hexec, ⟨_, s.dev.cline?_putLine { x with st := .m, data := 0, poisoned := false }, rfl, rfl, rfl⟩,
    s.dev.mem_putLine { x with st := .m, data := 0, poisoned := false }, rfl, rfl, rfl⟩

/-! ### CBO.CLEAN, CBO.FLUSH and CBO.INVAL -/

omit hbusy hheld in
/-- The three operations that ask the home are one, but for the request. -/
theorem gives_cbo (va : Word) : ∀ c ∈ [(Instr.cboClean core va, HomeReq.clean core), (.cboFlush core va, .flush core), (.cboInval core va, .flush core)],
    ∃ flush : Bool, c.2 = (if flush then .flush core else .clean core) ∧
      GivesDev c.1 s (s.dev.cboCmd core fun t => s.dev.coreCbo core t.tag va.toNat flush none) := by
  simp only [List.forall_mem_cons, List.not_mem_nil, GivesDev, exec_cboClean, exec_cboFlush, exec_cboInval, execCboClean, execCboFlush, execCboInval,
    run_up _ _ hs.1 hs.2]
  exact ⟨⟨false, rfl, rfl⟩, ⟨true, rfl, rfl⟩, ⟨true, rfl, rfl⟩, fun _ h => h.elim⟩

theorem gives_cbo_ended (va : Word) {st : Status} (hx : s.dev.xlate q.tag va.toNat .read = .ended st) :
    ∀ c ∈ [Instr.cboClean core va, .cboFlush core va, .cboInval core va], Gives c s (TaskEnds s core q st 0 []) := by
  intro c hc
  have hpair : ∃ r, (c, r) ∈ [(Instr.cboClean core va, HomeReq.clean core), (.cboFlush core va, .flush core), (.cboInval core va, .flush core)] := by
    simpa [or_comm, exists_or] using hc
  obtain ⟨r, hr⟩ := hpair
  obtain ⟨flush, -, hexec⟩ := gives_cbo hs va _ hr
  rw [Dev.cboCmd_of_ended hbusy hheld flush hx] at hexec
  exact gives_taskEnds hbusy _ _ hexec

theorem gives_cbo_translated (va : Word) {pa : Nat} (hx : s.dev.xlate q.tag va.toNat .read = .pa pa) :
    ∀ c ∈ [(Instr.cboClean core va, HomeReq.clean core), (.cboFlush core va, .flush core), (.cboInval core va, .flush core)],
      (inPool pa = false → GivesDev c.1 s (s.dev.retired core id)) ∧
      (inPool pa = true → s.dev.mayAsk core (pa / 64) = true → GivesDev c.1 s ((s.dev.homeRequest (pa / 64) c.2).retired core id)) ∧
      (inPool pa = true → s.dev.mayAsk core (pa / 64) = false → GivesDev c.1 s (s.dev.setCores core fun x => { x with held := none })) := by
  intro c hc
  obtain ⟨flush, hreq, hexec⟩ := gives_cbo hs va c hc
  refine ⟨fun hpool => ?_, fun hpool hask => ?_, fun hpool hask => ?_⟩
  · rwa [Dev.cboCmd_outside hbusy hheld flush hx hpool] at hexec
  · rwa [Dev.cboCmd_asks hbusy hheld flush hx hpool hask, ← hreq] at hexec
  · rwa [Dev.cboCmd_waits hbusy hheld flush hx hpool hask] at hexec

/-! ### ECALL as an instruction word -/

/-- A call's command does nothing while a7 names another call. -/
theorem gives_ecall_unnamed {c : Instr} (hc : c ∈ [Instr.ecallEnq core, .ecallFsig core, .ecallExit core, .ecallOther core])
    (hne : c ≠ ecallCommand core (k.xr 17).toNat) : GivesDev c s s.dev := by
  have hexec := exec_ecall hs hbusy hheld c hc
  rwa [if_neg hne] at hexec

theorem gives_ecall_unnamed_code : ∀ c ∈ ([(0x100, .ecallEnq core), (0x101, .ecallFsig core), (0x102, .ecallExit core)] : List (Nat × Instr)),
    (k.xr 17).toNat ≠ c.1 → GivesDev c.2 s s.dev := by
  simp only [List.forall_mem_cons]
  refine ⟨fun hne => ?_, fun hne => ?_, fun hne => ?_, fun _ hc => absurd hc List.not_mem_nil⟩
  all_goals
    refine gives_ecall_unnamed hs hbusy hheld (by simp) fun hcommand => hne ?_
  · exact ecallCommand_eq_enq.1 hcommand.symm
  · exact ecallCommand_eq_fsig.1 hcommand.symm
  · exact ecallCommand_eq_exit.1 hcommand.symm

theorem gives_ecallOther_named (h : (k.xr 17).toNat ∈ [0x100, 0x101, 0x102]) : GivesDev (.ecallOther core) s s.dev := by
  exact gives_ecall_unnamed hs hbusy hheld (by simp) fun hcommand => ecallCommand_eq_other.1 hcommand.symm h

/-- The word of ECALL does what the command of a7 does. -/
theorem exec_ecallWord : exec (.coreInstruction core 0x73) s = exec (ecallCommand core (k.xr 17).toNat) s := by
  have hcommand := exec_ecall hs hbusy hheld _ (ecallCommand_mem core (k.xr 17).toNat)
  rw [if_pos rfl] at hcommand
  exact (exec_coreInstruction_ecall hs hbusy hheld).trans hcommand.symm

omit hheld

/-- A response while a request of the core is still out changes nothing. -/
theorem gives_coreMemoryResponse_asked {w : BitVec 32} (hheld : k.held = some w) (hasked : ∃ y ∈ s.dev.str.reqs, y.core = some core)
    (e : Option Status) (x : Word) : GivesDev (.coreMemoryResponse core e x) s s.dev := by
  have hany : s.dev.str.reqs.any (·.core == some core) = true := by simpa using hasked
  rw [GivesDev, exec_coreMemoryResponse, execCoreMemoryResponse, run_up _ _ hs.1 hs.2, hbusy]
  simp [hheld, hany]

/-! ### A load, issued or answered (R27, R290) -/

/-- The commands that perform a held or a new instruction. -/
theorem exec_loadCommand {w : BitVec 32} {c : Instr}
    (hc : (k.held = none ∧ c = Instr.coreInstruction core w) ∨
      (k.held = some w ∧ (∀ y ∈ s.dev.str.reqs, y.core ≠ some core) ∧ ∃ x, c = .coreMemoryResponse core none x)) :
    ∃ resp : CoreResp, resp.bind (·.1) = none ∧ exec c s = .next { s with dev := s.dev.coreIns core k q w resp } := by
  rcases hc with ⟨hheld, rfl⟩ | ⟨hheld, hnone, x, rfl⟩
  · exact ⟨none, rfl, exec_coreInstruction_free hs hbusy hheld w⟩
  · exact ⟨some (none, x), rfl, exec_coreMemoryResponse_held hs hbusy hheld hnone none x⟩

theorem gives_ld {rd rs1 pa : Nat} (hrd : rd < 32) (h1 : rs1 < 32)
    (hpas : s.dev.corePas q.tag .read (vaRange (k.xr rs1).toNat 8) = .ok ((List.range 8).map (pa + ·)))
    (hpool : inPool (pa + 7) = true) (hfit : pa % 64 ≤ 56) {c : Instr}
    (hc : (k.held = none ∧ c = Instr.coreInstruction core (BitVec.ofNat 32 (ldWord rs1 rd))) ∨
      (k.held = some (BitVec.ofNat 32 (ldWord rs1 rd)) ∧ (∀ y ∈ s.dev.str.reqs, y.core ≠ some core) ∧ ∃ x, c = .coreMemoryResponse core none x)) :
    (∀ x, s.dev.cline? core (pa / 64) = some x →
      (x.poisoned = false → GivesDev c s (s.dev.retired core (·.setX rd (BitVec.ofNat 64 (x.data.toNat / 2 ^ (8 * (pa % 64)) % 2 ^ 64))))) ∧
      (x.poisoned = true → Gives c s (TaskEnds s core q .poisonConsumed 0 []))) ∧
    (s.dev.cline? core (pa / 64) = none → s.dev.mayAsk core (pa / 64) = false →
      GivesDev c s (s.dev.setCores core fun x => { x with held := some (BitVec.ofNat 32 (ldWord rs1 rd)) })) := by
  obtain ⟨resp, hresp, hexec⟩ := exec_loadCommand hs hbusy hc
  rw [Dev.coreIns_of_long _ _ _ _ (by simp only [ldWord]; omega) (by simp only [ldWord]; omega)] at hexec
  refine ⟨fun x hx => ?_, fun hx hask => ?_⟩
  · rw [finish_ldWord_of_cline hrd h1 hpas hpool hfit hresp hx] at hexec
    refine ⟨fun hclean => ?_, fun hpoison => ?_⟩
    · rwa [if_neg (by simp [hclean])] at hexec
    · rw [if_pos hpoison] at hexec
      exact gives_taskEnds hbusy _ _ hexec
  · rwa [finish_ldWord_of_no_cline hrd h1 hpas hpool hfit hx hask] at hexec

end

/-! ### Register writes by their address (R13, R14, R519, R571, R576) -/

section
variable {s : State} (hs : s.runs) {x : Nat} (v : Word) (h1 : 0x7F0000000000 ≤ x) (h2 : x < 0x7F0000000000 + 15 * 2 ^ 24) (h8 : x % 8 = 0)
include hs h1 h2 h8

theorem gives_registerWrite_unmapped (hmap : regMapAt (x - 0x7F0000000000) = none) : GivesDev (.registerWrite x v) s s.dev :=
  (exec_registerWrite_aligned hs v h1 h2 h8).trans (congrArg _ (writeRegister_unmapped v hmap))

variable {m : RegMap} (hmap : regMapAt (x - 0x7F0000000000) = some m)
include hmap

theorem gives_registerWrite_closed {d : Dev} (hgate : s.dev.regGate (x - 0x7F0000000000) v (openEarly (x - 0x7F0000000000)) = some d) :
    GivesDev (.registerWrite x v) s d :=
  (exec_registerWrite_aligned hs v h1 h2 h8).trans (congrArg _ (writeRegister_closed v hmap hgate))

omit hs h2 h8 hmap in
/-- The event of a discarded write names the write's address. -/
theorem Dev.discard_eq (d : Dev) :
    d.discard (x - 0x7F0000000000) v = d.event 0 0 2 ((x - 0x7F0000000000) / 2 ^ 24) x v.toNat 0 := by
  rw [Dev.discard, regBase, Nat.add_sub_cancel' h1]

theorem gives_registerWrite_end (hend : s.dev.lcState = 5) (hoff : x - 0x7F0000000000 ≠ TDM_OPEN_DUMP.reg) :
    GivesDev (.registerWrite x v) s (s.dev.event 15 0 5 0 0 0 0) :=
  gives_registerWrite_closed hs v h1 h2 h8 hmap (Dev.regGate_end v _ hend hoff)

theorem gives_registerWrite_early (hend : s.dev.lcState ≠ 5) (hdisc : s.dev.discStopped = false) (hready : s.dev.rd GLB_STATUS_READY = 0)
    (hearly : openEarly (x - 0x7F0000000000) = false) :
    GivesDev (.registerWrite x v) s (s.dev.event 0 0 2 ((x - 0x7F0000000000) / 2 ^ 24) x v.toNat 0) := by
  refine gives_registerWrite_closed hs v h1 h2 h8 hmap ?_
  rw [hearly, Dev.regGate_notReady v hend hdisc hready, Dev.discard_eq v h1]

theorem gives_registerWrite_out_of_range (hready : s.ready) (hrange : rangeOk m.base v = false) (hsec : x - 0x7F0000000000 ≠ SEC_CMD_GO.reg) :
    GivesDev (.registerWrite x v) s (s.dev.event 0 0 2 ((x - 0x7F0000000000) / 2 ^ 24) x v.toNat 0) := by
  refine (exec_registerWrite_aligned hs v h1 h2 h8).trans (congrArg _ ?_)
  rw [writeRegister_out_of_range v hready hmap hrange hsec, Dev.discard_eq v h1]

end

/-! ### A write of PWR_CAP by the fields of its value (R576, Table 20.10) -/

theorem fieldOf_pwrCap (v : Word) :
    fieldOf v 63 48 = v.toNat / 2 ^ 48 ∧ fieldOf v 47 32 = v.toNat / 2 ^ 32 % 2 ^ 16 ∧ fieldOf v 31 16 = v.toNat / 2 ^ 16 % 2 ^ 16 := by
  have hv := v.isLt
  refine ⟨?_, rfl, rfl⟩
  exact Nat.mod_eq_of_lt (by omega)

section
variable {s : State} (v : Word) (hready : s.ready)
include hready

theorem exec_pwrCap : exec (.registerWrite (0x7F0000000000 + 0xD000018) v) s = .next (writeRegister 0xD000018 v s) :=
  exec_registerWrite_aligned hready.1 v (x := 0x7F0000000000 + 0xD000018) (by decide) (by decide) (by decide)

omit hready in
/-- The ranges of PWR_CAP and its one tie, by the value's parts. -/
theorem rangeOk_pwrCap_toNat :
    rangeOk 0xD000018 v = true ↔ 2000 ≤ v.toNat / 2 ^ 48 ∧ v.toNat / 2 ^ 48 ≤ 3400 ∧
      v.toNat / 2 ^ 32 % 2 ^ 16 < v.toNat / 2 ^ 48 ∧ 1 ≤ v.toNat / 2 ^ 16 % 2 ^ 16 := by
  obtain ⟨hcap, hlow, hms⟩ := fieldOf_pwrCap v
  rw [rangeOk_pwrCap, hcap, hlow, hms]

theorem gives_pwrCap (hrange : rangeOk 0xD000018 v = true) :
    Gives (.registerWrite (0x7F0000000000 + 0xD000018) v) s fun t =>
      t.dev.rd PWR_CAP_CAP_W = v.toNat / 2 ^ 48 ∧ t.dev.rd PWR_CAP_LOW_W = v.toNat / 2 ^ 32 % 2 ^ 16 ∧
      t.dev.rd PWR_CAP_LOWER_MS = v.toNat / 2 ^ 16 % 2 ^ 16 ∧ RegsKept s.dev t.dev [PWR_CAP_CAP_W.reg] ∧
      t = { s with dev := { s.dev with regs := t.dev.regs } } := by
  obtain ⟨hcap, hlow, hms⟩ := rd_plainWrite_pwrCap s.dev v
  obtain ⟨fcap, flow, fms⟩ := fieldOf_pwrCap v
  refine ⟨_, (exec_pwrCap v hready).trans (congrArg _ (writeRegister_pwrCap v hready hrange)), hcap.trans fcap, hlow.trans flow, hms.trans fms,
    plainWrite_pwrCap_regsKept s.dev v, ?_⟩
  exact congrArg (fun d => ({ s with dev := d } : State)) (s.dev.plainWrite_frame 0xD000018 v)

theorem gives_pwrCap_discard (hrange : rangeOk 0xD000018 v = false) :
    GivesDev (.registerWrite (0x7F0000000000 + 0xD000018) v) s (s.dev.discard 0xD000018 v) :=
  (exec_pwrCap v hready).trans (congrArg _ (writeRegister_out_of_range v hready regMapAt_pwrCap hrange (by decide)))

end

/-! ### The obligation -/

/-- Settles O60, by the lemmas on CORE_TASK, on each command of a core in a task, on its instructions, and on register writes. -/
theorem coresTasksAndRegisterWrites : Obligations.CoresTasksAndRegisterWrites := by
  unfold Obligations.CoresTasksAndRegisterWrites
  intro s hs d sets
  refine ⟨fun o h pick => ?_, fun core hidle cause tval va w e x => gives_of_not_busy hs hidle cause tval va w e x, fun core k q hbusy => ?_, ?_⟩
  -- CORE_TASK
  · intro named n core away free lacks
    refine ⟨coreTask_no_number h pick, fun hn hlacks => ⟨fun hpicked => ?_, coreTask_lost h pick hn hlacks⟩, fun hn hhas haway => ?_, fun hn hhas haway => ?_⟩
    · have hexec := coreTask_no_core h pick hn hlacks
      rwa [if_pos hpicked] at hexec
    all_goals obtain ⟨p, hphys⟩ := Option.ne_none_iff_exists'.1 hhas
    · exact ⟨coreTask_away_picked h pick hn hphys haway, coreTask_away_named h pick hn hphys haway⟩
    · have hcore : core = 33 * (coreNumber o pick / 32) + p := congrArg (fun x => 33 * (n / 32) + Option.getD x 0) hphys
      refine ⟨fun hbusy => ?_, fun hfree => ?_⟩
      · exact coreTask_waits h pick hn hphys haway (hcore ▸ hbusy)
      · have hexec := coreTask_starts h pick hn hphys haway (hcore ▸ hfree)
        rw [← hcore] at hexec
        exact gives_taskStarts h hexec
  -- a core in a task
  · intro ends exc a answered retired
    refine ⟨fun cause tval => gives_coreExc hbusy cause tval (exec_coreException_busy hs hbusy cause tval),
      fun w x y hheld => gives_of_held hs hbusy hheld x y, fun hheld => ?_, ?_, ?_⟩
    · intro n
      refine ⟨gives_coreMemoryResponse_free hs hbusy hheld, gives_taskEnds hbusy .ok 0 (exec_coreTaskReturn_free hs hbusy hheld),
        gives_ecall_unnamed_code hs hbusy hheld, gives_ecallOther_named hs hbusy hheld, gives_ecallExit hs hbusy hheld,
        gives_ecallOther hs hbusy hheld, fun h => ?_, fun h => ?_, fun va => ?_, fun rd rs1 rs2 hrd h1 h2 => ?_,
        gives_coreExc hbusy 2 0 (exec_coreInstruction_zero hs hbusy hheld),
        fun w hw => gives_coreExc hbusy 2 _ (exec_coreInstruction_unlisted hs hbusy hheld w hw),
        gives_coreExc hbusy 3 k.pc (exec_coreInstruction_ebreak hs hbusy hheld), fun c _ => ?_⟩
      -- ECALL FSIG
      · intro qid i mine
        have hexec := gives_ecallFsig hs hbusy hheld h
        rw [Dev.fsig_eq] at hexec
        refine ⟨fun hmine => ?_, fun hmine => ?_⟩
        · rwa [if_pos hmine] at hexec
        · rwa [if_neg (ne_true_of_eq_false hmine)] at hexec
      -- ECALL ENQ
      · refine ⟨fun st => gives_ecallEnq_ended hs hbusy hheld h, gives_ecallEnq_waits hs hbusy hheld h, fun bs hg => ?_⟩
        refine ⟨gives_ecallEnq_poisoned hs hbusy hheld h hg, fun hclean => ⟨fun hinvalid => ?_, fun u hq howned htag hstate => ⟨fun hfull => ?_, ?_⟩⟩⟩
        · exact gives_ecallEnq_enqueue hs hbusy hheld h hg hclean (Dev.enqueue_invalid _ _ _ _ _ hinvalid)
        · exact gives_ecallEnq_enqueue hs hbusy hheld h hg hclean (Dev.enqueue_busy _ _ hq howned htag hstate hfull)
        · exact gives_ecallEnq_ok hs hbusy hheld h hg hclean hq howned htag hstate
      -- cache-block operations
      · exact ⟨fun st => gives_cbo_ended hs hbusy hheld va, fun pa => gives_cbo_translated hs hbusy hheld va,
          fun l x hpas hpool hx hown => gives_cboZero_owned hs hbusy hheld hpas hpool hx hown⟩
      -- arithmetic, LUI, branches and JAL
      · intro writes r
        have hop := @gives_op s core k q hs hbusy hheld rd rs1 rs2 hrd h1 h2
        have hbranch := @gives_branch s core k q hs hbusy hheld rs1 rs2 h1 h2
        refine ⟨hop (f7 := 0) (f3 := 0) (by decide) (by decide) rfl, hop (f7 := 0x20) (f3 := 0) (by decide) (by decide) rfl,
          hop (f7 := 0) (f3 := 1) (by decide) (by decide) rfl, hop (f7 := 0) (f3 := 2) (by decide) (by decide) (congrArg some (bitW_slt _ _)),
          hop (f7 := 0) (f3 := 3) (by decide) (by decide) (congrArg some (bitW_ult _ _)), hop (f7 := 0) (f3 := 4) (by decide) (by decide) rfl,
          hop (f7 := 0) (f3 := 5) (by decide) (by decide) rfl, hop (f7 := 0x20) (f3 := 5) (by decide) (by decide) rfl,
          hop (f7 := 0) (f3 := 6) (by decide) (by decide) rfl, hop (f7 := 0) (f3 := 7) (by decide) (by decide) rfl,
          hop (f7 := 1) (f3 := 0) (by decide) (by decide) rfl, fun imm => gives_addi hs hbusy hheld hrd h1, fun imm => gives_lui hs hbusy hheld hrd,
          ⟨hbranch (f3 := 0) (by decide) rfl beq_iff_eq, hbranch (f3 := 1) (by decide) rfl bne_iff_ne, hbranch (f3 := 4) (by decide) rfl BitVec.slt_iff_toInt_lt,
            hbranch (f3 := 5) (by decide) rfl (not_slt_iff _ _), hbranch (f3 := 6) (by decide) rfl BitVec.ult_iff_lt, hbranch (f3 := 7) (by decide) rfl (not_ult_iff _ _)⟩,
          gives_jal hs hbusy hheld hrd⟩
      -- ECALL's word does what a7 names
      · rcases Classical.em (c = ecallCommand core n) with rfl | hne
        · exact .inr (exec_ecallWord hs hbusy hheld)
        · exact .inl hne
    -- a load, issued or answered
    · intro rd rs1 pa _ hrd h1 hpas hpool hfit w c hc
      exact gives_ld hs hbusy hrd h1 hpas hpool hfit hc
    · exact fun w e x hheld hasked => gives_coreMemoryResponse_asked hs hbusy hheld hasked e x
  -- register accesses
  · intro base rep
    refine ⟨fun x isW w => ?_, fun x v => ⟨gives_registerWrite_outside x v, gives_registerWrite_misaligned hs v, fun h1 h2 h8 => ?_⟩, fun hready v => ?_⟩
    · have hexec := gives_misalignedAccess hs isW x w
      refine ⟨fun haligned => ?_, fun hodd h1 h2 => ?_, fun hodd h1 h2 => ?_, fun hodd h => ?_⟩
      · rwa [if_pos haligned] at hexec
      · rwa [if_neg hodd, Dev.misaligned_register _ h1 h2] at hexec
      · rwa [if_neg hodd, Dev.misaligned_doorbell _ h1 h2] at hexec
      · rwa [if_neg hodd, Dev.misaligned_elsewhere _ h] at hexec
    · intro off gone
      exact ⟨gives_registerWrite_unmapped hs v h1 h2 h8, fun m hmap => ⟨gives_registerWrite_end hs v h1 h2 h8 hmap,
        gives_registerWrite_early hs v h1 h2 h8 hmap, gives_registerWrite_out_of_range hs v h1 h2 h8 hmap⟩⟩
    · intro cap low ms
      refine ⟨fun hmin hmax hlow hms => gives_pwrCap v hready ((rangeOk_pwrCap_toNat v).2 ⟨hmin, hmax, hlow, hms⟩), fun hout => ?_⟩
      exact gives_pwrCap_discard v hready (Bool.eq_false_iff.2 fun hrange => hout ((rangeOk_pwrCap_toNat v).1 hrange))

end Sys2Proof.Machine
end

section
/-! PROOFS. Lane instructions that compute: what a result leaves in the registers and predicates of every lane, what an illegal form does to its launch, and the FP32 and FP64 classes. -/

namespace Sys2Proof.Machine

/-! ### Registers and predicates of a lane (R162) -/

@[simp] theorem Threads.reg_zero (t : Threads) (lk : Nat) : t.reg lk 0 = 0 := rfl

/-- A register after a write of one: V0 ignores it, and each lane has its own (a pair from V255 names no 257th register). -/
theorem Threads.reg_setReg (t : Threads) {lk r lk' r' : Nat} (v : Nat) (hr : r ≤ 256) (hr' : r' < 256) (h0 : r' ≠ 0) :
    (t.setReg lk r v).reg lk' r' = if lk' = lk ∧ r' = r then v % 2 ^ 32 else t.reg lk' r' := by
  have hkey : lk' * 256 + r' = lk * 256 + r ↔ lk' = lk ∧ r' = r := by omega
  rcases Classical.em (r = 0) with rfl | hr0
  · simp [Threads.setReg, h0]
  · simp only [Threads.setReg, Threads.reg, hr0, h0, if_false, sget_sput, hkey]
    split
    · exact BitVec.toNat_ofNat v 32
    · rfl

theorem Threads.reg_setPair (t : Threads) {lk r lk' r' : Nat} (v : Nat) (hr : r < 256) (hr' : r' < 256) (h0 : r' ≠ 0) :
    (t.setPair lk r v).reg lk' r' =
      if lk' = lk ∧ r' = r then v % 2 ^ 32 else if lk' = lk ∧ r' = r + 1 then v / 2 ^ 32 % 2 ^ 32 else t.reg lk' r' := by
  rw [Threads.setPair, Threads.reg_setReg _ _ (by omega) hr' h0, Threads.reg_setReg _ _ (by omega) hr' h0]
  by_cases hsame : lk' = lk ∧ r' = r
  · rw [if_neg (by omega), if_pos hsame, if_pos hsame]
  · rw [if_neg hsame, if_neg hsame]

theorem Threads.pred_setPred (t : Threads) (lk p lk' p' : Nat) (b : Bool) :
    (t.setPred lk p b).pred lk' p' = if p' % 8 ≠ 0 ∧ lk' = lk ∧ p' % 8 = p % 8 then b else t.pred lk' p' := by
  have hkey : lk' * 8 + p' % 8 = lk * 8 + p % 8 ↔ lk' = lk ∧ p' % 8 = p % 8 := by omega
  by_cases hp : p % 8 = 0
  · rw [Threads.setPred, if_pos hp, if_neg (by omega)]
  · by_cases hp' : p' % 8 = 0
    · simp [Threads.pred, hp']
    · simp [Threads.setPred, Threads.pred, hp, hp', hkey]

@[simp] theorem Threads.setReg_pred (t : Threads) (lk r v lk' p : Nat) : (t.setReg lk r v).pred lk' p = t.pred lk' p := by
  unfold Threads.setReg
  split <;> rfl

@[simp] theorem Threads.setPair_pred (t : Threads) (lk r v lk' p : Nat) : (t.setPair lk r v).pred lk' p = t.pred lk' p := by
  simp [Threads.setPair]

@[simp] theorem Threads.setPred_reg (t : Threads) (lk p : Nat) (b : Bool) (lk' r : Nat) : (t.setPred lk p b).reg lk' r = t.reg lk' r := by
  unfold Threads.setPred
  split <;> rfl

/-- Writes of registers and predicates change nothing else of the thread state. -/
theorem Threads.setReg_frame (t : Threads) (lk r v : Nat) :
    t.setReg lk r v = { t with v := (t.setReg lk r v).v, p := (t.setReg lk r v).p } := by
  unfold Threads.setReg
  split <;> rfl

theorem Threads.setPair_frame (t : Threads) (lk r v : Nat) :
    t.setPair lk r v = { t with v := (t.setPair lk r v).v, p := (t.setPair lk r v).p } := by
  unfold Threads.setPair
  rw [Threads.setReg_frame (t.setReg lk r v), Threads.setReg_frame t]

theorem Threads.setPred_frame (t : Threads) (lk p : Nat) (b : Bool) :
    t.setPred lk p b = { t with v := (t.setPred lk p b).v, p := (t.setPred lk p b).p } := by
  unfold Threads.setPred
  split <;> rfl

/-! ### One lane's result -/

@[simp] theorem Dev.putRes_nothing (d : Dev) (lk rd : Nat) : (d.putRes lk rd .nothing).thr = d.thr := rfl
@[simp] theorem Dev.putRes_r32 (d : Dev) (lk rd v : Nat) : (d.putRes lk rd (.r32 v)).thr = d.thr.setReg lk rd v := rfl
@[simp] theorem Dev.putRes_r64 (d : Dev) (lk rd v : Nat) : (d.putRes lk rd (.r64 v)).thr = d.thr.setPair lk rd v := rfl
@[simp] theorem Dev.putRes_p (d : Dev) (lk rd : Nat) (b : Bool) : (d.putRes lk rd (.p b)).thr = d.thr.setPred lk rd b := rfl
@[simp] theorem Dev.putRes_open32 (d : Dev) (lk rd : Nat) :
    (d.putRes lk rd .open32).thr = d.thr.setReg lk rd ((Config.freeWord d.fresh).toNat % 2 ^ 32) := rfl
@[simp] theorem Dev.putRes_open64 (d : Dev) (lk rd : Nat) :
    (d.putRes lk rd .open64).thr = d.thr.setPair lk rd (Config.freeWord d.fresh).toNat := rfl

/-- The registers, the predicates and the count of free values are all that differs. -/
def LaneFrame (d d' : Dev) : Prop := d' = { d with fresh := d'.fresh, thr := { d.thr with v := d'.thr.v, p := d'.thr.p } }

theorem LaneFrame.trans {d e f : Dev} (h : LaneFrame d e) (h' : LaneFrame e f) : LaneFrame d f := by
  unfold LaneFrame at *
  rw [h'] at *
  rw [h]

/-- A lane's registers and predicates hold what they held. -/
def LaneKept (t t' : Threads) (lk : Nat) : Prop := ∀ r, r < 256 → t'.reg lk r = t.reg lk r ∧ t'.pred lk r = t.pred lk r

/-- A lane's RD has taken a result, its other registers and predicates hold what they held. -/
def LaneTakes (t t' : Threads) (lk rd : Nat) (x : LRes) : Prop :=
  (∀ r v, r < 256 → x.reg rd r (t.reg lk r) = some v → t'.reg lk r = v) ∧
  (∀ r, r < 8 → t'.pred lk r = x.pred rd r (t.pred lk r))

theorem LaneKept.trans {t u w : Threads} {lk : Nat} (h : LaneKept t u lk) (h' : LaneKept u w lk) : LaneKept t w lk := fun r hr =>
  ⟨(h' r hr).1.trans (h r hr).1, (h' r hr).2.trans (h r hr).2⟩

/-- A result is taken whether the lane is left as it was before or after. -/
theorem LaneKept.takes {t u w : Threads} {lk rd : Nat} {x : LRes} (h : LaneKept t u lk) (h' : LaneTakes u w lk rd x) : LaneTakes t w lk rd x := by
  obtain ⟨hreg, hpred⟩ := h'
  refine ⟨fun r v hr hv => hreg r v hr ?_, fun r hr => ?_⟩
  · rwa [(h r hr).1]
  · rw [hpred r hr, (h r (by omega)).2]

theorem LaneTakes.kept {t u w : Threads} {lk rd : Nat} {x : LRes} (h : LaneTakes t u lk rd x) (h' : LaneKept u w lk) : LaneTakes t w lk rd x := by
  obtain ⟨hreg, hpred⟩ := h
  exact ⟨fun r v hr hv => (h' r hr).1.trans (hreg r v hr hv), fun r hr => (h' r (by omega)).2.trans (hpred r hr)⟩

theorem Dev.putRes_frame (d : Dev) (lk rd : Nat) (x : LRes) : LaneFrame d (d.putRes lk rd x) := by
  unfold LaneFrame
  cases x with
  | nothing => rfl
  | r32 v => exact congrArg (fun t => { d with thr := t }) (Threads.setReg_frame _ _ _ _)
  | r64 v => exact congrArg (fun t => { d with thr := t }) (Threads.setPair_frame _ _ _ _)
  | p b => exact congrArg (fun t => { d with thr := t }) (Threads.setPred_frame _ _ _ _)
  | open32 => exact congrArg (fun t => { d with fresh := d.fresh + 1, thr := t }) (Threads.setReg_frame _ _ _ _)
  | open64 => exact congrArg (fun t => { d with fresh := d.fresh + 1, thr := t }) (Threads.setPair_frame _ _ _ _)

/-- A result leaves the registers and predicates of every other lane. -/
theorem Dev.putRes_kept (d : Dev) {lk lk' rd : Nat} (x : LRes) (hrd : rd < 256) (hlk : lk' ≠ lk) :
    LaneKept d.thr (d.putRes lk rd x).thr lk' := by
  have hset : ∀ v, LaneKept d.thr (d.thr.setReg lk rd v) lk' := fun v r hr => by
    rcases Classical.em (r = 0) with rfl | h0
    · simp
    · simp [Threads.reg_setReg _ _ (Nat.le_of_lt hrd) hr h0, hlk]
  have hpair : ∀ v, LaneKept d.thr (d.thr.setPair lk rd v) lk' := fun v r hr => by
    rcases Classical.em (r = 0) with rfl | h0
    · simp
    · simp [Threads.reg_setPair _ _ hrd hr h0, hlk]
  cases x with
  | nothing => exact fun r _ => ⟨rfl, rfl⟩
  | r32 v => exact hset v
  | r64 v => exact hpair v
  | p b => exact fun r _ => by simp [Threads.pred_setPred, hlk]
  | open32 => exact hset _
  | open64 => exact hpair _

/-- A result reaches RD of its own lane. -/
theorem Dev.putRes_takes (d : Dev) (lk : Nat) {rd : Nat} (x : LRes) (hrd : rd < 256) :
    LaneTakes d.thr (d.putRes lk rd x).thr lk rd x := by
  refine ⟨fun r v hr hv => ?_, fun r hr => ?_⟩
  · rcases Classical.em (r = 0) with rfl | h0
    · simpa [LRes.reg] using hv
    · cases x with
      | nothing => simpa [LRes.reg, h0] using hv
      | r32 w => simpa [LRes.reg, h0, Threads.reg_setReg _ _ (Nat.le_of_lt hrd) hr h0] using hv
      | r64 w => simpa [LRes.reg, h0, Threads.reg_setPair _ _ hrd hr h0] using hv
      | p b => simpa [LRes.reg, h0] using hv
      | open32 =>
        obtain ⟨hne, rfl⟩ : r ≠ rd ∧ d.thr.reg lk r = v := by simpa [LRes.reg, h0] using hv
        simp [Threads.reg_setReg _ _ (Nat.le_of_lt hrd) hr h0, hne]
      | open64 =>
        obtain ⟨⟨hlow, hhigh⟩, rfl⟩ : (r ≠ rd ∧ r ≠ rd + 1) ∧ d.thr.reg lk r = v := by simpa [LRes.reg, h0] using hv
        simp [Threads.reg_setPair _ _ hrd hr h0, hlow, hhigh]
  · cases x with
    | p b => simp [Threads.pred_setPred, LRes.pred, Nat.mod_eq_of_lt hr, and_comm]
    | _ => simp [LRes.pred]

/-! ### The results of all executing lanes (R163, R167) -/

section
variable (key : Nat → Nat) (rd : Nat) (res : Nat → LRes)

/-- Lanes take their results in turn. -/
def Dev.putLanes (d : Dev) (l : List Nat) : Dev := l.foldl (fun d k => d.putRes (key k) rd (res k)) d

theorem Dev.putLanes_cons (d : Dev) (k : Nat) (l : List Nat) :
    d.putLanes key rd res (k :: l) = (d.putRes (key k) rd (res k)).putLanes key rd res l := rfl

theorem Dev.putLanes_frame (l : List Nat) (d : Dev) : LaneFrame d (d.putLanes key rd res l) := by
  induction l generalizing d with
  | nil => rfl
  | cons k l ih => exact (d.putRes_frame _ _ _).trans (ih _)

variable (hrd : rd < 256)
include hrd

theorem Dev.putLanes_kept {lk : Nat} {l : List Nat} (hlk : ∀ k ∈ l, lk ≠ key k) (d : Dev) :
    LaneKept d.thr (d.putLanes key rd res l).thr lk := by
  induction l generalizing d with
  | nil => exact fun r _ => ⟨rfl, rfl⟩
  | cons k l ih =>
    obtain ⟨hk, hl⟩ := List.forall_mem_cons.1 hlk
    exact (d.putRes_kept _ hrd hk).trans (ih hl _)

/-- Every lane takes its own result: a result of another lane before or after leaves it. -/
theorem Dev.putLanes_takes (hkey : Function.Injective key) {k : Nat} {l : List Nat} (hl : l.Nodup) (hk : k ∈ l) (d : Dev) :
    LaneTakes d.thr (d.putLanes key rd res l).thr (key k) rd (res k) := by
  induction l generalizing d with
  | nil => cases hk
  | cons j l ih =>
    obtain ⟨hj, hl⟩ := List.nodup_cons.1 hl
    rw [Dev.putLanes_cons]
    rcases List.mem_cons.1 hk with rfl | hk
    · refine (d.putRes_takes _ _ hrd).kept (Dev.putLanes_kept key rd res hrd (fun i hi h => hj ?_) _)
      rwa [hkey h]
    · refine (d.putRes_kept _ hrd fun h => hj ?_).takes (ih hl hk _)
      rwa [← hkey h]

end

theorem laneKey_injective (tile slot : Nat) : Function.Injective (laneKey tile slot) := fun j k h => by
  simpa [laneKey] using h

theorem Dev.runLanes_nodup (d : Dev) (i : Issue) (a : LaneArgs) : (d.runLanes i a).Nodup :=
  (List.nodup_range.filter _).filter _

/-! ### Computing instructions (R163–R167) -/

theorem Dev.compute_ok {d : Dev} {a : LaneArgs} {i : Issue} {ill : Issue → Option Nat} (f : Threads → Issue → List Nat → Nat → LRes)
    (hissue : d.issue? a = some i) (hpc : i.p.pc < i.l.ninstr) (hill : ill i = none) :
    d.compute a ill f =
      (d.putLanes (laneKey i.g.tile i.g.slot) a.rd.toNat (f d.thr i (d.runLanes i a)) (d.runLanes i a)).advance i := by
  simp [Dev.compute, hissue, hill, Nat.not_le.2 hpc, Dev.putLanes]

theorem Dev.compute_illegal {d : Dev} {a : LaneArgs} {i : Issue} {ill : Issue → Option Nat} {cause : Nat}
    (f : Threads → Issue → List Nat → Nat → LRes) (hissue : d.issue? a = some i) (hpc : i.p.pc < i.l.ninstr) (hill : ill i = some cause) :
    d.compute a ill f = d.laneError i .aborted cause i.first := by
  simp [Dev.compute, hissue, hill, Nat.not_le.2 hpc, Issue.first]

/-- A computing instruction gives every executing lane its result, computed from the state before. -/
theorem laneWrites_of_compute {c : LaneArgs → Instr} {ok : Dev → LaneArgs → Issue → Bool} {f : Dev → Issue → List Nat → LaneArgs → Nat → LRes}
    {ill : LaneArgs → Issue → Option Nat} {res : LaneArgs → Threads → Issue → List Nat → Nat → LRes}
    (hexec : ∀ a s, exec (c a) s = run (fun d => d.compute a (ill a) (res a)) s)
    (hill : ∀ d a i, ok d a i = true → ill a i = none)
    (hres : ∀ d a i, ok d a i = true → ∀ lanes k, res a d.thr i lanes k = f d i lanes a k) : LaneWrites c ok f := by
  rintro s a i ⟨⟨hlive, hup⟩, hissue, hpc⟩ hok
  have hf : res a s.dev.thr i (s.dev.runLanes i a) = f s.dev i (s.dev.runLanes i a) a := funext (hres s.dev a i hok _)
  have hrd : a.rd.toNat < 256 := a.rd.isLt
  have hcompute := Dev.compute_ok (res a) hissue hpc (hill s.dev a i hok)
  rw [hf] at hcompute
  refine ⟨_, by rw [hexec, run_up _ _ hlive hup, hcompute], ?_, fun lk r hr hlk => ?_, fun k hk => ?_⟩
  · have hframe := Dev.putLanes_frame (laneKey i.g.tile i.g.slot) a.rd.toNat (f s.dev i (s.dev.runLanes i a) a) (s.dev.runLanes i a) s.dev
    exact congrArg (fun d : Dev => { s with dev := d.advance i }) hframe
  · exact Dev.putLanes_kept _ _ _ hrd hlk s.dev r hr
  · exact Dev.putLanes_takes _ _ _ hrd (laneKey_injective _ _) (s.dev.runLanes_nodup i a) hk s.dev

/-! ### The named registers (R164) -/

theorem regsBad_eq_not_namedOk (i : Issue) (named : List (Nat × Bool)) : regsBad i.l.regs named = !namedOk i named := by
  rw [regsBad, namedOk, List.not_all_eq_any_not]
  refine congrArg (List.any named) (funext fun r => Bool.eq_iff_iff.2 ?_)
  simp

theorem illRegs_of_namedOk {i : Issue} {named : List (Nat × Bool)} (h : namedOk i named = true) : illRegs false named i = none := by
  simp [illRegs, regsBad_eq_not_namedOk, h]

theorem illRegs_of_not_namedOk {i : Issue} {named : List (Nat × Bool)} (h : namedOk i named = false) : illRegs false named i = some 0x02 := by
  simp [illRegs, regsBad_eq_not_namedOk, h]

/-! ### An instruction that ends its launch (R192) -/

/-- What may issue at a slot is its group's, on the group's current path, in a launch without an error. -/
theorem Dev.issue?_eq_some {d : Dev} {a : LaneArgs} {i : Issue} (h : d.issue? a = some i) :
    d.group? a.tile a.slot = some i.g ∧ d.thrL? i.g.launch = some i.l ∧ i.g.paths.head? = some i.p ∧ i.p.ready = true ∧ i.l.err = none := by
  unfold Dev.issue? at h
  split at h
  · cases h
  case h_2 g hg =>
    split at h
    case h_2 => cases h
    case h_1 l p hl hp =>
      obtain ⟨hmay, hi⟩ := Option.ite_none_right_eq_some.1 h
      obtain rfl := Option.some.inj hi
      simp only [Bool.and_eq_true, Option.isNone_iff_eq_none] at hmay
      obtain ⟨⟨⟨⟨⟨hready, herr⟩, -⟩, -⟩, -⟩, -⟩ := hmay
      exact ⟨hg, hl, hp, hready, herr⟩

theorem Dev.thrL?_op {d : Dev} {op : Nat} {l : ThrLaunch} (h : d.thrL? op = some l) : l.op = op := by
  simpa using List.find?_some h

/-- The issuing launch is found by its own number. -/
theorem Dev.issue?_thrL? {d : Dev} {a : LaneArgs} {i : Issue} (h : d.issue? a = some i) : d.thrL? i.l.op = some i.l := by
  obtain ⟨-, hl, -⟩ := Dev.issue?_eq_some h
  rwa [Dev.thrL?_op hl]

theorem Dev.thrL?_updThrL (d : Dev) (op : Nat) (f : ThrLaunch → ThrLaunch) (hf : ∀ l, (f l).op = l.op) :
    (d.updThrL op f).thrL? op = (d.thrL? op).map f :=
  (find?_updWhere_key ThrLaunch.op f d.thr.launches op op hf).trans (if_pos rfl)

/-- The invalidate-alls of a launch's tiles begin, and nothing else changes. -/
theorem Dev.foldl_l1Walk_frame (l : List Nat) (d : Dev) :
    ∃ busy, l.foldl (fun d t => d.l1Walk t) d = { d with tiles := { d.tiles with l1Busy := busy } } := by
  induction l generalizing d with
  | nil => exact ⟨_, rfl⟩
  | cons t l ih =>
    obtain ⟨busy, h⟩ := ih (d.l1Walk t)
    refine ⟨busy, h.trans ?_⟩
    unfold Dev.l1Walk
    split <;> rfl

/-- The final walk of a launch begins: the launch has ended, its tiles walk, and nothing else changes. -/
theorem Dev.finalWalk_frame {d : Dev} {op : Nat} {l : ThrLaunch} (h : d.thrL? op = some l) :
    ∃ ls busy, ls.find? (·.op == op) = some { l with ended := true } ∧
      d.finalWalk op = { d with tiles := { d.tiles with l1Busy := busy }, thr := { d.thr with launches := ls } } := by
  have hended := d.thrL?_updThrL op (fun l => { l with ended := true }) fun _ => rfl
  obtain ⟨busy, hwalk⟩ := Dev.foldl_l1Walk_frame l.tiles (d.updThrL op fun l => { l with ended := true })
  rw [h] at hended
  refine ⟨_, busy, hended, ?_⟩
  unfold Dev.finalWalk
  rw [h]
  exact hwalk

/-- The registers are all that differs. -/
def RegsOnly (d d' : Dev) : Prop := ∃ r, d' = { d with regs := r }

theorem RegsOnly.refl (d : Dev) : RegsOnly d d := ⟨_, rfl⟩

theorem RegsOnly.wr {d e : Dev} (h : RegsOnly d e) (f : Fld) (v : Nat) : RegsOnly d (e.wr f v) := by
  obtain ⟨r, rfl⟩ := h
  exact ⟨_, rfl⟩

/-! REEF_TD_STATUS is in registers of its own (Table 6.7). -/

theorem Dev.tdSync_frame (d : Dev) : RegsOnly d d.tdSync :=
  List.foldlRecOn (motive := RegsOnly d) _ _ (.refl d) fun _ he _ _ => ((he.wr _ _).wr _ _).wr _ _

theorem Dev.tdSync_rd (d : Dev) (f : Fld) (hf : 0x6000518 < f.reg) : d.tdSync.rd f = d.rd f := by
  refine List.foldlRecOn (motive := fun e : Dev => e.rd f = d.rd f) _ _ rfl fun e he die hdie => ?_
  have hne : f.reg ≠ 0x6000500 + die * 0x8 := by have := List.mem_range.1 hdie; omega
  rw [Dev.rd_wr_ne _ _ _ _ hne, Dev.rd_wr_ne _ _ _ _ hne, Dev.rd_wr_ne _ _ _ _ hne, he]

theorem Dev.thrFault_frame (d : Dev) (pc tile slot lane cause st : Nat) : RegsOnly d (d.thrFault pc tile slot lane cause st) :=
  (((((((RegsOnly.refl d).wr _ _).wr _ _).wr _ _).wr _ _).wr _ _).wr _ _).wr _ _

/-- The record of a launch's first error (Table 6.8). -/
theorem Dev.thrFault_rd (d : Dev) (pc tile slot lane cause st : Nat) :
    let e := d.thrFault pc tile slot lane cause st
    e.rd REEF_THR_FAULT_VALID = 1 ∧ e.rd REEF_THR_FAULT_STATUS = st % 2 ^ 8 ∧ e.rd REEF_THR_FAULT_CAUSE = cause % 2 ^ 8 ∧
      e.rd REEF_THR_FAULT_PC = pc % 2 ^ 24 ∧ e.rd REEF_THR_FAULT_LTILE = tile % 2 ^ 10 ∧
      e.rd REEF_THR_FAULT_SLOT = slot % 2 ^ 5 ∧ e.rd REEF_THR_FAULT_LANE = lane % 2 ^ 5 := by
  dsimp only [Dev.thrFault]
  refine ⟨?_, ?_, ?_, ?_, ?_, ?_, ?_⟩ <;> simp (disch := decide) only [Dev.rd_wr_disjoint, Dev.rd_wr_same] <;> rfl

theorem statusCode_lt (st : Status) : statusCode st < 2 ^ 8 := by cases st <;> decide

/-- A launch with an error: no further block is placed. -/
def ThrLaunch.fail (l : ThrLaunch) (st : Status) (cause : Nat) : ThrLaunch := { l with err := some (st, cause), nextBlk := l.nblocks }

/-- The first error of a launch: recorded, reported, its groups gone. -/
def Dev.thrStopped (d : Dev) (op : Nat) (st : Status) (cause pc tile slot lane : Nat) : Dev :=
  (((d.updThrL op (·.fail st cause)).thrFault pc tile slot lane cause (statusCode st)).event
    2 2 1 tile pc (statusCode st) cause).clearLaunch op

theorem Dev.thrError_eq {d : Dev} {op : Nat} {l : ThrLaunch} (st : Status) (cause pc tile slot lane : Nat)
    (hl : d.thrL? op = some l) (herr : l.err = none) :
    d.thrError op st cause pc tile slot lane = (d.thrStopped op st cause pc tile slot lane).finalWalk op := by
  unfold Dev.thrError
  rw [hl]
  dsimp only
  rw [if_neg (by simp [herr]), Dev.thrStopped]
  simp only [ThrLaunch.fail]

/-- Ending a launch with an error: the registers, the report, and the launch's own threads are all that differ. -/
theorem Dev.thrStopped_frame (d : Dev) (op : Nat) (st : Status) (cause pc tile slot lane : Nat) :
    ∃ r, d.thrStopped op st cause pc tile slot lane = { d with
      regs := r
      tdm := { d.tdm with reports := d.tdm.reports ++ [⟨2, 2, 1, tile, pc, statusCode st, cause⟩] }
      thr := { d.thr with
        launches := updWhere (·.op == op) (·.fail st cause) d.thr.launches
        groups := d.thr.groups.filter (·.launch != op), blocks := d.thr.blocks.filter (·.launch != op)
        accs := d.thr.accs.filter (·.launch != op) } } := by
  obtain ⟨r, hfault⟩ := Dev.thrFault_frame (d.updThrL op (·.fail st cause)) pc tile slot lane cause (statusCode st)
  unfold Dev.thrStopped Dev.clearLaunch
  rw [hfault]
  obtain ⟨r', hsync⟩ := Dev.tdSync_frame (Dev.updThr _ _)
  exact ⟨r', hsync⟩

theorem Dev.thrStopped_rd (d : Dev) (op : Nat) (st : Status) (cause pc tile slot lane : Nat) (f : Fld) (hf : 0x6000518 < f.reg) :
    (d.thrStopped op st cause pc tile slot lane).rd f = ((d.updThrL op (·.fail st cause)).thrFault pc tile slot lane cause (statusCode st)).rd f := by
  unfold Dev.thrStopped Dev.clearLaunch
  rw [Dev.tdSync_rd _ f hf, Dev.updThr_rd, Dev.event_rd]

theorem Dev.thrL?_thrStopped {d : Dev} {op : Nat} {l : ThrLaunch} (st : Status) (cause pc tile slot lane : Nat) (hl : d.thrL? op = some l) :
    (d.thrStopped op st cause pc tile slot lane).thrL? op = some (l.fail st cause) := by
  have hfail := d.thrL?_updThrL op (·.fail st cause) fun _ => rfl
  rw [hl] at hfail
  obtain ⟨r, hframe⟩ := d.thrStopped_frame op st cause pc tile slot lane
  rw [hframe]
  exact hfail

/-- A lane error ends the launch of the issuing instruction (R192). -/
theorem laneStops_of_laneError {c : Instr} {s : State} {a : LaneArgs} {i : Issue} (st : Status) (cause lane : Nat)
    (hissue : s.dev.issue? a = some i) (hexec : exec c s = .next { s with dev := s.dev.laneError i st cause lane }) :
    LaneStops c s i st cause lane := by
  obtain ⟨-, -, -, -, herr⟩ := Dev.issue?_eq_some hissue
  have hl := Dev.issue?_thrL? hissue
  obtain ⟨ls, busy, hls, hwalk⟩ := Dev.finalWalk_frame (Dev.thrL?_thrStopped st cause i.p.pc i.g.tile i.g.slot lane hl)
  obtain ⟨r, hframe⟩ := s.dev.thrStopped_frame i.l.op st cause i.p.pc i.g.tile i.g.slot lane
  have hrd := s.dev.thrStopped_rd i.l.op st cause i.p.pc i.g.tile i.g.slot lane
  rw [Dev.laneError, Dev.thrError_eq _ _ _ _ _ _ hl herr, hwalk] at hexec
  rw [hframe] at hexec hrd
  obtain ⟨hvalid, hstatus, hcause, hpc, htile, hslot, hlane⟩ := Dev.thrFault_rd
    (s.dev.updThrL i.l.op (·.fail st cause)) i.p.pc i.g.tile i.g.slot lane cause (statusCode st)
  rw [Nat.mod_eq_of_lt (statusCode_lt st)] at hstatus
  refine ⟨_, hexec, (hrd _ (by decide)).trans hvalid, (hrd _ (by decide)).trans hstatus, (hrd _ (by decide)).trans hcause,
    (hrd _ (by decide)).trans hpc, (hrd _ (by decide)).trans htile, (hrd _ (by decide)).trans hslot, (hrd _ (by decide)).trans hlane,
    rfl, ?_, fun g hg => ?_, rfl, rfl, rfl, rfl, rfl, rfl⟩
  · have hfound : (ls.find? (·.op == i.l.op)).any (fun l => l.err == some (st, cause) && l.ended) = true := by simp [hls, ThrLaunch.fail]
    exact hfound
  · simpa using (List.mem_filter.1 hg).2

/-! ### Floating point (Table 5.5) -/

/-- The registers that a floating-point instruction names: RD and its operands, as pairs for FP64. -/
def fpNamed (g : Fmt) (arity : Nat) (a : LaneArgs) : List (Nat × Bool) :=
  (a.rd.toNat :: [a.ra.toNat, a.rb, a.rc].take arity).map (·, g == .b64)

/-- What a floating-point function gives a lane, from the lane's operands before the instruction. -/
def fpResult (g : Fmt) (fn : Nat) (a : LaneArgs) (t : Threads) (i : Issue) (_ : List Nat) (k : Nat) : LRes :=
  let get := t.operand (g == .b64) (laneKey i.g.tile i.g.slot k)
  match stageFn g fn 0 a.rm (get a.ra.toNat) (get a.rb) (get a.rc) with
  | some v => if g == .b64 then .r64 v else .r32 v
  | none => .nothing

theorem laneFp_eq_compute (g : Fmt) (fn : Nat) (a : LaneArgs) :
    laneFp g fn a = run fun d => d.compute a (illRegs (a.rsvd != 0) (fpNamed g (fnArity fn) a)) (fpResult g fn a) := rfl

theorem fpResult_of_stageFn {g : Fmt} {fn : Nat} {a : LaneArgs} {t : Threads} {i : Issue} {l : List Nat} {k v : Nat}
    (h : stageFn g fn 0 a.rm (t.operand (g == .b64) (laneKey i.g.tile i.g.slot k) a.ra.toNat)
      (t.operand (g == .b64) (laneKey i.g.tile i.g.slot k) a.rb) (t.operand (g == .b64) (laneKey i.g.tile i.g.slot k) a.rc) = some v) :
    fpResult g fn a t i l k = if g == .b64 then .r64 v else .r32 v := by
  simp only [fpResult, h]

/-- A floating-point instruction gives each lane what Table 5.5 gives for its function on the lane's operands. -/
theorem laneFloat_of_stageFn {c : LaneArgs → Instr} {g : Fmt} {fn arity : Nat} {f : Nat → Nat → Nat → Nat → Nat}
    (hexec : ∀ a s, exec (c a) s = laneFp g fn a s) (harity : fnArity fn = arity)
    (hfn : ∀ rm x y z, stageFn g fn 0 rm x y z = some (f rm x y z)) : LaneFloat c g arity f := by
  refine laneWrites_of_compute (fun a s => (hexec a s).trans (congrFun (laneFp_eq_compute g fn a) s)) (fun d a i hok => ?_)
    fun d a i _ lanes k => fpResult_of_stageFn (hfn _ _ _ _)
  obtain ⟨hrsvd, hnamed⟩ := Bool.and_eq_true_iff.1 hok
  rw [harity, bne, hrsvd]
  exact illRegs_of_namedOk hnamed

/-- One function of Table 5.5 in its two classes, FP32 and FP64. -/
theorem laneFloat_both {c32 c64 : LaneArgs → Instr} {fn arity : Nat} {f : Fmt × (LaneArgs → Instr) → Nat → Nat → Nat → Nat → Nat}
    (h32 : ∀ a s, exec (c32 a) s = laneFp .b32 fn a s) (h64 : ∀ a s, exec (c64 a) s = laneFp .b64 fn a s) (harity : fnArity fn = arity)
    (hfn : ∀ p rm x y z, stageFn p.1 fn 0 rm x y z = some (f p rm x y z)) :
    ∀ p ∈ [(Fmt.b32, c32), (Fmt.b64, c64)], LaneFloat p.2 p.1 arity (f p) :=
  List.forall_mem_cons.2 ⟨laneFloat_of_stageFn h32 harity (hfn _), List.forall_mem_singleton.2 (laneFloat_of_stageFn h64 harity (hfn _))⟩

/-- A register beyond the thread's, or an odd one where a pair is named, ends the launch with cause 0x02 (R164). -/
theorem laneStops_of_laneFp {c : LaneArgs → Instr} {g : Fmt} {fn : Nat} (hexec : ∀ a s, exec (c a) s = laneFp g fn a s)
    {s : State} {a : LaneArgs} {i : Issue} (h : s.laneIssues a i) (hrsvd : a.rsvd = 0)
    (hnamed : namedOk i (fpNamed g (fnArity fn) a) = false) : LaneStops (c a) s i .aborted 0x02 i.first := by
  obtain ⟨⟨hlive, hup⟩, hissue, hpc⟩ := h
  have hill : illRegs (a.rsvd != 0) (fpNamed g (fnArity fn) a) i = some 0x02 := by
    rw [hrsvd]
    exact illRegs_of_not_namedOk hnamed
  refine laneStops_of_laneError .aborted 0x02 i.first hissue ?_
  rw [hexec, laneFp_eq_compute, run_up _ _ hlive hup, Dev.compute_illegal _ hissue hpc hill]

/-- Settles O27: each function in both its classes is its row of Table 5.5, and a bad pair is illegal. Which code a function correctly rounded to nearest gives where its enclosure stays open is the model's choice (assumption 12). -/
theorem laneFloatingPointInstructions : Obligations.LaneFloatingPointInstructions := by
  unfold Obligations.LaneFloatingPointInstructions
  exact ⟨
    laneFloat_both exec_fp32Add exec_fp64Add rfl fun _ _ _ _ _ => rfl,
    laneFloat_both exec_fp32Sub exec_fp64Sub rfl fun _ _ _ _ _ => rfl,
    laneFloat_both exec_fp32Mul exec_fp64Mul rfl fun _ _ _ _ _ => rfl,
    laneFloat_both exec_fp32Fma exec_fp64Fma rfl fun _ _ _ _ _ => rfl,
    laneFloat_both exec_fp32Min exec_fp64Min rfl fun _ _ _ _ _ => rfl,
    laneFloat_both exec_fp32Max exec_fp64Max rfl fun _ _ _ _ _ => rfl,
    laneFloat_both exec_fp32Abs exec_fp64Abs rfl fun _ _ _ _ _ => rfl,
    laneFloat_both exec_fp32Neg exec_fp64Neg rfl fun _ _ _ _ _ => rfl,
    laneFloat_both exec_fp32Rint exec_fp64Rint rfl fun _ _ _ _ _ => rfl,
    laneFloat_both exec_fp32Ldexp exec_fp64Ldexp rfl fun _ _ _ _ _ => rfl,
    laneFloat_both exec_fp32Rcp exec_fp64Rcp rfl fun _ _ _ _ _ => rfl,
    laneFloat_both exec_fp32Div exec_fp64Div rfl fun _ _ _ _ _ => rfl,
    laneFloat_both exec_fp32Sqrt exec_fp64Sqrt rfl fun _ _ _ _ _ => rfl,
    laneFloat_both exec_fp32Rsqrt exec_fp64Rsqrt rfl fun _ _ _ _ _ => rfl,
    laneFloat_both exec_fp32Exp exec_fp64Exp rfl fun _ _ _ _ _ => rfl,
    laneFloat_both exec_fp32Exp2 exec_fp64Exp2 rfl fun _ _ _ _ _ => rfl,
    laneFloat_both exec_fp32Log exec_fp64Log rfl fun _ _ _ _ _ => rfl,
    laneFloat_both exec_fp32Log2 exec_fp64Log2 rfl fun _ _ _ _ _ => rfl,
    laneFloat_both exec_fp32Tanh exec_fp64Tanh rfl fun _ _ _ _ _ => rfl,
    laneFloat_both exec_fp32Sigmoid exec_fp64Sigmoid rfl fun _ _ _ _ _ => rfl,
    laneFloat_both exec_fp32Erf exec_fp64Erf rfl fun _ _ _ _ _ => rfl,
    laneFloat_both exec_fp32Sin exec_fp64Sin rfl fun _ _ _ _ _ => rfl,
    laneFloat_both exec_fp32Cos exec_fp64Cos rfl fun _ _ _ _ _ => rfl,
    fun _ _ _ h hrsvd hnamed => laneStops_of_laneFp exec_fp64Add h hrsvd hnamed⟩

end Sys2Proof.Machine
end
